-- ==== Sys2Proof/Word.lean ====
section
/-! DEFINITION. The byte, and the three behaviours of R547 that a number has at its limit: it wraps (R548),
it saturates (R549), or it is kept exactly. -/
namespace Sys2Proof

/-- One byte of a mailbox, a descriptor, a ring entry or memory. -/
abbrev Byte := BitVec 8

/-- A value kept modulo 2^n, as the wrapping values of R548. -/
def wrapU (n x : Nat) : Nat := x % 2 ^ n

/-- A signed value kept in n bits, wrapping. -/
def wrapS (n : Nat) (x : Int) : Int := Int.bmod x (2 ^ n)

/-- A value that stops at all ones of its width, as the saturating counters of R549. -/
def satU (n x : Nat) : Nat := min x (2 ^ n - 1)

/-- A signed value held at the ends of its n-bit range. -/
def satS (n : Nat) (x : Int) : Int := max (-(2 ^ (n - 1) : Int)) (min x (2 ^ (n - 1) - 1))

/-- A value held between two bounds. -/
def clampI (lo hi x : Int) : Int := max lo (min hi x)

end Sys2Proof
end

