-- ==== Sys2Proof/Syntax.lean ====
section
/-! DEFINITION. The commands of the block: one constructor per row of spec/opcode_table.json. Every command carries the
instant `t` at which it happens, in ns from the model's origin of time (log entry 2); a command of a mailbox carries the
mailbox whose request it runs; an event of the device carries what the outside world supplied. -/
namespace Sys2Proof

/-- What a camera reports and how its links train, as a discovery or a re-read meets it (R59 to R63). -/
structure CameraInfo where
  /-- Link count and speed of ConnectionConfigDefault. -/
  defaultLinks : Nat
  defaultSpeed : Nat
  pixelFormat : Nat
  width : Nat
  minPeriodNs : Nat
  revision : Nat
  /-- Single-tap line-scan, or area-scan in line mode with Height 1, with one stream of its own. -/
  lineMode : Bool
  model : List Byte
  serial : List Byte
  /-- Data bytes a control packet may carry. -/
  packetData : Nat
  /-- Speeds at which every link locks, each with the eye widths the scan of step 6 finds, 1/256 UI, from Pn.0 on (R59). -/
  scans : List (Nat × List Nat)
  /-- 8b/10b code errors of the links in the last whole second at a speed, from Pn.0 on; 0 where none are listed (R69). -/
  errors : List (Nat × List Nat) := []
  deriving DecidableEq, Repr

/-- A control packet of the downstream host (R81, R82). -/
inductive VcamOp where
  | discovery
  /-- Read of the bootstrap register or feature with this index in the order of the table of R82, then
  ConnectionConfigDefault, DeviceUserID, WebCdDecimation, WebMdDecimation, WebFirstColumn, WebCdPitch, Standard, Revision,
  XmlManifestSize, XmlManifestSelector. -/
  | read (register : Fin 16)
  /-- Read of the GenICam description file through the XML manifest registers. -/
  | readXml (offset length : Nat)
  /-- Write of a register or feature that is read-only: the same indices. -/
  | writeReadOnly (register : Fin 16)
  | connectionConfig (links speed : Nat)
  | acquisitionStart
  | acquisitionStop
  | writeUserId (value : List (BitVec 8))
  deriving DecidableEq, Repr

/-- A line tag (R52). -/
structure Tag where
  number : Nat
  md : Nat
  timeS : Nat
  timeNs : Nat
  speed : Nat
  flags : Nat
  deriving DecidableEq, Repr, Inhabited

/-- The supply level of a bank of GP pins (R572). -/
inductive GpBank where
  | v18
  | v33
  /-- The bank ball is left open. -/
  | floating
  deriving DecidableEq, Repr, Inhabited

/-- An open blob, a segment of it, or an overflow region: its running sums (R187 to R196). -/
structure Blob where
  /-- The label: a number no other open blob has. -/
  key : Nat := 0
  area : Nat := 0
  sumC : Nat := 0
  sumC2 : Nat := 0
  /-- Σ of the line numbers, their squares and their products with the column, all from `nFirst`. -/
  sumL : Nat := 0
  sumL2 : Nat := 0
  sumCl : Nat := 0
  /-- Σ w(N) · (md(N) − md(Nfirst)). -/
  sumMd : Nat := 0
  greyMin : Nat := 4095
  greyMax : Nat := 0
  greySum : Nat := 0
  planes : Nat := 0
  planeCount : Vector Nat 8 := Vector.replicate 8 0
  /-- Sides shared with pixels outside (R196). -/
  perimeter : Nat := 0
  lanes : Nat := 0
  edges : Nat := 0
  nFirst : Nat := 0
  nLast : Nat := 0
  mdFirst : Nat := 0
  mdLast : Nat := 0
  /-- Speed of the tag of the last line, µm/s. -/
  speed : Nat := 0
  timeS : Nat := 0
  timeNs : Nat := 0
  cMin : Nat := 0
  cMax : Nat := 0
  /-- Line and leftmost column at which the chain began. -/
  chainLine : Nat := 0
  chainColumn : Nat := 0
  segment : Nat := 0
  /-- A segment has been emitted. -/
  emitted : Bool := false
  /-- Absorbed chains that had emitted a segment: start line, start column, key of the chain (R191). -/
  absorbed : List (Nat × Nat × Nat) := []
  coverageReduced : Bool := false
  timeDegraded : Bool := false
  positionSuspect : Bool := false
  /-- Its sums go to the gang neighbour on the tending side (R400). -/
  exported : Bool := false
  /-- It holds sums of the neighbour on the drive side (R400). -/
  imported : Bool := false
  /-- First lines with a pixel in the tending-side and drive-side boundary columns (R406). -/
  lowFirst : Option Nat := none
  highFirst : Option Nat := none
  /-- It touches the tending-side boundary while that is open; gang seam and first line of an open drive-side one (R406). -/
  lowOpen : Bool := false
  highOpen : Option (Nat × Nat) := none
  replayed : Bool := false
  deriving DecidableEq, Repr, Inhabited

/-- What the other members of a gang send (R395, R397, R398, R400). -/
inductive GangExchange where
  /-- Lane L0 samples of a line from column −gang_overlap of the neighbour's grid on, with that grid. -/
  | samples (line : Nat) (pixels : List (Option Nat)) (column0 : Int) (cdPitch : Nat)
  /-- The exported blobs of the neighbour with a run on a line, each with its sums not sent before, the keys of the exported
  blobs it absorbed there (the last part of `absorbed`), and whether the run touches column 0. -/
  | runs (line : Nat) (blobs : List (Blob × Bool))
  /-- The grid of a line of the neighbour on the tending side. -/
  | lowerGrid (line : Nat) (column0 : Int) (cdPitch columnCount : Nat)
  /-- Largest view offset of the member at a position. -/
  | viewOffset (position offset : Nat)
  /-- The join point (R407), an MD. -/
  | join (md : Nat)
  deriving DecidableEq, Repr

/-- What a PTP message tells the port that takes it (R348 to R350). -/
structure PtpMessage where
  /-- messageType: 0 Sync, 1 Delay_Req, 2 Pdelay_Req, 3 Pdelay_Resp, 8 Follow_Up, 9 Delay_Resp, 0xA Pdelay_Resp_Follow_Up,
  0xB Announce. -/
  messageType : Nat
  domain : Nat
  /-- Destination address, transport (UDP over IPv4 or IEEE 802.3), and whether it is a message of IEEE 802.1AS. -/
  dstMac : Nat
  udp : Bool
  gptp : Bool
  /-- What an Announce says of the grandmaster, and the port it comes from. -/
  gmPriority1 : Nat
  gmClockClass : Nat
  gmAccuracy : Nat
  gmVariance : Nat
  gmPriority2 : Nat
  gmIdentity : Nat
  parent : Nat
  stepsRemoved : Nat
  /-- UTC offset and its validity, as an Announce carries them. -/
  utcOffset : Int
  utcValid : Bool
  deriving DecidableEq, Repr

/-- A non-PTP Ethernet frame, as far as R349 and R267 look at it. -/
inductive EthFrame where
  /-- An ARP request for an address, and the sender's addresses. -/
  | arpRequest (target senderIp senderMac : Nat)
  /-- An ARP reply: the address it resolves. -/
  | arpReply (ip mac : Nat)
  /-- An ICMP echo request to an address, the sender's addresses, with its content. -/
  | icmpEcho (target senderIp senderMac : Nat) (data : List (BitVec 8))
  /-- An RTCP packet. -/
  | rtcp (data : List (BitVec 8))
  | other
  deriving DecidableEq, Repr

/-- One die, rail and DRAM conversion set of a housekeeping round (R489, R418). -/
structure Round where
  /-- The 8 internal references are within their tolerance. -/
  references : Bool
  /-- Conversions of the 24 die sensors, 1/16 °C. -/
  die : List Int
  /-- The 32 monitored rails, mV. -/
  rails : List Nat
  /-- DRAM sensors of each channel, 1/16 °C; none where the I3C read failed. -/
  dram : List (List (Option Int))
  deriving DecidableEq, Repr

/-- What an uncorrectable DRAM read struck (table of R430). -/
inductive DramHit where
  /-- A block of a lane, by the first trigger number of its span. -/
  | block (lane span : Nat)
  /-- Index or seam-log entries: the line they serve. -/
  | entry (line : Nat)
  /-- Rows of a frame. -/
  | rows
  /-- Model entries of a replay. -/
  | model
  /-- The Lodge working area, Ledger payloads, or calibration accumulators and results. -/
  | area
  deriving DecidableEq, Repr

/-- A DRAM read that met errors (R428, R430): channel; rank and subchannel, as `failed_devices` numbers devices by tens; the error in
each of the ten symbols of a code word, 0 for none; the symbol at which the decoder finds a single-symbol solution for errors in
several; row; location in 64-byte units; what it reads. -/
structure ReadError where
  ch : Fin 4
  group : Fin 4
  symbols : List Nat
  solution : Option (Fin 10)
  row : Nat
  location : Nat
  hit : DramHit
  deriving DecidableEq, Repr

/-- What boot finds of one DRAM channel (R411, R424): its SPD and the training runs of ten byte lanes at 4800 MT/s and at the higher
speed, oldest first, each with its eye width in ps and in steps (0 where it shows no eye) and its centre. -/
structure BootDram where
  densityGb : Nat
  ranks : Nat
  maxSpeed : Nat
  slow : List (List (Nat × Nat × Nat))
  fast : List (List (Nat × Nat × Nat))
  deriving DecidableEq, Repr, Inhabited

/-- An uncorrectable SRAM word, by what it holds (R507). -/
inductive SramHit where
  /-- Pixels of a line in a lane input buffer. -/
  | buffer (lane line first count : Nat)
  /-- Camera pixels of a lane's correction table. -/
  | table (lane first count : Nat)
  /-- Columns of a line in the filter line store. -/
  | store (line first count : Nat)
  /-- Columns of the reference model. -/
  | model (first count : Nat)
  /-- A blob of the label table, by its key. -/
  | label (key : Nat)
  /-- A block of a lane in staging, by the first trigger number of its span. -/
  | staging (lane span : Nat)
  /-- The DMA buffer; the descriptor ends as DMA_DESCRIPTOR's `fault` says. -/
  | dma
  /-- A Window engine; the job ends as ZIP_JOB_DONE's `hwFault` says. -/
  | window
  /-- The classifier's model store. -/
  | abacus
  /-- A cell of a roll channel's histogram. -/
  | cell (roll i j : Nat)
  /-- A frame of a preview stream. -/
  | belvedere (stream : Nat)
  | lodge
  | reserve
  deriving DecidableEq, Repr

/-- A word of bead memory that a scrub pass finds in error: what it holds, its row, its address in the pool, and which of its 72 bits are
flipped, 64 of data and 8 of check (R506). -/
structure SramWord where
  hit : SramHit
  row : Nat
  addr : Nat
  flipped : List Nat
  deriving DecidableEq, Repr

/-- The commands (spec/opcode_table.json). -/
inductive Instr where
  /-- ENC_CONFIGURE (R54). Configures one encoder channel, resetting its count, phase, revolutions, suspect state and illegal count, and re-basing MD when it is the main channel. -/
  | encConfigure (t : Nat) (mb : Fin 8)
  /-- ENC_GET_STATE (R30). Returns the state of one encoder channel and, with clear_suspect, clears its suspect state. -/
  | encGetState (t : Nat) (mb : Fin 8)
  /-- TRIG_CONFIGURE (R599). Configures the trigger generator and re-anchors MD and trigger numbers, discarding state held by trigger number. -/
  | trigConfigure (t : Nat) (mb : Fin 8)
  /-- TRIG_SET_PITCH (R46). Stages a new rational trigger pitch into an open Ledger transaction. -/
  | trigSetPitch (t : Nat) (mb : Fin 8)
  /-- WEB_SET_GEOMETRY (R49). Stages the CD grid and the per-lane view offsets into an open Ledger transaction. -/
  | webSetGeometry (t : Nat) (mb : Fin 8)
  /-- PORT_DISCOVER (R59). Starts bring-up of one camera port: power, discovery, bootstrap reads, connection setup, link lock and eye scan. -/
  | portDiscover (t : Nat) (mb : Fin 8)
  /-- DISCOVERY_COMPLETE (R60). Bring-up ends with the port READY, or after falling back through lower speeds ends in IDLE with a failure status. The camera found, or none when none answered in time. -/
  | discoveryComplete (t : Nat) (port : Fin 16) (camera : Option CameraInfo)
  /-- PORT_CONFIGURE (R68). Sets a port's role, power enable, recovery and timing parameters; with power_on set it clears a latched power fault. -/
  | portConfigure (t : Nat) (mb : Fin 8)
  /-- PORT_READ_CAMERA_REG (R74). Queues a pass-through read of camera registers over the control channel. -/
  | portReadCameraReg (t : Nat) (mb : Fin 8)
  /-- PORT_WRITE_CAMERA_REG (R75). Queues a pass-through write of camera registers, refusing protected registers while the port is STREAMING. -/
  | portWriteCameraReg (t : Nat) (mb : Fin 8)
  /-- CONTROL_ACK_RECEIVED (R74). A camera acknowledgement of a control packet arrives; the access continues, retries on a CRC failure, or ends. The acknowledgement of the control packet in flight. -/
  | controlAckReceived (t : Nat) (port : Fin 16) (crcOk error : Bool) (code : Nat) (data : List (BitVec 8))
  /-- CONTROL_ACK_TIMEOUT (R74). control_timeout_ms passes without an acknowledgement; the packet is retried or the access ends with ST_TIMEOUT. -/
  | controlAckTimeout (t : Nat) (port : Fin 16)
  /-- PORT_GET_LINK_QUALITY (R69). Returns the per-link health figures of a port and optionally clears its counters. `seen`: for each link from Pn.0 on, its code errors since they were last taken over and in the last whole second. -/
  | portGetLinkQuality (t : Nat) (mb : Fin 8) (seen : List (Nat × Nat))
  /-- LANE_MAP (R77). Assigns ports to lanes in CONFIGURE, restarting the counters and lane state of lanes whose port changes. -/
  | laneMap (t : Nat) (mb : Fin 8)
  /-- LANE_GET_STATUS (R58). Returns per-lane port, engine binding, delay and counters, and the spare and retired engines. -/
  | laneGetStatus (t : Nat) (mb : Fin 8)
  /-- VCAM_CONFIGURE (R80). Turns a port into a virtual camera or back to Host role, after checking the required rate against link capacity. -/
  | vcamConfigure (t : Nat) (mb : Fin 8)
  /-- VCAM_CONTROL_PACKET (R81). A control packet from the downstream host reaches a virtual camera: discovery, bootstrap reads, ConnectionConfig, AcquisitionStart or AcquisitionStop. -/
  | vcamControlPacket (t : Nat) (k : Fin 4) (op : VcamOp)
  /-- VCAM_TRIGGER_PACKET (R81). A trigger packet from the downstream host reaches a virtual camera and is acknowledged and counted. -/
  | vcamTriggerPacket (t : Nat) (k : Fin 4)
  /-- ENCODER_COUNT (R28). An accepted level change on an encoder input moves the count, phase, revolutions and MD, or is an illegal transition. Levels of the A and B inputs of a channel at the balls, and in how many consecutive samples of 4 ns each has stood so. -/
  | encoderCount (t : Nat) (ch : Fin 8) (a b : Bool) (heldA heldB : Nat)
  /-- INDEX_PULSE (R34). An accepted index edge sets the phase on the first index, or measures the deviation and reports or realigns. Level of the Z input, and in how many consecutive samples of 4 ns it has stood so. -/
  | indexPulse (t : Nat) (ch : Fin 8) (z : Bool) (held : Nat)
  /-- ZERO_SPEED_TIMEOUT (R38). No count arrives for zero_speed_timeout; speed becomes 0, stopped is set and EV_ENC_STOPPED is raised. -/
  | zeroSpeedTimeout (t : Nat) (ch : Fin 8)
  /-- LINE_TRIGGER (R47). MD reaches an outstanding trigger target at or beyond the high-water mark and the trigger is issued with its line tag. -/
  | lineTrigger (t : Nat)
  /-- CAMERA_LINE_RECEIVED (R65). A camera line arrives at a port and is matched to an outstanding trigger, declared lost or discarded as unsolicited. `first`: arrival of the first packet; `packets`, `crcErrors`: stream packets of the line on each link from Pn.0 on, and those of them that failed their CRC; `stream`: the pixel bytes as the format of R62 packs them. -/
  | cameraLineReceived (t : Nat) (port : Fin 16) (first : Nat) (packets crcErrors : List Nat) (stream : List (BitVec 8))
  /-- LINE_TIMEOUT (R66). A line is not complete line_timeout_us after its trigger instant and is declared lost. -/
  | lineTimeout (t : Nat) (port : Fin 16)
  /-- LINK_LOST (R71). A link loses lock or sees 8 consecutive code errors; the port goes DOWN and EV_LINK_DOWN is raised. -/
  | linkLost (t : Nat) (port : Fin 16) (link : Fin 4)
  /-- POWER_FAULT (R68). PWR_FLTn_N asserts after the blanking time; PWR_ENn is deasserted, the port enters FAULT and the fault latches. -/
  | powerFault (t : Nat) (port : Fin 16)
  /-- EYE_SCAN (R69). The periodic eye scan of a link judges its health and may raise EV_LINK_QUALITY_LOW. Eye width in 1/256 UI; code errors of the link since they were last taken over, and in the last whole second. -/
  | eyeScan (t : Nat) (port : Fin 16) (link : Fin 4) (width new errors : Nat)
  /-- CODE_ERROR_LIMIT (R70). A link reaches code_error_limit within one second and raises EV_LINK_QUALITY_LOW once. Code errors of the link since they were last taken over, and within that second. -/
  | codeErrorLimit (t : Nat) (port : Fin 16) (link : Fin 4) (new errors : Nat)
  /-- RECOVERY_ATTEMPT (R73). Every 100 ms a DOWN port with auto_recover tries to lock again at its trained speed. -/
  | recoveryAttempt (t : Nat) (port : Fin 16)
  /-- LINK_RELOCK (R73). A DOWN port regains lock, retrains and re-reads Width and PixelFormat, returning or staying DOWN with CONFIG_MISMATCH. The values read again. -/
  | linkRelock (t : Nat) (port : Fin 16) (width pixelFormat : Nat)
  /-- LANE_LINE_CORRECTION (R103). The engine bound to a lane corrects and resamples the camera line for its contribution to a stitched line. `n`: the stitched line the contribution is for. -/
  | laneLineCorrection (t : Nat) (lane : Fin 16) (n : Nat)
  /-- STITCHED_LINE_ASSEMBLY (R133). The Pergola assembles stitched line N from the lanes' contributions and passes it to detection, virtual cameras and previews. -/
  | stitchedLineAssembly (t : Nat)
  /-- PERGOLA_WAIT_EXPIRY (R135). A lane contribution still missing after 4 line times is treated as invalid and the line is flagged coverage-reduced. -/
  | pergolaWaitExpiry (t : Nat) (lane : Fin 16)
  /-- SEAM_MEASUREMENT (R127). A measurement window ends; the seam correlation is computed and the measurement is discarded, weak or good. 15 is the gang seam (R398). -/
  | seamMeasurement (t : Nat) (seam : Fin 16)
  /-- SEAM_POSITION_APPLY (R130). A new seam position applies from stitched line Nm + 64. 15 is the gang seam (R398). -/
  | seamPositionApply (t : Nat) (seam : Fin 16)
  /-- DETECTION_LINE (R175). DET compares a stitched line with the reference model, updates the model and profile, and delivers its plane mask after Fd lines. -/
  | detectionLine (t : Nat)
  /-- STREAK_EVALUATION (R169). A streak accumulator reaches the end of its window, is evaluated into column verdicts and is cleared. -/
  | streakEvaluation (t : Nat)
  /-- LABEL_LINE (R187). The Carry network labels the runs of one masked line, merging, closing and segmenting blobs. -/
  | labelLine (t : Nat)
  /-- BLOB_CLASSIFY (R220). The Abacus accepts a closed blob from the closure FIFO, forms its record and class, and passes it to Rotunda, marker scheduler and record queue. -/
  | blobClassify (t : Nat)
  /-- ROTUNDA_SWEEP (R235). The background sweep clears run in cells whose last revolution is 2 or more behind. -/
  | rotundaSweep (t : Nat) (roll : Fin 8)
  /-- RECORD_RING_WRITE (R203). The record path writes queued records, or a pending gap record, to the host record ring and updates the head block. -/
  | recordRingWrite (t : Nat)
  /-- TILE_WRITE (R209). A tile cut from the line store is written to its slot before its record. -/
  | tileWrite (t : Nat)
  /-- LATE_TILE_DELIVERY (R209). A tile fetched from the Orangery is written to its reserved slot, or written with status 1 when not found in time. Whether the Orangery supplied the oldest late tile in time; the DRAM
  reads with errors that its decoder met. -/
  | lateTileDelivery (t : Nat) (inTime : Bool) (errors : List ReadError)
  /-- IRQ_HOLDOFF_EXPIRY (R203). irq_holdoff_us passes since an unsignalled ring entry and the ring's MSI-X vector is signalled. DMA channel of the ring; 32 for the event ring. -/
  | irqHoldoffExpiry (t : Nat) (channel : Fin 33)
  /-- SHADOW_PERIOD_START (R136). At a block boundary the spare starts a shadow period on the next working lane with a copy of its lane state. -/
  | shadowPeriodStart (t : Nat)
  /-- SHADOW_BLOCK_COMPARE (R137). After a block's last line the spare and working engine CRCs are compared; a mismatch starts a takeover. First line of the block, and the bits of a CRC that a fault of either engine changed: 0 where there is none. -/
  | shadowBlockCompare (t : Nat) (block upset : Nat)
  /-- ENGINE_FAULT (R138). A working engine reports an internal fault and withholds the faulty line. The engines that report one in the same line time. -/
  | engineFault (t : Nat) (engines : List (Fin 17))
  /-- ENGINE_SELF_TEST_DONE (R144). The self-test of an engine taken out ends; it becomes the spare or is retired. -/
  | engineSelfTestDone (t : Nat) (engine : Fin 17) (passed : Bool)
  /-- ORANGERY_BLOCK_WRITE (R246). A coded lane block leaves staging for the look-back ring, taking the next free extent when the present one fills. Whether the block could be staged completely (R248). -/
  | orangeryBlockWrite (t : Nat) (staged : Bool)
  /-- ORANGERY_FLUSH_TIMEOUT (R247). No trigger arrives for flush_ms and the block in progress is flushed as a short block. -/
  | orangeryFlushTimeout (t : Nat)
  /-- LOOKBACK_JOB_START (R255). A waiting retrieval or replay job takes a free decoder and starts. -/
  | lookbackJobStart (t : Nat)
  /-- LOOKBACK_JOB_DONE (R254). A retrieval or replay job ends and EV_LOOKBACK_DONE reports its status. The DRAM reads with errors that the job met. -/
  | lookbackJobDone (t : Nat) (job : Nat) (errors : List ReadError)
  /-- FRAME_EMIT (R265). A preview stream's frame time arrives and the frame is delivered whole or dropped. Rows read from DRAM in time; room in the transmit queue; a read of its rows with errors. -/
  | frameEmit (t : Nat) (stream : Fin 4) (rowsRead transmitRoom : Bool) (error : Option ReadError)
  /-- RTCP_SENDER_REPORT (R267). Every 5 s an RTP stream sends an RTCP sender report. -/
  | rtcpSenderReport (t : Nat) (stream : Fin 4)
  /-- ZIP_JOB_START (R292). A queued compression or Tally job takes a free engine and DMA channel and starts. -/
  | zipJobStart (t : Nat)
  /-- ZIP_JOB_DONE (R296). A compression, Tally or archive job finishes and EV_ZIP_DONE is raised. The source bytes as the engine read them; `hwFault`: an uncorrectable word in the engine's memory (R507). -/
  | zipJobDone (t : Nat) (job : Nat) (source : List (BitVec 8)) (hwFault : Bool)
  /-- MARK_FIRE (R337). Interpolated MD reaches a queued mark's fire_md; the head fires if the carriage is in position, else the mark is missed. -/
  | markFire (t : Nat) (head : Fin 4)
  /-- AXIS_MOVE_COMPLETE (R318). A motion profile ends at its target and the axis becomes IDLE or moves on to its next mark. -/
  | axisMoveComplete (t : Nat) (axis : Fin 4)
  /-- AXIS_HOLD_DELAY (R323). hold_delay_ms after the last microstep the coil current falls to hold_current. -/
  | axisHoldDelay (t : Nat) (axis : Fin 4)
  /-- AXIS_STALL (R325). The encoder deviation exceeds dev_window for stall_time_us; the axis stops and enters FAULT. -/
  | axisStall (t : Nat) (axis : Fin 4)
  /-- AXIS_DRIVER_FAULT (R326). AXn_FLT_N asserts; AXn_EN is deasserted and the axis enters FAULT without its reference. -/
  | axisDriverFault (t : Nat) (axis : Fin 4)
  /-- LIMIT_SWITCH (R329). A limit switch in the direction of motion is accepted and the axis quick-stops into FAULT. -/
  | limitSwitch (t : Nat) (axis : Fin 4) (positive : Bool)
  /-- SWITCH_CHATTER (R330). A switch input changes more than 8 times within 50 ms; the axis stops and loses its reference. Raw transitions in the 50 ms window. -/
  | switchChatter (t : Nat) (axis : Fin 4) (positive : Bool) (transitions : Nat)
  /-- HOME_REFERENCE (R327). The homing reference is found; the position is set to home_position and the backoff move starts. -/
  | homeReference (t : Nat) (axis : Fin 4)
  /-- HOME_BACKOFF_DONE (R327). The backoff move ends; the axis becomes IDLE and EV_HOME_DONE reports result 0. -/
  | homeBackoffDone (t : Nat) (axis : Fin 4)
  /-- HOME_MAX_TRAVEL (R328). Homing passes max_travel without a reference and fails with result 1. -/
  | homeMaxTravel (t : Nat) (axis : Fin 4)
  /-- PTP_MESSAGE_RECEIVED (R350). A PTP message arrives on a port, is timestamped and processed by the protocol. -/
  | ptpMessageReceived (t : Nat) (port : Fin 2) (msg : PtpMessage)
  /-- PTP_MESSAGE_TRANSMIT (R351). A PTP event message is sent, one-step or with a transmit timestamp queue entry. -/
  | ptpMessageTransmit (t : Nat) (port : Fin 2) (messageType sequence domain : Nat)
  /-- ETH_FRAME_RECEIVED (R349). A non-PTP Ethernet frame arrives: ARP, ICMP echo and RTCP are handled, every other frame discarded. -/
  | ethFrameReceived (t : Nat) (port : Fin 2) (frame : EthFrame)
  /-- SERVO_OFFSET_SAMPLE (R355). An offset sample updates the servo integrator and increment, or steps the Sundial beyond step_threshold_ns. Offset in ns, positive when the Sundial is ahead. -/
  | servoOffsetSample (t : Nat) (offset : Int)
  /-- PATH_DELAY_SAMPLE (R360). A mean path delay sample is judged against m_avg, counted as an outlier or declares a path-delay step. Mean path delay, ns. -/
  | pathDelaySample (t : Nat) (port : Fin 2) (mean : Int)
  /-- PATH_HOLD_EXPIRY (R362). The path_hold_s hold after a path-delay step ends and the servo returns to ACQUIRING. -/
  | pathHoldExpiry (t : Nat)
  /-- PPS_IN_EDGE (R357). An accepted 1PPS_IN edge gives a servo offset sample. -/
  | ppsInEdge (t : Nat) (rising : Bool)
  /-- PPS_IN_LOST (R354). No 1PPS_IN edge arrives for 1.5 s and the servo enters HOLDOVER. -/
  | ppsInLost (t : Nat)
  /-- REF10M_LOSS (R344). 10MHZ_IN stops or leaves tolerance and the PLL falls back to the 25 MHz reference. -/
  | ref10mLoss (t : Nat)
  /-- PPS_OUT_EDGE (R358). 1PPS_OUT rises at a whole Sundial second for pps_out_width_ms. -/
  | ppsOutEdge (t : Nat)
  /-- PULSE_BOUNDARY (R363). A pulse schedule's time or MD point is reached and the output pulse is emitted or skipped. -/
  | pulseBoundary (t : Nat) (output : Fin 8)
  /-- PULSE_WIDTH_END (R363). A pulse's width elapses and the output returns inactive. -/
  | pulseWidthEnd (t : Nat) (output : Fin 8)
  /-- CAPTURE_EDGE (R369). An accepted edge on a capture input is timestamped and written to its ring. `t` is the first sample of the
  new level, `held` for how many consecutive samples it is seen. -/
  | captureEdge (t : Nat) (input : Fin 4) (rising : Bool) (held : Nat)
  /-- AUX_OUTPUT_SAMPLE (R378). An auxiliary channel reaches an output boundary; the output is filtered, corrected, blended and delivered or suppressed. Modulator samples since the channel's last row, oldest first, true for +1. -/
  | auxOutputSample (t : Nat) (ch : Fin 8) (samples : List Bool)
  /-- AUX_OVERLOAD_CHANGE (R372). A channel sets overload after 64 equal modulator samples or clears it after 1 024 without such a run. Modulator samples
  since the channel's last row, oldest first, true for +1. -/
  | auxOverloadChange (t : Nat) (ch : Fin 8) (samples : List Bool)
  /-- TONE_BLOCK_END (R389). A detector block of N outputs ends; magnitude and phase are formed and EV_TONE may be raised. -/
  | toneBlockEnd (t : Nat) (d : Fin 2)
  /-- AUX_RING_ENTRY_TIMEOUT (R390). 1 ms after its first output a partly filled sample ring entry is written. -/
  | auxRingEntryTimeout (t : Nat) (ch : Fin 8)
  /-- SAREC_TAG_RECEIVED (R396). A follower receives the leader's line tag over the Sarec link ahead of the trigger instant. The leader's tag, and the pitch that applies at its trigger. -/
  | sarecTagReceived (t : Nat) (tag : Tag) (pitch : Option (Nat × Nat))
  /-- FOLLOWER_TRIGGER (R396). A follower issues a received trigger to its cameras at the leader's trigger instant. -/
  | followerTrigger (t : Nat)
  /-- SAREC_LATENCY_MEASURE (R396). Every 1 s the latency of each Sarec link is measured. `retried`: frames sent once more since the last measurement. -/
  | sarecLatencyMeasure (t : Nat) (link : Fin 2) (ns retried : Nat)
  /-- SAREC_LINK_LOST (R402). A Sarec link is lost; traffic reroutes round a ring or the gang splits into ISLAND partitions. `link`: the position of the
  lower of the two members it joins. -/
  | sarecLinkLost (t : Nat) (link : Fin 4)
  /-- SAREC_LINK_HEALTHY (R407). A partition boundary has carried valid frames for 1 s; members report REJOINING and an automatic join may be scheduled.
  `link`: the position of the lower of the two members it joins. -/
  | sarecLinkHealthy (t : Nat) (link : Fin 4)
  /-- GANG_FORM (R394). Gang members meet over the links, elect the leader by node ID or report a node ID conflict. Node IDs met, by position; bit p set where the member at p has its own copy of the main encoder;
  `gang_overlap` of the members, by position. -/
  | gangForm (t : Nat) (nodes : List Nat) (encoders : Nat) (overlaps : List Nat)
  /-- DRAM_REFRESH (R417). tREFI elapses and a rank refresh is issued or, under panic, postponed up to four. Bytes left in the Belvedere's staging pool. -/
  | dramRefresh (t : Nat) (ch : Fin 4) (rank : Fin 2) (belvedereLeft : Nat)
  /-- DRAM_ACTIVATION_LIMIT (R421). A requester's activations to one row pass 2 048 in a window; a refresh-management command is issued and ordinary requesters are limited. The bank's sampled table as it stands
  then: rows, each with its activations by requester, in the order of the table of R415. -/
  | dramActivationLimit (t : Nat) (ch : Fin 4) (bank : Nat) (rows : List (Nat × List Nat))
  /-- DRAM_REFRESH_WINDOW_END (R421). A refresh window ends and the sampled activation tables are cleared. -/
  | dramRefreshWindowEnd (t : Nat) (ch : Fin 4)
  /-- DRAM_ZQ_CALIBRATION (R424). Every 128 ms ZQ calibration runs on each channel. -/
  | dramZqCalibration (t : Nat)
  /-- DRAM_DQS_TRACKING (R424). Every 1 s DQS tracking measures each byte lane and may move its centre by one step. Direction measured per byte lane: -1, 0 or 1. -/
  | dramDqsTracking (t : Nat) (ch : Fin 4) (directions : List Int)
  /-- DRAM_RETRAIN_STEP (R425). A background retrain step of a byte lane runs and may accept or flag its result. The run that the step completes. -/
  | dramRetrainStep (t : Nat) (ch : Fin 4) (eyePs eyeSteps centre : Nat)
  /-- DRAM_SPEED_SWITCH (R426). One channel switches speed through self-refresh with its stored training set. -/
  | dramSpeedSwitch (t : Nat) (ch : Fin 4)
  /-- DRAM_PATROL_SCRUB (R431). The patrol scrub reads and corrects DRAM locations, retiring extents that stay uncorrectable. The reads with
  errors since the last row; the ring extent in which an uncorrectable one lies; still uncorrectable after the rewrite; progress of the pass. -/
  | dramPatrolScrub (t : Nat) (ch : Fin 4) (errors : List ReadError) (extent : Option Nat) (rewritten : Bool) (permille : Nat)
  /-- SRAM_SCRUB (R506). The SRAM scrub corrects words and replaces rows that fail on two consecutive passes. One pass: the words in error. -/
  | sramScrub (t : Nat) (words : List SramWord)
  /-- HOUSEKEEPING_ROUND (R489). Every 8 ms sensors and monitors are converted and every threshold, sensor-failure and throttle rule is evaluated. -/
  | housekeepingRound (t : Nat) (round : Round)
  /-- GRACE_TIME_EXPIRY (R495). The throttle grace time ends and level 1 is enforced if the die is still at or above the request threshold. -/
  | graceTimeExpiry (t : Nat)
  /-- SUPPLY_DIP (R503). A rail returns from an excursion below its warning band; EV_SUPPLY_WARN is raised and writes are held. Lowest sample, mV. -/
  | supplyDip (t : Nat) (monitor : Fin 32) (lowest durationUs : Nat)
  /-- SUPPLY_EXCURSION_SUSTAINED (R503). An excursion lasts 10 ms and EV_SUPPLY_WARN kind 1 is raised without waiting for its end. -/
  | supplyExcursionSustained (t : Nat) (monitor : Fin 32) (lowest : Nat)
  /-- SUPPLY_OVER (R503). A rail rises above its warning band and EV_SUPPLY_WARN kind 2 is raised. -/
  | supplyOver (t : Nat) (monitor : Fin 32) (lowest durationUs : Nat)
  /-- SUPPLY_HOLD_END (R503). Every rail has stayed in band for 100 ms and held flash writes resume. -/
  | supplyHoldEnd (t : Nat)
  /-- SUPPLY_UNSTABLE_CLEAR (R504). 10 s pass without a dip and the supply-unstable condition clears. -/
  | supplyUnstableClear (t : Nat)
  /-- SUPPLY_RESET (R505). A rail below its reset level for 1 µs resets the device as a power-on reset. The monitor whose rail fell below its reset level. -/
  | supplyReset (t : Nat) (monitor : Fin 32)
  /-- LIFE_SUMMARY (R509). Every 10 minutes a summary entry is appended to the life record. -/
  | lifeSummary (t : Nat)
  /-- LIFE_CHECKPOINT (R509). Every 24 h a checkpoint of every total is appended to the life record. -/
  | lifeCheckpoint (t : Nat)
  /-- LIFE_JOURNAL_WRITE (R508). A queued journal entry is written to areas A and B of the flash. -/
  | lifeJournalWrite (t : Nat)
  /-- TELEMETRY (R513). Every 1 s EV_TELEMETRY is raised and a snapshot written to the telemetry ring when enabled. -/
  | telemetry (t : Nat)
  /-- TAMPER_ASSERT (R526). A tamper source asserts; its action logs, latches LOCKDOWN and may erase the keys. `powered`: main power is present. -/
  | tamperAssert (t : Nat) (source : Fin 9) (powered : Bool)
  /-- SESSION_CHALLENGE_EXPIRY (R518). An outstanding session challenge expires after 10 s. `unlock`: the challenge of SEC.UNLOCK, else that of SEC.SESSION_OPEN. -/
  | sessionChallengeExpiry (t : Nat) (mb : Fin 8) (unlock : Bool)
  /-- SESSION_IDLE_TIMEOUT (R519). A session sees no command for idle_s and ends with EV_SESSION. -/
  | sessionIdleTimeout (t : Nat) (mb : Fin 8)
  /-- PROOF_LOCKOUT_END (R520). The 60 s refusal after 8 consecutive failed proofs ends. -/
  | proofLockoutEnd (t : Nat)
  /-- EVENT_RING_WRITE (R459). A held event is written from the FIFO to the event ring in sequence order, preceded by EV_EVENTS_LOST after losses. -/
  | eventRingWrite (t : Nat)
  /-- RATE_LIMIT_SECOND_END (R596). The collection second of a rate-limited event ends and one further event reports its occurrences. Event and the instance its limit is kept for. -/
  | rateLimitSecondEnd (t : Nat) (code inst : Nat)
  /-- DMA_DESCRIPTOR (R446). A channel fetches, checks and runs one descriptor, writes its status and clears own. The 64 bytes fetched; the bytes read from a host source; a fault of the transfer as (completion code, cause, bytes moved before it); the `next` field of the last descriptor as it reads when the channel reads it again. -/
  | dmaDescriptor (t : Nat) (ch : Fin 32) (desc data : List (BitVec 8)) (fault : Option (Nat × Nat × Nat)) (nextAgain : Nat)
  /-- DMA_STOP_EFFECT (R451). A pending stop request ends the descriptor in progress at the next line boundary with ERR_STOPPED and halts the channel. As DMA_DESCRIPTOR; `lines`: lines moved before the stop. -/
  | dmaStopEffect (t : Nat) (ch : Fin 32) (desc data : List (BitVec 8)) (lines : Nat)
  /-- MODE_CONDITION_REPORT (R532). Borusk firmware reports a change of primary mode among INSPECT, DEGRADED, THROTTLED and ISLAND and raises EV_MODE_CHANGE. -/
  | modeConditionReport (t : Nat)
  /-- MODE_EXIT_DRAIN_COMPLETE (R536). Every triggered line has been completed after leaving a triggering mode; blobs close, ports return to READY and the new mode is entered. -/
  | modeExitDrainComplete (t : Nat)
  /-- CAL_PHASE_DONE (R111). A flat-field or geometry calibration phase completes its capture and EV_CAL_DONE reports its verdict. -/
  | calPhaseDone (t : Nat)
  /-- CAL_TIMEOUT (R104). timeout_s passes before a calibration phase ends and it fails with ST_TIMEOUT. -/
  | calTimeout (t : Nat)
  /-- CAL_AUX_DONE (R383). An auxiliary calibration phase completes its averaging and EV_CAL_DONE kind 2 reports it. -/
  | calAuxDone (t : Nat)
  /-- CAL_LINKS_DONE (R484). A link calibration run reaches duration_s and EV_CAL_DONE kind 3 reports its verdicts. Eye heights measured in mV, entry 4 × n + m for link Pn.m. -/
  | calLinksDone (t : Nat) (heights : List Nat)
  /-- LOCKSTEP_RECOVERY (R545). A Lodge core mismatch or watchdog expiry restores the last checkpoint and restarts the cores. `ended`: false at the mismatch or the watchdog expiry, true when the cores run again. -/
  | lockstepRecovery (t : Nat) (ended : Bool)
  /-- LODGE_CHECKPOINT (R545). Every 10 ms Borusk firmware checkpoints its state into Lodge memory. -/
  | lodgeCheckpoint (t : Nat)
  /-- FW_ACTIVATION_RESTART (R482). The Lodge restart onto the new bank completes, or falls back, and EV_FW_READY is raised. `begins`: the restart starts; else it ends, and `ok` says whether the new image verifies, or whether the fresh load of R546 completes. -/
  | fwActivationRestart (t : Nat) (begins ok : Bool)
  /-- POWER_ON_RESET (R543). First power, after every rail has been in band for 10 ms, resets everything outside the battery domain and fuses. `batteryLost`: the battery domain has lost its contents meanwhile. -/
  | powerOnReset (t : Nat) (batteryLost : Bool) (bankA bankB : GpBank)
  /-- RESET_N_ASSERT (R543). RESET_N held low for at least 1 µs resets the device as a power-on reset, keeping THERMAL-HALT. -/
  | resetNAssert (t : Nat)
  /-- PERST_N_RISE (R541). The first rise of PERST_N after reset starts the boot timeline. PCI Express lanes and speed code (1 to 5) as trained afterwards; width 0: no link. -/
  | perstNRise (t : Nat) (width speed : Nat)
  /-- BOOT_COMPLETE (R541). Boot ends in STANDBY, LOCKDOWN or RECOVERY and EV_FW_READY and EV_MODE_CHANGE are raised. Bit b of `passes`: the image of bank b verifies; what boot found of D0 to D3. -/
  | bootComplete (t : Nat) (passes : Nat) (dram : List (Option BootDram))
  /-- HOST_INTERFACE_RESET (R436). A later PERST_N, hot reset, Function Level Reset or link-down resets only the host interface. 0 PERST_N, 1 hot reset, 2 Function Level Reset, 3 link-down; link width and speed as trained afterwards. -/
  | hostInterfaceReset (t : Nat) (kind : Fin 4) (width speed : Nat)
  /-- POWER_STATE_CHANGE (R437). The endpoint enters D3hot and stops requests, or returns to D0 and resumes. -/
  | powerStateChange (t : Nat) (d3hot : Bool)
  /-- MBX_RESPONSE_WRITE (R588). A write to MBX_RESPONSE clears the written response bits. -/
  | mbxResponseWrite (t : Nat) (value : Nat)
  /-- MBX_IGNORED_READ (R588). A read of MBX_IGNORED returns and clears the ignored-doorbell counts, latching the upper half on a lower-half read. 0 the lower half, 1 the upper half, 2 all 8 bytes. -/
  | mbxIgnoredRead (t : Nat) (part : Fin 3)
  /-- EVQ_TAIL_WRITE (R460). Host software writes the event ring tail; a value breaking the ring rule is ignored with EV_DMA_ERROR. -/
  | evqTailWrite (t : Nat) (value : Nat)
  /-- DMA_CHAIN_WRITE (R448). A write to DMA_CHAIN of an idle or halted channel sets the first descriptor of a new chain. -/
  | dmaChainWrite (t : Nat) (ch : Fin 32) (value : Nat)
  /-- DMA_DOORBELL (R448). A doorbell starts or resumes a channel's chain, or sets recheck while it is active. `nextAgain`: the `next` field of the last descriptor as it reads now. -/
  | dmaDoorbell (t : Nat) (ch : Fin 32) (nextAgain : Nat)
  /-- DMA_STOP_REQUEST (R451). Writing stop to DMA_CONTROL requests the channel to stop, or is ignored on an idle, halted or owned channel. -/
  | dmaStopRequest (t : Nat) (ch : Fin 32)
  /-- DMA_TAIL_WRITE (R203). Host software writes a ring tail; a value that would overfill the ring is ignored with EV_DMA_ERROR. -/
  | dmaTailWrite (t : Nat) (ch : Fin 32) (value : Nat)
  /-- SDL_SUBSEC_READ (R590). A read of SDL_SUBSEC latches the Sundial and returns its sub-second part. Whether the read takes all 8 bytes. -/
  | sdlSubsecRead (t : Nat) (upper : Bool)
  /-- LOWER_HALF_READ (R554). A 4-byte read of the lower half of a 64-bit register latches its upper half for the next read. Offset of the register; the read: 0 its lower half, 1 its upper half, 2 all 8 bytes, 3 a read of another size (R438). -/
  | lowerHalfRead (t : Nat) (offset : Nat) (part : Fin 4)
  /-- MSIX_ENTRY_WRITE (R439). A write to an MSI-X entry sets its address, data or mask; unmasking signals a pending vector once. `word`: 0 and 1 address, 2 data, 3 mask. -/
  | msixEntryWrite (t : Nat) (vector : Fin 64) (word : Fin 4) (value : Nat)
  /-- REGISTER_WRITE (R438). A write to a BAR0 register with no behaviour of its own is stored or ignored. -/
  | registerWrite (t : Nat) (offset length value : Nat)
  /-- CAL_FLAT_FIELD (R105). Starts a DARK or BRIGHT flat-field calibration phase on the lanes of the mask. -/
  | calFlatField (t : Nat) (mb : Fin 8)
  /-- CAL_GEOMETRY (R109). Starts a geometry calibration against the listed target edges. -/
  | calGeometry (t : Nat) (mb : Fin 8)
  /-- CAL_GET_RESULT (R118). Returns a section of a calibration result or the live lane state, optionally discarding the result. A read of the calibration area with errors that the command met. -/
  | calGetResult (t : Nat) (mb : Fin 8) (error : Option ReadError)
  /-- PIPE_SET_CORRECTION (R114). Stages lane parameters, table chunks, a forward map or a calibration result. -/
  | pipeSetCorrection (t : Nat) (mb : Fin 8)
  /-- PIPE_SET_STITCH (R149). Stages the settings of one seam. -/
  | pipeSetStitch (t : Nat) (mb : Fin 8)
  /-- PIPE_SET_REFERENCE (R179). Stages reference model settings. -/
  | pipeSetReference (t : Nat) (mb : Fin 8)
  /-- PIPE_SET_DETECTION (R180). Stages band thresholds or a plane definition. -/
  | pipeSetDetection (t : Nat) (mb : Fin 8)
  /-- PIPE_SET_FILTERS (R181). Stages one 2-D filter unit or the streak detector. -/
  | pipeSetFilters (t : Nat) (mb : Fin 8)
  /-- PIPE_SET_LABELLING (R211). Stages labelling settings. -/
  | pipeSetLabelling (t : Nat) (mb : Fin 8)
  /-- PIPE_SET_TILES (R212). Stages tile settings. -/
  | pipeSetTiles (t : Nat) (mb : Fin 8)
  /-- PIPE_LOAD_CLASSIFIER (R226). Stages one chunk of a classifier model container, checking the container at the last chunk. -/
  | pipeLoadClassifier (t : Nat) (mb : Fin 8)
  /-- PIPE_SET_RECURRENCE (R239). Stages record channels or one roll channel. -/
  | pipeSetRecurrence (t : Nat) (mb : Fin 8)
  /-- OUT_SET_RECORD_RING (R214). Enables, disables or reconfigures the host record ring. -/
  | outSetRecordRing (t : Nat) (mb : Fin 8)
  /-- OUT_SET_TILE_RING (R214). Enables, disables or reconfigures the host tile ring. -/
  | outSetTileRing (t : Nat) (mb : Fin 8)
  /-- OUT_GET_STATS (R485). Returns latched statistics sections and restarts their since-last-read values. -/
  | outGetStats (t : Nat) (mb : Fin 8)
  /-- LOOKBACK_CONFIGURE (R270). Sets the look-back ring size, depth, flush time and enable. -/
  | lookbackConfigure (t : Nat) (mb : Fin 8)
  /-- LOOKBACK_RETRIEVE (R251). Queues a retrieval of a region of stored web into host memory. -/
  | lookbackRetrieve (t : Nat) (mb : Fin 8)
  /-- LOOKBACK_REPLAY (R259). Queues a replay of a region through detection on the spare engine. -/
  | lookbackReplay (t : Nat) (mb : Fin 8)
  /-- LOOKBACK_PIN (R257). Pins the extents of a region or releases a pin. -/
  | lookbackPin (t : Nat) (mb : Fin 8)
  /-- LOOKBACK_STATUS (R250). Returns the state of the look-back ring and of one job. -/
  | lookbackStatus (t : Nat) (mb : Fin 8)
  /-- VIEW_CONFIGURE (R271). Configures a preview stream that is not started. -/
  | viewConfigure (t : Nat) (mb : Fin 8)
  /-- VIEW_STREAM_START (R271). Starts a preview stream after checking its RTP rate and width. -/
  | viewStreamStart (t : Nat) (mb : Fin 8)
  /-- VIEW_STREAM_STOP (R271). Stops a preview stream after the frame in delivery. -/
  | viewStreamStop (t : Nat) (mb : Fin 8)
  /-- ZIP_SUBMIT (R292). Queues a DEFLATE, Tally or archive job. -/
  | zipSubmit (t : Nat) (mb : Fin 8)
  /-- ZIP_STATUS (R289). Returns the state and outcome of a compression job. -/
  | zipStatus (t : Nat) (mb : Fin 8)
  /-- ZIP_CANCEL (R295). Removes a queued job or stops a running one. -/
  | zipCancel (t : Nat) (mb : Fin 8)
  /-- LEDGER_OPEN (R300). Opens a new Ledger transaction with its late policy. -/
  | ledgerOpen (t : Nat) (mb : Fin 8)
  /-- LEDGER_COMMIT (R305). Validates a transaction and arms it at its commit point, or rejects it. A read of the Ledger area with errors that the command met. -/
  | ledgerCommit (t : Nat) (mb : Fin 8) (error : Option ReadError)
  /-- LEDGER_ABORT (R312). Aborts an open or armed transaction unless it has already applied. -/
  | ledgerAbort (t : Nat) (mb : Fin 8)
  /-- LEDGER_STATUS (R300). Returns the state of a transaction or the Ledger counts. -/
  | ledgerStatus (t : Nat) (mb : Fin 8)
  /-- AXIS_CONFIGURE (R340). Configures an axis's driver, currents, limits and encoder. -/
  | axisConfigure (t : Nat) (mb : Fin 8)
  /-- AXIS_HOME (R327). Starts homing of an axis toward a hard stop or switch. -/
  | axisHome (t : Nat) (mb : Fin 8)
  /-- AXIS_MOVE (R319). Stages or immediately starts a move of an axis to a new target. -/
  | axisMove (t : Nat) (mb : Fin 8)
  /-- AXIS_STOP (R324). Stops an axis, optionally powering it down or clearing a fault. -/
  | axisStop (t : Nat) (mb : Fin 8)
  /-- AXIS_STATUS (R339). Returns an axis's state or entries of the mark log. -/
  | axisStatus (t : Nat) (mb : Fin 8)
  /-- MARK_CONFIGURE (R341). Stages a marker head or rule. -/
  | markConfigure (t : Nat) (mb : Fin 8)
  /-- TIME_GET (R345). Returns the latched Sundial time and servo state, or the outputs and captures. -/
  | timeGet (t : Nat) (mb : Fin 8)
  /-- TIME_SET (R370). Steps the Sundial to an absolute or relative time. -/
  | timeSet (t : Nat) (mb : Fin 8)
  /-- PTP_CONFIGURE (R349). Configures the PTP clock or one Ethernet port. -/
  | ptpConfigure (t : Nat) (mb : Fin 8)
  /-- PTP_STATUS (R348). Returns the PTP state of one port. -/
  | ptpStatus (t : Nat) (mb : Fin 8)
  /-- SERVO_CONFIGURE (R353). Selects the servo source and frequency reference and sets its gains and thresholds. -/
  | servoConfigure (t : Nat) (mb : Fin 8)
  /-- PULSE_SCHEDULE (R365). Stages or immediately programs a schedule on a pulse output. -/
  | pulseSchedule (t : Nat) (mb : Fin 8)
  /-- PULSE_CANCEL (R366). Ends the schedule of a pulse output without a runt pulse. -/
  | pulseCancel (t : Nat) (mb : Fin 8)
  /-- CAPTURE_CONFIGURE (R369). Configures a capture input and its host ring. -/
  | captureConfigure (t : Nat) (mb : Fin 8)
  /-- AUX_CONFIGURE (R384). Configures the sample ring, a channel, or a resettle of auxiliary channels. -/
  | auxConfigure (t : Nat) (mb : Fin 8)
  /-- AUX_LOAD_COEFFS (R386). Stages or immediately loads a FIR coefficient set into a channel's idle bank. -/
  | auxLoadCoeffs (t : Nat) (mb : Fin 8)
  /-- AUX_SWAP_BANK (R387). Stages or requests a bank swap with optional cross-fade. -/
  | auxSwapBank (t : Nat) (mb : Fin 8)
  /-- AUX_TONE_CONFIGURE (R389). Configures a single-frequency detector. -/
  | auxToneConfigure (t : Nat) (mb : Fin 8)
  /-- AUX_READ (R380). Returns auxiliary channel, detector or calibration state. -/
  | auxRead (t : Nat) (mb : Fin 8)
  /-- CAL_AUX (R383). Starts an offset and gain calibration phase of auxiliary channels. -/
  | calAux (t : Nat) (mb : Fin 8)
  /-- CAL_LINKS (R484). Starts a camera link calibration run or reads its last result. -/
  | calLinks (t : Nat) (mb : Fin 8)
  /-- GANG_CONFIGURE (R408). Configures gang membership or requests a re-join. -/
  | gangConfigure (t : Nat) (mb : Fin 8)
  /-- GANG_STATUS (R402). Returns the gang state, role, links and seam. -/
  | gangStatus (t : Nat) (mb : Fin 8)
  /-- DRAM_STATUS (R429). Returns DRAM channel, training or error-log state. -/
  | dramStatus (t : Nat) (mb : Fin 8)
  /-- SYS_SET_EVENT_RING (R463). Enables, disables or reconfigures the event ring. -/
  | sysSetEventRing (t : Nat) (mb : Fin 8)
  /-- SYS_SET_EVENT_MASK (R464). Sets which events are raised. -/
  | sysSetEventMask (t : Nat) (mb : Fin 8)
  /-- HEALTH_STATUS (R513). Returns the health summary and optionally configures telemetry. -/
  | healthStatus (t : Nat) (mb : Fin 8)
  /-- THERMAL_CONFIGURE (R501). Lowers the thermal thresholds and sets the grace time. -/
  | thermalConfigure (t : Nat) (mb : Fin 8)
  /-- THERMAL_ACK_REQUEST (R496). Acknowledges a throttle request, deasserting THROTTLE_REQ_N and optionally extending the grace time. -/
  | thermalAckRequest (t : Nat) (mb : Fin 8)
  /-- LIFE_READ (R508). Returns life-record totals or journal entries. -/
  | lifeRead (t : Nat) (mb : Fin 8)
  /-- LIFE_SET_CALENDAR (R512). Sets the UTC offset and its hold flag. -/
  | lifeSetCalendar (t : Nat) (mb : Fin 8)
  /-- SEC_SESSION_OPEN (R518). Issues a challenge or checks a proof and grants the mailbox a session class. -/
  | secSessionOpen (t : Nat) (mb : Fin 8)
  /-- SEC_SESSION_CLOSE (R471). Ends the session of the mailbox. -/
  | secSessionClose (t : Nat) (mb : Fin 8)
  /-- SEC_FUSE_READ (R523). Returns the fused settings and their change counts. -/
  | secFuseRead (t : Nat) (mb : Fin 8)
  /-- SEC_FUSE_WRITE (R523). Burns and verifies a limited-change fused setting. -/
  | secFuseWrite (t : Nat) (mb : Fin 8)
  /-- SEC_KEY_LOAD (R521). Loads or erases a model key slot and reports its check value. -/
  | secKeyLoad (t : Nat) (mb : Fin 8)
  /-- SEC_TAMPER_CONFIGURE (R525). Sets the action of each tamper source and the switch polarities. -/
  | secTamperConfigure (t : Nat) (mb : Fin 8)
  /-- SEC_UNLOCK (R528). Issues a challenge or checks a proof that clears the LOCKDOWN latch. -/
  | secUnlock (t : Nat) (mb : Fin 8)
  /-- SYS_GET_INFO (R2). Returns identity, firmware versions and link and DRAM state. -/
  | sysGetInfo (t : Nat) (mb : Fin 8)
  /-- SYS_GET_CAPS (R19). Returns the fixed capacities and SRAM pool sizes. -/
  | sysGetCaps (t : Nat) (mb : Fin 8)
  /-- SYS_GET_MODE (R479). Returns the primary mode, throttle level and conditions. -/
  | sysGetMode (t : Nat) (mb : Fin 8)
  /-- SYS_SET_MODE (R533). Requests a change of base mode, checked and entered under the transition rules. -/
  | sysSetMode (t : Nat) (mb : Fin 8)
  /-- SYS_RESET_SUBSYSTEM (R436). Resets the host interface, statistics, an auxiliary channel, an Ethernet port or a Sarec port. -/
  | sysResetSubsystem (t : Nat) (mb : Fin 8)
  /-- SYS_FW_STAGE (R481). Writes and verifies a firmware image into the bank not running. -/
  | sysFwStage (t : Nat) (mb : Fin 8)
  /-- SYS_FW_ACTIVATE (R482). Starts activation of the staged firmware bank. -/
  | sysFwActivate (t : Nat) (mb : Fin 8)
  /-- SYS_EXPORT_CONFIG (R487). Writes a configuration image of the configuration in force into the bulk window. A read of the Lodge area with errors that the command met. -/
  | sysExportConfig (t : Nat) (mb : Fin 8) (error : Option ReadError)
  /-- SYS_IMPORT_CONFIG (R488). Validates and applies a configuration image from the bulk window. -/
  | sysImportConfig (t : Nat) (mb : Fin 8)
  /-- LEGACY_COMMAND (R559). A PW1212 legacy code runs its mapped native command with the forerunner's differences. -/
  | legacyCommand (t : Nat) (mb : Fin 8)
  /-- LEGACY_SETTING_COMMAND (R560). A PW1212 setting command is wrapped in an internal transaction committed at the next line. -/
  | legacySettingCommand (t : Nat) (mb : Fin 8)
  /-- MAILBOX_DOORBELL (R467). A write to a mailbox doorbell hands MBn to the device, which answers a repeat, an unknown code, a not-ready period or a refused check, or counts the doorbell as ignored while owner is 1. -/
  | mailboxDoorbell (t : Nat) (mb : Fin 8)
  /-- CONFIGURE_SELF_TEST_DONE (R537). The parallel self-test of all 17 engines and the DRAM retrain at entry to CONFIGURE from STANDBY end; engines are bound or retired and CONFIGURE is entered. `failed`: bit e for engine Ee; `runs`: per byte lane its channel, its number and its training runs as (eye ps, eye steps, centre), oldest first. -/
  | configureSelfTestDone (t : Nat) (failed : Nat) (runs : List (Nat × Nat × List (Nat × Nat × Nat)))
  /-- ETH_LINK_CHANGE (R354). An Ethernet port's link goes down or comes up, which can make PTP lost and put the servo into HOLDOVER. -/
  | ethLinkChange (t : Nat) (port : Fin 2) (up : Bool)
  /-- ANNOUNCE_RECEIPT_TIMEOUT (R348). announce_receipt_timeout passes without an Announce, and the PTP port leaves SLAVE so that the servo loses its source. -/
  | announceReceiptTimeout (t : Nat) (port : Fin 2)
  /-- SWITCH_STATE_ACCEPTED (R329). A limit switch input has been stable for 2 ms and its new state is accepted, either a release or an assertion that is not in the direction of motion. -/
  | switchStateAccepted (t : Nat) (axis : Fin 4) (positive asserted : Bool)
  /-- TAMPER_CLEAR (R530). An asserted tamper source deasserts and EV_TAMPER is raised with state 0. -/
  | tamperClear (t : Nat) (source : Fin 9) (powered : Bool)
  /-- DEBUG_ACCESS_OPEN (R524). A SERVICE proof presented through JTAG data registers opens the debug port and diagnostic windows, clears the model store, seals the key store and makes an audit entry. Whether the proof holds. -/
  | debugAccessOpen (t : Nat) (proved : Bool)
  /-- GANG_EXCHANGE_RECEIVED (R400). A member receives from its drive-side neighbour over the Sarec link the lane L0 seam samples, the column-0 runs and blob sums, or the neighbour's largest view offset. -/
  | gangExchangeReceived (t : Nat) (x : GangExchange)
  deriving DecidableEq, Repr

end Sys2Proof
end

