-- ==== Sys2Proof/Decode.lean ====
section
/-! DEFINITION. The block has no instruction words: spec/opcode_table.json gives no row any bits, so no word spells a
command. -/
namespace Sys2Proof

/-- The command a word spells by the table's bits: none, since the table gives no row any. DESIGN CHOICE: log entry 243. -/
def decodeTableWord (_nbits _w : Nat) : Option Instr := none

end Sys2Proof
end

