-- ==== Sys2Proof/Config.lean ====
section
/-! DEFINITION. What one unit or one implementation fixes, and the values the spec leaves open. Each is a constant with
no body: nothing can be proved of its value, so a claim holds whatever it is (log entries 3, 4 and 6). -/
namespace Sys2Proof.Config

/-- The n-th value that the spec leaves open in a run (log entry 3). DESIGN CHOICE: log entry 3. -/
opaque freeValue : Nat → Nat

/-- Unit serial from fuses (SYS.GET_INFO, R518). DESIGN CHOICE: log entry 4. -/
opaque serial : Nat
/-- Factory MAC addresses of ETH0 and ETH1 from fuses (R349). DESIGN CHOICE: log entry 4. -/
opaque mac : Nat → Nat
/-- Whether Borusk firmware raises the event with this code: bit 7 of `source` (R458). DESIGN CHOICE: log entry 4. -/
opaque firmwareRaises : Nat → Bool
/-- Trigger leads of R47 in ns: low-speed uplink, TRIGOUT. DESIGN CHOICE: log entry 4. -/
opaque cxpLead : Nat
opaque trigoutLead : Nat
/-- Serial number in ASCII, as virtual cameras give it (R82). DESIGN CHOICE: log entry 4. -/
opaque serialText : List Byte
/-- What a virtual camera answers in the Standard and Revision bootstrap registers: CoaXPress 2.1 fixes them (R82).
DESIGN CHOICE: log entry 4. -/
opaque cxpStandard : List Byte
opaque cxpRevision : List Byte
/-- The GenICam description file of a virtual camera, held in Borusk firmware (R82). DESIGN CHOICE: log entry 4. -/
opaque genicamFile : List Byte
/-- Camera addresses that R75 protects while a port streams: the CoaXPress standard and the camera fix them.
DESIGN CHOICE: log entry 4. PRESUMED: log entry 40. -/
opaque cameraProtected : Nat → Bool
/-- Vendor root hash and service-key hash in fuses (R515, R518). DESIGN CHOICE: log entry 4. -/
opaque rootHash : List Byte
opaque serviceHash : List Byte

/-- Error of a derived inverse map (R97): derivation, lane, output column. DESIGN CHOICE: log entries 6 and 51. -/
opaque inverseError : Nat → Nat → Nat → Nat
/-- How far a tabulated coefficient of a geometry calibration lies from the fit (R109): calibration, lane, coefficient.
DESIGN CHOICE: log entries 6 and 56. -/
opaque tabulationError : Nat → Nat → Nat → Int

/-- The binary32 word of a derived feature whose operation has no number as its result: operation, operand words (R219).
DESIGN CHOICE: log entries 6 and 91. -/
opaque noNumber : Nat → Nat → Nat → Nat

/-- Whether the host has enabled Relaxed Ordering in Device Control (R435, R455): a write to configuration space, for which the table has no
row. DESIGN CHOICE: log entry 6. -/
opaque relaxedOrdering : Bool

/-- Places of a hash chain, at a level and a position of an input, that hold no candidate of the position (R286).
DESIGN CHOICE: log entries 6 and 121. -/
opaque chainLost : Nat → List Byte → Nat → Nat

/-- The header of the dynamic block that a Window engine forms for its symbols, each a literal (0, byte) or a match (length, distance):
its code lengths in the form of RFC 1951 (R287). DESIGN CHOICE: log entries 6 and 121. -/
opaque dynamicHeader : List (Nat × Nat) → List Bool

/-- clockAccuracy and offsetScaledLogVariance of the device's own clock, which R348's best-master selection weighs and no command sets.
DESIGN CHOICE: log entry 4. -/
opaque clockAccuracy : Nat
opaque clockVariance : Nat

/-- Which way an entry of the sine table that is no integer is rounded: down where even, up where odd (R320). DESIGN CHOICE: log entries 6 and 136. -/
opaque sineRound : Nat → Nat

/-- Which way a tone detector rounds a fixed-point product, or its phase, that is no integer (R389): frequency in mHz, modulator samples per
output, outputs of the block so far, newest first; down where even, up where odd. DESIGN CHOICE: log entries 6 and 157. -/
opaque toneRound : Nat → Nat → List Int → Nat

/-- Rounding of the aging step at a temperature in 1/16 °C, which R511 leaves open: down where even, up where odd.
DESIGN CHOICE: log entry 6. -/
opaque agingRounding : Int → Nat

/-- Rows of the SRAM reserve pool (R19, R506). DESIGN CHOICE: log entries 4 and 203. -/
opaque spareRows : Nat

/-- SHA-384 (R515, R518). DESIGN CHOICE: log entry 6. -/
opaque sha384 : List Byte → List Byte
/-- HMAC-SHA-384 of a message under a key (R518). DESIGN CHOICE: log entry 6. -/
opaque hmacSha384 : List Byte → List Byte → List Byte
/-- Whether an ECDSA P-384 signature verifies: public key, hash, signature (R515, R518). DESIGN CHOICE: log entry 6. -/
opaque ecdsaVerify : List Byte → List Byte → List Byte → Bool
/-- AES-256-GCM decryption: key, nonce, additional data, ciphertext, tag; none where the tag fails (R225). DESIGN CHOICE: log entry 6. -/
opaque aesGcmDecrypt : List Byte → List Byte → List Byte → List Byte → List Byte → Option (List Byte)
/-- AES-256 of one block under a key (R521). DESIGN CHOICE: log entry 6. -/
opaque aesBlock : List Byte → List Byte → List Byte

/-- What a fuse burn does: true where it verifies within three tries (R523). DESIGN CHOICE: log entry 4. -/
opaque burnVerifies : Nat → Bool

end Sys2Proof.Config
end

