-- ==== Sys2Proof/Machine/Bytes.lean ====
section
/-! DEFINITION. Byte strings, little-endian fields (R10), bit fields, banks of like things, and the CRC-32 of R473. -/
namespace Sys2Proof.Machine

/-- The n low bytes of v, least significant first (R10). -/
def le : Nat → Nat → List Byte
  | 0, _ => []
  | n + 1, v => BitVec.ofNat 8 v :: le n (v / 256)

/-- The n low bytes of v, most significant first: the order of the standards of Ethernet frames and of zlib (R10). -/
def be (n v : Nat) : List Byte := (le n v).reverse

/-- The n low bytes of a signed number in two's complement. -/
def leS (n : Nat) (v : Int) : List Byte := le n (v % (2 ^ (8 * n) : Int)).toNat

/-- The number a little-endian byte string spells (R10). -/
def fromLe : List Byte → Nat
  | [] => 0
  | b :: bs => b.toNat + 256 * fromLe bs

/-- The n-byte field at offset `off`; bytes past the end of the string read 0. -/
def rd (bs : List Byte) (off n : Nat) : Nat := fromLe ((bs.drop off).take n)

/-- An n-byte two's complement field. -/
def rdS (bs : List Byte) (off n : Nat) : Int :=
  let v := rd bs off n
  if v < 2 ^ (8 * n - 1) then (v : Int) else (v : Int) - (2 ^ (8 * n) : Int)

/-- The n bytes at `off`, padded with zeros where the string ends. -/
def sliceB (bs : List Byte) (off n : Nat) : List Byte :=
  let x := (bs.drop off).take n
  x ++ List.replicate (n - x.length) 0

/-- The byte string with `new` laid over it from offset `off`. -/
def putB (bs : List Byte) (off : Nat) (new : List Byte) : List Byte :=
  sliceB bs 0 off ++ new ++ bs.drop (off + new.length)

/-- A run of n zero bytes: a reserved field. -/
def zeros (n : Nat) : List Byte := List.replicate n 0

/-- A byte string cut or zero-filled to n bytes. -/
def fit (n : Nat) (bs : List Byte) : List Byte := sliceB bs 0 n

/-- Bit i of a number. -/
def bit (x i : Nat) : Bool := (x / 2 ^ i) % 2 == 1

/-- The n-bit field at bit `lo`. -/
def bits (x lo n : Nat) : Nat := (x / 2 ^ lo) % 2 ^ n

/-- A Boolean as a bit. -/
def b2n (b : Bool) : Nat := if b then 1 else 0

/-- The number with bit i put to b. -/
def setBit (x i : Nat) (b : Bool) : Nat := if bit x i == b then x else if b then x + 2 ^ i else x - 2 ^ i

/-- The Booleans of a list as a number, the first at bit 0. -/
def packBits : List Bool → Nat
  | [] => 0
  | b :: bs => b2n b + 2 * packBits bs

/-- How many of the n low bits are set. -/
def popcount : Nat → Nat → Nat
  | 0, _ => 0
  | n + 1, x => x % 2 + popcount n (x / 2)

/-- The indices of the set bits below n, ascending. -/
def setBits (n x : Nat) : List Nat := (List.range n).filter fun i => bit x i

/-- Entry i of a bank; the default value outside it. -/
def vget {α : Type} {n : Nat} [Inhabited α] (v : Vector α n) (i : Nat) : α := v.toList.getD i default

/-- The bank with entry i replaced; unchanged where there is no such entry. -/
def vset {α : Type} {n : Nat} (v : Vector α n) (i : Nat) (x : α) : Vector α n := v.setIfInBounds i x

/-- The bank with entry i changed by f. -/
def vmod {α : Type} {n : Nat} [Inhabited α] (v : Vector α n) (i : Nat) (f : α → α) : Vector α n := vset v i (f (vget v i))

/-- The bank with every entry changed by f, which is given its index. -/
def vmapIdx {α β : Type} {n : Nat} (f : Nat → α → β) (v : Vector α n) : Vector β n :=
  ⟨⟨v.toList.mapIdx f⟩, by simp⟩

/-- A list in order with one more element, before the first that need not come ahead of it. -/
def insertBy {α : Type} (before : α → α → Bool) (x : α) : List α → List α
  | [] => [x]
  | y :: ys => if before x y then x :: y :: ys else y :: insertBy before x ys

/-- A list put in order; elements that are level keep theirs. -/
def sortBy {α : Type} (before : α → α → Bool) : List α → List α
  | [] => []
  | x :: xs => insertBy before x (sortBy before xs)

/-- Quotient rounded to nearest, halves away from zero downward to the greater value; 0 when the divisor is not positive. -/
def divNearest (a : Int) (b : Int) : Int := if b ≤ 0 then 0 else (2 * a + b) / (2 * b)

/-- Quotient rounded up. -/
def ceilDiv (a b : Nat) : Nat := if b = 0 then 0 else (a + b - 1) / b

/-- One more bit of an integer square root: `r` is the root so far, `x` the radicand. -/
def isqrtFrom (x : Nat) : Nat → Nat → Nat
  | 0, r => r
  | k + 1, r =>
    let r' := r + 2 ^ k
    isqrtFrom x k (if r' * r' ≤ x then r' else r)

/-- The integer square root, rounded down, of a number below 2^256. -/
def isqrt (x : Nat) : Nat := isqrtFrom x 128 0

/-- One byte of the reflected CRC-32 of IEEE 802.3 (polynomial 0x04C1_1DB7, R473). -/
def crc32Bits : Nat → Nat → Nat
  | 0, r => r
  | k + 1, r => crc32Bits k (if r % 2 = 1 then Nat.xor (r / 2) 0xEDB88320 else r / 2)

/-- The register of the CRC-32 after further bytes; it starts at all ones, and the CRC is its complement. -/
def crc32Step (r : Nat) (bs : List Byte) : Nat := bs.foldl (fun r b => crc32Bits 8 (Nat.xor r b.toNat)) r

/-- The CRC-32 of a byte string, as in IEEE 802.3 (R473, R486). -/
def crc32 (bs : List Byte) : Nat := Nat.xor (crc32Step 0xFFFFFFFF bs) 0xFFFFFFFF

/-- The greatest number of a list, 0 for none. -/
def maxOf (l : List Nat) : Nat := l.foldl max 0

/-- Whether a number is a power of two. -/
def isPow2 (x : Nat) : Bool := x != 0 && Nat.land x (x - 1) == 0

end Sys2Proof.Machine
end

