-- ==== Sys2Proof/Machine/State.lean ====
section
/-! DEFINITION. The whole state of the block as plain data: every register, queue, buffer, counter, mode and pin the
spec gives it, grouped by the chapter that names it; the reset values stand as field defaults (the spec's where it
gives one; zero, false or empty under assumption-log entry 1 where it gives none). -/
namespace Sys2Proof.Machine

/-- Why a run stops with a fault. The spec gives this block no behaviour that stops it: every error it names ends in a
status code, a completion code, an event or a latched mode, all of which are next states. No meaning raises this one. -/
inductive Fault where
  /-- No meaning of the model raises it; it exists because the outcome type asks for one. Safe. -/
  | none_
  deriving DecidableEq, Repr

/-- Why the model answers nothing for a command. -/
inductive Refusal where
  /-- The command has no meaning in the model; raised only by an arm of Dispatch.lean. Safe: nothing can be proved of it. -/
  | notModelled (mnemonic : String)
  deriving DecidableEq, Repr

/-- Memory as (address, byte) pairs, addresses strictly rising, no entry equal to what an unlisted address reads as
(assumption-log entry 5). -/
abbrev Mem := List Host.Cell

/-- Addresses of a frame (R267, R349): MAC and IPv4 of both ends, the VLAN tag of the port, the UDP port it goes to. -/
structure EthAddresses where
  srcMac : Nat := 0
  dstMac : Nat := 0
  vlan : Option Nat := none
  srcIp : Nat := 0
  dstIp : Nat := 0
  dstPort : Nat := 0
  deriving DecidableEq, Repr, Inhabited

/-- Capabilities of the endpoint (R435). -/
inductive PciCapability where
  | pciExpress | powerManagement | msix | advancedErrorReporting | deviceSerialNumber | secondaryPciExpress | dataLinkFeature
  | physicalLayer16 | physicalLayer32 | laneMargining
  deriving DecidableEq, Repr

/-- What the endpoint supports (R435): sizes in bytes, speeds as SYS_STATUS codes them. -/
structure EndpointLimits where
  widths : List Nat := [1, 2, 4, 8]
  speeds : List Nat := [1, 2, 3, 4, 5]
  laneReversal : Bool := true
  polarityInversion : Bool := true
  capabilities : List PciCapability := [.pciExpress, .powerManagement, .msix, .advancedErrorReporting, .deviceSerialNumber,
    .secondaryPciExpress, .dataLinkFeature, .physicalLayer16, .physicalLayer32, .laneMargining]
  maxPayload : List Nat := [128, 256, 512]
  maxReadRequest : List Nat := [128, 256, 512, 1024, 2048, 4096]
  /-- The device requests at most this and the host's limit in one read. -/
  largestRead : Nat := 512
  tagBits : Nat := 8
  outstandingReads : Nat := 64
  /-- Completion timeout ranges A and B, and the default. -/
  timeoutRanges : List Char := ['A', 'B']
  timeoutMs : Nat := 50
  d3hot : Bool := true
  noSoftReset : Bool := true
  functionLevelReset : Bool := true
  interruptPin : Nat := 0
  deriving DecidableEq, Repr, Inhabited

/-- The configuration-space identity (R6, R433) and what the endpoint supports (R435). -/
structure PciIdentity where
  vendor : Nat
  device : Nat
  revision : Nat
  classCode : Nat
  subsystemVendor : Nat
  subsystem : Nat
  serial : Nat
  limits : EndpointLimits := {}
  deriving DecidableEq, Repr, Inhabited

/-- Camera registers a discovery reads or writes (R59). -/
inductive CameraRegister where
  | standard | revision | deviceModelName | deviceSerialNumber | connectionConfigDefault | connectionConfig | width | pixelFormat
  /-- The minimum line period, at the camera address of the request. -/
  | minPeriod (addr : Nat)
  deriving DecidableEq, Repr

/-- What leaves the device in one command, newest first: every effect on the outside world. Cleared when the next
command starts, so it holds the last command's effects only (the model's own record). -/
inductive Output where
  /-- Bytes written to host memory by a DMA write (R449), and whether the write carries No-Snoop (R443) and Relaxed Ordering (R455). -/
  | hostWrite (addr : Nat) (data : List Byte) (noSnoop : Bool := false) (relaxed : Bool := false)
  /-- A read of host memory: address, length, and whether it carries No-Snoop; it is snooped otherwise (R456). -/
  | hostRead (addr length : Nat) (noSnoop : Bool := false)
  /-- Bytes written to the bulk window (R444). -/
  | bulkWrite (offset : Nat) (data : List Byte)
  /-- The content of the bulk window is lost with the DRAM (R543). -/
  | bulkLost
  /-- An MSI-X message (R439): vector, address, data. -/
  | msix (vector addr data : Nat)
  /-- The value a BAR0 read returns (R438, R554, R588, R590). -/
  | readData (value : Nat)
  /-- A trigger packet on the low-speed uplink of a link of a camera port (R47, R57, R71): the instant at which it is sent, and
  whether it uses the trigger-delay compensation of CoaXPress 2.1. -/
  | cxpTrigger (port link at_ : Nat) (delayComp : Bool)
  /-- A TRIGOUT pulse (R47): the instant at which it starts, its width in ns, its active level. -/
  | trigOut (port at_ widthNs : Nat) (activeLow : Bool)
  /-- Discovery on Pn.0 at CXP-1 (R59). -/
  | cxpDiscovery (port : Nat)
  /-- A discovery reads a bootstrap register of the camera, or writes ConnectionConfig (R59): port, register, value written. -/
  | cxpBootstrap (port : Nat) (register : CameraRegister) (written : Option (Nat × Nat))
  /-- A control packet to a camera (R74): port, write flag, address, data. -/
  | cxpControl (port : Nat) (write : Bool) (addr : Nat) (data : List Byte)
  /-- An acknowledgement to the host downstream of a virtual camera (R81): camera, code, data. -/
  | vcamAck (k code : Nat) (data : List Byte)
  /-- A line of a virtual camera's image (R79): camera, first line of an image, pixels. -/
  | vcamLine (k : Nat) (first : Bool) (pixels : List Nat)
  /-- A frame sent on an Ethernet port: port, kind (0 RTP, 1 RTCP, 2 ARP, 3 ICMP, 4 PTP), addresses, content. -/
  | eth (port kind : Nat) (dest : EthAddresses) (data : List Byte)
  /-- The identity the configuration space serves from now on (R433, R434). -/
  | configSpace (id : PciIdentity)
  /-- Something sent on a Sarec link: link, kind, content. -/
  | sarec (link kind : Nat) (data : List Byte)
  /-- A marker head fires (R337): head, defect id. -/
  | markFired (head defect : Nat)
  /-- 1PPS_OUT rises, for a width in ns (R358). -/
  | ppsOut (widthNs : Nat)
  /-- A GPIO pin is high for a number of modulator samples, to step a multiplexer (R385). -/
  | muxStep (pin samples : Nat)
  /-- Levels of AXn_A1 and AXn_A2, and of AXn_B1 and AXn_B2, after a sample of the choppers (R321). -/
  | bridge (axis : Nat) (a b : Bool × Bool)
  /-- A pulse output takes a level (R363). -/
  | pulse (output : Nat) (level : Bool)
  /-- Flash is written: area, content (R508). -/
  | flashWrite (area : Nat) (data : List Byte)
  deriving DecidableEq, Repr

/-! ### Host link, DMA and the event ring (chapter 17) -/

/-- One MSI-X entry and its pending bit (R439, R591). -/
structure MsixEntry where
  addrLo : Nat := 0
  addrHi : Nat := 0
  data : Nat := 0
  mask : Bool := true
  pending : Bool := false
  deriving DecidableEq, Repr, Inhabited

/-- `state` of DMA_STATUS (R442, R589). -/
inductive DmaState where
  | idle | active | halted | owned
  deriving DecidableEq, Repr, Inhabited

/-- One DMA channel (R440 to R451, R589). -/
structure Dma where
  state : DmaState := .idle
  /-- `owner` code of DMA_STATUS: 0 none, 1 record ring, 2 tile ring, 3 preview, 4 retrieval, 5 compression, 6 capture,
  7 auxiliary samples, 8 telemetry. -/
  owner : Nat := 0
  code : Nat := 0
  detail : Nat := 0
  completed : Nat := 0
  chain : Nat := 0
  startWritten : Bool := false
  startedSinceReset : Bool := false
  recheck : Bool := false
  /-- d of the pseudocode of R448. -/
  cur : Nat := 0
  stalledAt : Nat := 0
  /-- Address of the last descriptor completed, DMA_LAST. -/
  last : Nat := 0
  stopRequested : Bool := false
  /-- DMA_TAIL: the last accepted ring tail. -/
  tail : Nat := 0
  deriving DecidableEq, Repr, Inhabited

/-- Interrupt settings and indices of a host ring under R203. -/
structure Ring where
  enabled : Bool := false
  channel : Nat := 0
  irqCount : Nat := 0
  irqHoldoffUs : Nat := 0
  base : Nat := 0
  entryCount : Nat := 0
  entrySize : Nat := 0
  headAddr : Nat := 0
  head : Nat := 0
  tail : Nat := 0
  /-- Entries written since the last signal of the ring's vector. -/
  sinceIrq : Nat := 0
  /-- The instant by which an entry not yet signalled has waited for `irq_holdoff_us` as it stood when that entry was written (R203, R595). -/
  signalBy : Option Nat := none
  deriving DecidableEq, Repr, Inhabited

/-- An event as it enters the FIFO (R458, R459). -/
structure Event where
  code : Nat
  severity : Nat
  source : Nat
  sequence : Nat
  timeS : Nat
  timeNs : Nat
  payload : List Byte
  deriving DecidableEq, Repr, Inhabited

/-- The event path (R458 to R464). -/
structure EventQueue where
  ring : Ring := { entrySize := 32, irqCount := 16, irqHoldoffUs := 1000 }
  irqSeverity : Nat := 3
  fifo : List Event := []
  nextSequence : Nat := 0
  lostTotal : Nat := 0
  lostPending : Nat := 0
  firstLost : Nat := 0
  /-- Events of Borusk firmware that wait for the end of a Lodge restart (R25), oldest first: journal flag, code, severity, source,
  payload. -/
  waiting : List (Bool × Nat × Nat × Nat × List Byte) := []
  /-- Event mask, word g (R464); all ones by default. -/
  mask : Vector Nat 16 := Vector.replicate 16 0xFFFF
  deriving DecidableEq, Repr

/-- An open collection second of a rate-limited event (R596). -/
structure RateWindow where
  code : Nat
  /-- Instance the limit is kept for. -/
  key : Nat
  source : Nat
  severity : Nat
  /-- End of the second. -/
  until_ : Nat
  /-- Occurrences not yet reported by an event. -/
  collected : Nat := 0
  /-- Payload of the report, the count apart. -/
  payload : List Byte := []
  /-- Where in the payload the count stands and its width in bytes (width 0: no count). -/
  countOff : Nat := 0
  countLen : Nat := 0
  /-- The count is of suppressed occurrences: less the one the event reports. -/
  lessOne : Bool := false
  deriving DecidableEq, Repr

/-- The PCI Express endpoint (R433 to R439). -/
structure Pcie where
  linkUp : Bool := false
  width : Nat := 0
  speed : Nat := 0
  d3hot : Bool := false
  msix : Vector MsixEntry 64 := Vector.replicate 64 {}
  dma : Vector Dma 32 := Vector.replicate 32 {}
  deriving DecidableEq, Repr

/-! ### Mailboxes (chapter 18) -/

/-- A command handed to the Lodge: the fields of the request header and its payload (R466). -/
structure Job where
  /-- Native command code it runs as. -/
  code : Nat
  /-- Code of the header, a legacy code in the PW1212 personality (R558). -/
  rawCode : Nat
  sequence : Nat
  /-- Class claimed. -/
  cls : Nat
  tag : Nat
  payload : List Byte
  doorbellS : Nat
  doorbellNs : Nat
  audited : Bool
  /-- Offset in the header of the first reserved byte that is not zero (R11, R466). -/
  headerFault : Option Nat := none
  /-- The row of the command has run and the response is still to come. -/
  waiting : Bool := false
  /-- Its place in doorbell order (R470). -/
  order : Nat := 0
  deriving DecidableEq, Repr, Inhabited

/-- One mailbox (R466 to R469). -/
structure Mailbox where
  /-- The 4 096 bytes of the mailbox; bytes past the end of the list are 0, and byte 9 stands in `owner`. -/
  bytes : List Byte := []
  owner : Bool := false
  job : Option Job := none
  /-- A command still in progress when the host interface was reset: it completes, its answer is discarded (R436). -/
  orphan : Option Job := none
  /-- Sequence of the last command executed. -/
  lastSequence : Option Nat := none
  /-- Response kept for a repeat. -/
  kept : List Byte := []
  ignored : Nat := 0
  deriving DecidableEq, Repr, Inhabited

/-- An entry of the audit queue (R473). -/
structure AuditEntry where
  timeS : Nat
  timeNs : Nat
  command : Nat
  cls : Nat
  mailbox : Nat
  status : Nat
  digest : Nat
  deriving DecidableEq, Repr

/-- Mailbox registers and queues shared by the eight mailboxes (R468, R473, R588). -/
structure MailboxBlock where
  mb : Vector Mailbox 8 := Vector.replicate 8 {}
  /-- Answers that wait for the end of a Lodge restart (R25), oldest first: mailbox, status, detail, body. -/
  waiting : List (Nat × Nat × Nat × List Byte) := []
  /-- MBX_RESPONSE. -/
  response : Nat := 0
  audit : List AuditEntry := []
  /-- Commands handed to the Lodge so far, the next one's place in doorbell order. -/
  rung : Nat := 0
  deriving DecidableEq, Repr

/-- BAR0 storage with no behaviour of its own: SYS_SCRATCH, the upper-half latches (R554), the latch of R590. -/
structure Regs where
  scratch : Nat := 0
  /-- Upper half last latched, per register offset; 0 where none was. -/
  latches : List (Nat × Nat) := []
  sdlSeconds : Nat := 0
  sdlState : Nat := 0
  deriving DecidableEq, Repr

/-! ### Modes, boot, firmware (chapters 18 and 21) -/

/-- Base modes (R531). -/
inductive Base where
  | standby | configure | calibrate | inspect | relay
  deriving DecidableEq, Repr, Inhabited

/-- Where boot stands (R538, R541). -/
inductive Boot where
  /-- Reset ended, PERST_N not yet risen. -/
  | waitPerst
  /-- On the boot timeline. -/
  | booting
  | recovery
  | done
  deriving DecidableEq, Repr, Inhabited

/-- A period in which the hardware responder answers (R474). -/
inductive NotReady where
  | no
  | boot (start : Nat)
  | activationPending
  | activation (start : Nat)
  | lockstep (start : Nat)
  deriving DecidableEq, Repr, Inhabited

/-- A change of base mode under way (R536, R537). -/
inductive Change where
  | none
  /-- Entering CONFIGURE from STANDBY: waiting for the self-test. -/
  | selfTest (mb : Nat)
  /-- Leaving a triggering mode: waiting for the drain. -/
  | drain (target : Base) (mb : Nat)
  deriving DecidableEq, Repr, Inhabited

/-- A staged firmware image (R481). -/
structure Stage where
  mb : Nat
  length : Nat
  data : List Byte
  deriving DecidableEq, Repr

/-- The mode machine and the Lodge (R531 to R546, R479 to R483). -/
structure Modes where
  boot : Boot := .waitPerst
  base : Base := .standby
  /-- Primary mode code as reported (R479, R532). -/
  primary : Nat := 1
  /-- Condition bits 0 to 4 as last reported (R480). -/
  reportedConditions : Nat := 0
  previous : Nat := 1
  since : Nat := 0
  change : Change := .none
  thermalHalt : Bool := false
  lockdown : Bool := false
  notReady : NotReady := .no
  /-- First rise of PERST_N since reset. -/
  perstSeen : Bool := false
  /-- Instant of that rise, for `uptime_s`. -/
  perstAt : Nat := 0
  /-- The last reset was a power-on reset that the life record has not counted yet. -/
  powerOn : Bool := true
  personality : Nat := 0
  /-- Node ID in effect. -/
  nodeId : Nat := 0
  /-- Borusk firmware has halted for good and ALARM_N is asserted (R546). -/
  lodgeFailed : Bool := false
  recoveries : List Nat := []
  recoveryCount : Nat := 0
  /-- When the last checkpoint was taken (R545). -/
  checkpointAt : Nat := 0
  /-- Mode and conditions as SYS_MODE showed them when the Lodge went down: it holds them through a restart (R586). -/
  shownMode : Nat := 1
  shownConditions : Nat := 0
  deriving DecidableEq, Repr

/-- One copy of the boot record (R516): its sequence, the bank it names, and whether its CRC holds. -/
structure BootRecord where
  sequence : Nat := 0
  bank : Nat := 0
  sound : Bool := true
  deriving DecidableEq, Repr, Inhabited

/-- Firmware banks (R481, R482, R515, R516); flash contents, kept through every reset. -/
structure Firmware where
  running : Nat := 0
  valid : Vector Bool 2 := #v[true, false]
  version : Vector Nat 2 := #v[0x04000000, 0]
  security : Vector Nat 2 := #v[0, 0]
  stage : Option Stage := none
  /-- Bank the activation under way is to run. -/
  activating : Option Nat := none
  /-- The two copies of the boot record. -/
  record : Vector BootRecord 2 := #v[{}, {}]
  deriving DecidableEq, Repr

/-! ### The web as a clock (chapter 2) -/

/-- Forms of an encoder channel (R28, R31). -/
inductive EncForm where
  | quadrature | stepDir | upDown
  deriving DecidableEq, Repr, Inhabited

/-- One encoder channel (R26 to R38, R54, R598). -/
structure Enc where
  configured : Bool := false
  form : EncForm := .quadrature
  glitchSamples : Nat := 2
  invertA : Bool := false
  invertB : Bool := false
  invertZ : Bool := false
  swapAb : Bool := false
  indexEnable : Bool := false
  countsPerRev : Nat := 0
  indexTolerance : Nat := 4
  /-- True for REALIGN. -/
  realign : Bool := false
  directionHysteresis : Nat := 4
  speedAvgLog2 : Nat := 4
  zeroSpeedTimeout : Nat := 100
  /-- Unsigned 32.32. -/
  wuPerCount : Nat := 0
  eventVector : Nat := 0
  /-- Accepted levels at the balls, before inversion and swap. -/
  pinA : Bool := false
  pinB : Bool := false
  pinZ : Bool := false
  /-- Levels at the balls in the newest sample, ahead of the glitch filter (R26). -/
  rawA : Bool := false
  rawB : Bool := false
  rawZ : Bool := false
  count : Int := 0
  phase : Nat := 0
  revolutions : Int := 0
  indexed : Bool := false
  suspect : Bool := false
  illegalCount : Nat := 0
  lastDeviation : Int := 0
  /-- An index beyond the tolerance has realigned the channel since the last trigger (R236). -/
  realignedBeyond : Bool := false
  forward : Bool := false
  stopped : Bool := false
  /-- Consecutive counts against the direction state. -/
  against : Nat := 0
  lastForward : Bool := false
  /-- Backward counts since the last forward count (R45). -/
  backRun : Nat := 0
  /-- Times of the counts of the present motion, newest first. -/
  times : List Nat := []
  deriving DecidableEq, Repr, Inhabited

/-- Web geometry in force (R42, R49). -/
structure Geometry where
  cdPitch : Nat := 0
  column0 : Int := 0
  columnCount : Nat := 0
  viewOffset : Vector Nat 16 := Vector.replicate 16 0
  deriving DecidableEq, Repr

/-- The trigger generator (R39 to R52, R54, R55). -/
structure Trig where
  mainChannel : Nat := 0
  cxpDelayComp : Bool := true
  trigoutActiveLow : Bool := false
  trigoutWidthNs : Nat := 200
  cxpTriggerMask : Nat := 0
  trigoutMask : Nat := 0
  /-- As commanded; 0 = derived (R55). -/
  minPeriodReq : Nat := 0
  minPeriod : Nat := 400
  mdStart : Nat := 0x100000000
  /-- Conditions of R534 met since the last entry to CONFIGURE from STANDBY. -/
  configuredSince : Bool := false
  pitchSince : Bool := false
  geometrySince : Bool := false
  pitchNum : Nat := 0
  pitchDen : Nat := 1
  geo : Geometry := {}
  anchored : Bool := false
  anchorAt : Nat := 0
  countRef : Int := 0
  /-- What the formula of R39 adds to the scaled count. -/
  mdBase : Nat := 0
  /-- md_count of R39. -/
  mdCount : Nat := 0
  hwm : Nat := 0
  /-- MD just before the newest count of the main channel. -/
  mdPrev : Nat := 0
  /-- Trigger number to be issued next. -/
  number : Nat := 0
  base : Nat := 0
  /-- Pitch of the target grid: that in force until the trigger N0 of a change is issued (R46). -/
  gridNum : Nat := 0
  gridDen : Nat := 1
  /-- A pitch entry has applied: the base moves to the target of the trigger N0. -/
  rebase : Bool := false
  /-- A pitch the members of the gang have not been told yet: it goes with the next tag (R397). -/
  pitchDue : Bool := false
  /-- Numbers of the tags taken from another member, newest first (R396). -/
  leaderTags : List Nat := []
  /-- Index j of the next target since the base. -/
  j : Nat := 1
  lastTrigger : Option Nat := none
  /-- Trigger instants that hold because a lead had begun as the motion changed (R48), of the targets from j on, each with the instant from
  which it was known. -/
  held : List (Nat × Nat) := []
  /-- Instant of the trigger at which the present target grid began; 0 since an anchor. -/
  gridAt : Nat := 0
  /-- A transaction has applied in CONFIGURE: the tag of its N0, the next trigger, carries the ledger-applied flag (R306, R311). -/
  appliedPending : Bool := false
  skipPending : Bool := false
  reversePending : Bool := false
  realignPending : Bool := false
  saturatePending : Bool := false
  /-- N0 from which each lane's present delay applies (R50). -/
  delayFrom : Vector (Option Nat) 16 := Vector.replicate 16 none
  /-- Tags of the newest triggers, newest first, at most 256 held. -/
  tags : List Tag := []
  /-- A setting that DET, Carry, Abacus and Rotunda take at stitched line N0 rides on the tag; the newest N0. -/
  lastApplied : Option Nat := none
  deriving DecidableEq, Repr

/-! ### The Ledger (chapter 11) -/

/-- Transaction states (R299). -/
inductive TxState where
  | open_ | armed | applied | rejected | aborted
  deriving DecidableEq, Repr, Inhabited

/-- A staged entry: command code and the request bytes after `transaction_id`. -/
structure Entry where
  code : Nat
  payload : List Byte
  /-- Request bytes the entry counts under R301, where they differ from `payload`, as for a calibration result, whose data
  is copied (R112). -/
  counted : Option Nat := none
  /-- All chunks present (R226); true for every other command. -/
  complete : Bool := true
  /-- The last chunk was refused: the entry stays in the transaction as invalid (R226). -/
  invalid : Bool := false
  /-- Plaintext body of a model container (R225). -/
  data : List Byte := []
  deriving DecidableEq, Repr, Inhabited

/-- A Ledger transaction (R299 to R308). -/
structure Tx where
  id : Nat
  /-- True for REJECT_LATE. -/
  rejectLate : Bool
  tag : Nat
  /-- Made by the device itself (R488, R560); its events are the ordinary ones. -/
  internal : Bool := false
  entries : List Entry := []
  state : TxState := .open_
  pointKind : Nat := 0xFF
  pointMd : Nat := 0
  pointS : Nat := 0
  pointNs : Nat := 0
  late : Bool := false
  rejectReason : Nat := 0
  entryIndex : Nat := 0xFFFFFFFF
  entryCommand : Nat := 0
  applied : Nat := 0
  /-- Index of the inverse-map derivation made at its validation (R97). -/
  derived : Nat := 0
  deriving DecidableEq, Repr, Inhabited

/-- The Ledger (R300, R301). -/
structure Ledger where
  nextId : Nat := 1
  /-- OPEN transactions, in order of opening. -/
  opened : List Tx := []
  /-- ARMED transactions, in order of commit. -/
  armed : List Tx := []
  /-- Outcome of the last 256 finished, newest first. -/
  done : List Tx := []
  deriving DecidableEq, Repr

/-! ### Camera ports (chapter 3) -/

/-- Port states (R58). -/
inductive PortState where
  | off | idle | discovering | ready | streaming | down | fault | device
  deriving DecidableEq, Repr, Inhabited

/-- Health figures of one link (R69, R70, PORT.GET_LINK_QUALITY). -/
structure Link where
  /-- 0 idle, 1 healthy, 2 unhealthy, 3 lost. -/
  state : Nat := 0
  eyeWidth : Nat := 0
  lastScan : Nat := 0
  codeErrors : Nat := 0
  crcErrors : Nat := 0
  lockLosses : Nat := 0
  errorsLastS : Nat := 0
  packets : Nat := 0
  /-- Unhealthy at the last scan. -/
  unhealthyOnce : Bool := false
  /-- EV_LINK_QUALITY_LOW raised and no whole healthy scan since. -/
  qualityRaised : Bool := false
  deriving DecidableEq, Repr, Inhabited

/-- A pass-through access (R74, R76). -/
structure Access where
  mb : Nat
  write : Bool
  addr : Nat
  length : Nat
  /-- Bytes to write, or bytes read so far. -/
  data : List Byte
  done : Nat := 0
  retries : Nat := 0
  deriving DecidableEq, Repr, Inhabited

/-- A trigger sent whose line has not arrived (R65). -/
structure Outstanding where
  number : Nat
  at_ : Nat
  deriving DecidableEq, Repr, Inhabited

/-- A discovery in progress (R59). -/
structure Discovery where
  mb : Nat
  links : Nat
  speed : Nat
  fallback : Bool
  minPeriodAddr : Nat
  timeoutMs : Nat
  /-- `power_on` of the request. -/
  power : Bool := false
  /-- Waits for the accesses in front of it (R76). -/
  queued : Bool := false
  deriving DecidableEq, Repr, Inhabited

/-- One camera port (R57 to R76). -/
structure Port where
  state : PortState := .off
  /-- PWR_ENn. -/
  power : Bool := false
  powerAt : Nat := 0
  autoRecover : Bool := true
  lineTimeoutUs : Nat := 1000
  dataLatencyMinNs : Nat := 0
  codeErrorLimit : Nat := 16
  pocBlankMs : Nat := 20
  controlTimeoutMs : Nat := 200
  links : Nat := 0
  speed : Nat := 0
  pixelFormat : Nat := 0
  width : Nat := 0
  camMinPeriodNs : Nat := 0
  cxpRevision : Nat := 0
  modelName : List Byte := []
  serial : List Byte := []
  /-- Data bytes that fit one control packet of the camera (ControlPacketSizeMax, R74). -/
  packetData : Nat := 4
  link : Vector Link 4 := Vector.replicate 4 {}
  outstanding : List Outstanding := []
  /-- Triggers declared lost by LINE_TIMEOUT, with that instant, whose line may have been in reception (R66). -/
  timedOut : List (Outstanding × Nat) := []
  /-- Stopped under R61. -/
  mismatch : Bool := false
  /-- Locked again, waiting for the first line that matches a trigger (R73). -/
  relocked : Bool := false
  lastAttempt : Nat := 0
  discovery : Option Discovery := none
  accesses : List Access := []
  deriving DecidableEq, Repr, Inhabited

/-- A camera line in a lane input buffer. -/
structure CamLine where
  number : Nat
  md : Nat
  pixels : List Nat
  /-- Pixels of uncorrectable words (R507). -/
  lost : List Nat := []
  deriving DecidableEq, Repr, Inhabited

/-- The lane's own counters and input buffer (R64 to R67, R77, LANE.GET_STATUS). -/
structure Lane where
  port : Option Nat := none
  linesReceived : Nat := 0
  linesLost : Nat := 0
  unsolicited : Nat := 0
  lastTrigger : Nat := 0
  bufferPeak : Nat := 0
  /-- Lines held, newest first. -/
  buffer : List CamLine := []
  /-- Trigger numbers declared lost and not yet passed by the Pergola. -/
  lost : List Nat := []
  deriving DecidableEq, Repr, Inhabited

/-- Settings of a virtual camera (R78 to R80). -/
structure VcamCfg where
  port : Nat := 0
  mono12p : Bool := false
  links : Nat := 1
  speed : Nat := 1
  cdDecimation : Nat := 1
  firstColumn : Nat := 0
  columnCount : Nat := 0
  mdDecimation : Nat := 1
  linesPerImage : Nat := 1024
  deriving DecidableEq, Repr, Inhabited

/-- One virtual camera (R78 to R83). -/
structure Vcam where
  enabled : Bool := false
  cfg : VcamCfg := {}
  /-- A change that waits for the next image boundary (R83). -/
  next : Option VcamCfg := none
  /-- Stopped with cause CAPACITY (R80). -/
  stopped : Bool := false
  acquiring : Bool := false
  triggers : Nat := 0
  /-- Lines emitted of the present image. -/
  imageLine : Nat := 0
  userId : List Byte := []
  deriving DecidableEq, Repr, Inhabited

/-! ### Pixel correction and calibration (chapter 4) -/

/-- Lane parameters (R114 item 0). -/
structure LaneParams where
  activeFirst : Nat := 0
  activeLast : Nat := 0
  obFirst : Nat := 0
  obCount : Nat := 0
  obTauLog2 : Nat := 6
  lampChannel : Nat := 0xFF
  linear : Bool := false
  saturatePropagate : Bool := true
  obEnable : Bool := true
  flickerEnable : Bool := false
  obDriftLimit : Nat := 2048
  lampRef : Int := 0
  exposureMidNs : Int := 0
  deriving DecidableEq, Repr, Inhabited

/-- One segment of a forward map (R96). -/
structure Segment where
  a0 : Int
  a1 : Int
  a2 : Int
  a3 : Int
  deriving DecidableEq, Repr, Inhabited

/-- The working bank of a lane (R100): offset and gain per camera pixel, pixels past the end of the list at offset 0 and
gain 0x4000; no map before one is applied. -/
structure CorrBank where
  params : LaneParams := {}
  table : List (Int × Nat) := []
  map : Option (List Segment) := none
  /-- Index of the derivation that gave the inverse map in force (R97). -/
  derived : Nat := 0
  /-- First and last output column the lane produces under it (R99); none where it produces none. -/
  span : Option (Nat × Nat) := none
  /-- Camera pixels that an uncorrectable word makes unreplaceable, filled in as a line is corrected (R507). -/
  broken : List Nat := []
  deriving DecidableEq, Repr, Inhabited

/-- Correction of one lane: bank in force, its number, and the lane state of R101. -/
structure Corr where
  bank : CorrBank := {}
  bankNumber : Nat := 0
  delta : Int := 0
  flickerGain : Nat := 0x4000
  obClamped : Nat := 0
  flickerHolds : Nat := 0
  flickerClamped : Nat := 0
  /-- Trigger numbers N0 whose new bank re-seeds delta with the first line processed with it (R90). -/
  reseed : List Nat := []
  /-- Camera line whose first correction formed delta last. -/
  lastLine : Option Nat := none
  /-- Outputs each auxiliary channel had delivered when the lane's lamp-sample history was last emptied (R101). -/
  lampFrom : Vector Nat 8 := Vector.replicate 8 0
  /-- Camera pixels whose table word reads uncorrectable, and the instant from which it has been rewritten (R507). -/
  broken : List (Nat × Nat) := []
  deriving DecidableEq, Repr, Inhabited

/-- A camera line captured by a flat-field phase. -/
structure CalLine where
  number : Nat
  /-- MD of its trigger. -/
  md : Nat
  /-- Per camera pixel, x of step 1 for a flat field (R105), y3 of step 5 for a geometry calibration (R109). -/
  pixels : List Nat
  /-- m(t) of R93, where the lamp channel gave one. -/
  lamp : Option Rat
  deriving DecidableEq, Repr, Inhabited

/-- What a calibration found for one lane. -/
structure CalLane where
  lane : Nat
  /-- figure_a to figure_h. -/
  figures : List Int := []
  verdict : Nat := 0
  table : List (Int × Nat) := []
  segments : List Segment := []
  /-- (pixel, code, cause). -/
  defects : List (Nat × Nat × Nat) := []
  /-- Camera pixels of a lane whose offsets the DARK phase set. -/
  dark : List Int := []
  lampRef : Option Int := none
  viewOffset : Nat := 0
  deriving DecidableEq, Repr, Inhabited

/-- A held calibration result (R112). -/
structure CalResult where
  id : Nat
  kind : Nat
  /-- 0 running, 1 DARK done, 2 complete. -/
  runState : Nat
  status : Nat := 1
  verdict : Nat := 0
  laneMask : Nat
  lanes : List CalLane := []
  /-- Geometry: the grid the result was made for. -/
  cdPitch : Nat := 0
  column0 : Int := 0
  columnCount : Nat := 0
  measuresOffsets : Bool := false
  deriving DecidableEq, Repr, Inhabited

/-- A running calibration phase. -/
structure CalRun where
  resultId : Nat
  kind : Nat
  phase : Nat
  /-- The request payload that started it. -/
  request : List Byte
  deadline : Nat
  /-- First trigger of the capture. -/
  first : Nat := 0
  /-- Lines captured per lane, newest first. -/
  captured : Vector (List CalLine) 16 := Vector.replicate 16 []
  deriving DecidableEq, Repr

/-- One link of a link calibration (R484). -/
structure LinkCal where
  verdict : Nat := 0
  speed : Nat := 0
  eyeMin : Nat := 0
  eyeMax : Nat := 0
  eyeHeightMv : Nat := 0
  codeErrors : Nat := 0
  crcErrors : Nat := 0
  deriving DecidableEq, Repr, Inhabited

/-- A link calibration (R484). -/
structure LinksRun where
  running : Bool := true
  portMask : Nat
  durationS : Nat
  margin : Nat
  tolerance : Nat
  status : Nat := 1
  startedAt : Nat
  /-- Verdict bits of the run as a whole: bit 11 where it was stopped (R111). -/
  verdict : Nat := 0
  /-- Entry 4 × n + m is that of Pn.m. -/
  links : List LinkCal := []
  deriving DecidableEq, Repr

/-- Calibration (R104 to R119, R383, R484). -/
structure Cal where
  results : List CalResult := []
  run : Option CalRun := none
  /-- The result of the run, discarded before its end: held no more (R118). -/
  orphan : Option CalResult := none
  nextId : Nat := 1
  links : Option LinksRun := none
  deriving DecidableEq, Repr

/-! ### Stitching and the spare engine (chapter 5) -/

/-- Sums of one seam candidate (R126). -/
structure SeamSum where
  n : Nat := 0
  l : Nat := 0
  ll : Nat := 0
  r : Nat := 0
  rr : Nat := 0
  lr : Nat := 0
  deriving DecidableEq, Repr, Inhabited

/-- One seam (R120 to R132, R149, R153). -/
structure Seam where
  hard : Bool := false
  track : Bool := true
  zoneFirst : Nat := 0xFFFFFFFF
  zoneWidth : Nat := 0
  cutOffset : Nat := 0xFFFF
  confThreshold : Nat := 8192
  textureMin : Nat := 8
  corrLinesLog2 : Nat := 8
  maxStepCd : Nat := 2
  maxStepMd : Nat := 1
  dc : Int := 0
  dm : Int := 0
  /-- Positions that apply from a stitched line on (R130, R150), in order of that line; the last field marks one made by a
  measurement. -/
  next : List (Int × Int × Nat × Bool) := []
  confidence : Nat := 0
  weakCount : Nat := 0
  measurements : Nat := 0
  heldEntries : Nat := 0
  held : Bool := false
  /-- Sums of the 153 candidates of the present window, dm ascending then dc ascending; empty = all zero. -/
  sums : List SeamSum := []
  /-- Zone columns seen in the window times lines, the pairs possible. -/
  possible : Nat := 0
  /-- Stitched lines touched by a cause of R128 other than missing pairs. -/
  taints : List Nat := []
  /-- Trigger numbers N0 of entries that the Pergola reaches at stitched line N0, oldest first, and the last one reached (R150, R309). -/
  applies : List Nat := []
  appliedAt : Nat := 0
  deriving DecidableEq, Repr, Inhabited

/-- A lane's contribution to a stitched line: columns from `first`, none where invalid (R99). -/
structure Contribution where
  number : Nat
  first : Nat
  pixels : List (Option Nat)
  deriving DecidableEq, Repr, Inhabited

/-- One column of a stitched line (R133). -/
structure Pix where
  grey : Nat := 0
  valid : Bool := false
  owner : Nat := 0
  deriving DecidableEq, Repr, Inhabited

/-- A stitched line with its tag. -/
structure Stitched where
  tag : Tag
  columns : List Pix
  deriving DecidableEq, Repr, Inhabited

/-- An engine taken out and under self-test (R144). -/
structure UnderTest where
  engine : Nat
  lane : Nat
  /-- 0 internal fault, 1 shadow mismatch, 2 confirmation mismatch, 3 fault of the spare itself. -/
  cause : Nat
  deriving DecidableEq, Repr, Inhabited

/-- The engines and their binding (R8, R136 to R148). -/
structure Engines where
  binding : Vector (Option Nat) 16 := Vector.replicate 16 none
  spare : Option Nat := none
  retired : Nat := 0
  testing : List UnderTest := []
  /-- Lane shadowed and first line of the period. -/
  shadow : Option (Nat × Nat) := none
  /-- The spare's copy of the lane state, taken at the first line of the period (R101, R136). -/
  copy : Option Corr := none
  /-- Blocks of the period begun and not yet compared: first line, CRC registers of the working engine and of the spare (R137). -/
  blocks : List (Nat × Nat × Nat) := []
  /-- Lane whose interrupted period restarts at the next block boundary. -/
  interrupted : Option Nat := none
  /-- The shadow period is a confirmation period. -/
  confirming : Bool := false
  /-- Lanes with a mismatch since their last good block. -/
  mismatched : Nat := 0
  /-- Lanes whose engine withholds its lines for want of a spare (R146). -/
  withheld : Nat := 0
  lastLane : Option Nat := none
  deriving DecidableEq, Repr

/-- The Pergola (R122 to R135). -/
structure Pergola where
  contributions : Vector (List Contribution) 16 := Vector.replicate 16 []
  /-- Stitched line to be assembled next. -/
  next : Nat := 0
  /-- Lines assembled and not yet taken by DET, oldest first. -/
  out : List Stitched := []
  /-- Newest assembled lines, newest first, as the tiles, previews and the gang use them. -/
  recent : List Stitched := []
  /-- Lanes taken over whose first stitched line with the new engine's contribution is still to come, with the first line that engine
  makes (R140). -/
  takeoverAt : List (Nat × Nat) := []
  /-- Contributions given up (R135): lane and stitched line. -/
  expired : List (Nat × Nat) := []
  deriving DecidableEq, Repr

/-! ### Reference model and detection (chapter 6) -/

/-- A model entry (R155). -/
structure ModelEntry where
  mean : Nat := 0
  var : Nat := 0
  n : Nat := 0
  deriving DecidableEq, Repr, Inhabited

/-- Reference settings (R179). -/
structure Reference where
  tauLog2 : Nat := 12
  mdTauLog2 : Nat := 6
  mdProfile : Bool := true
  freezeMask : Nat := 0x0F
  freezeGuardCd : Nat := 2
  freezeLinePermille : Nat := 500
  sigmaMin : Nat := 16
  sigmaInit : Nat := 64
  mdProfileLimit : Nat := 2048
  readyUpdates : Nat := 0
  deriving DecidableEq, Repr

/-- Thresholds of a band (R164, R180). -/
structure Band where
  mult : List Nat := [2048, 1024, 1024, 2048]
  floor : List Nat := [64, 24, 24, 64]
  ceiling : List Nat := [1024, 512, 512, 1024]
  planeEnable : Nat := 0xFF
  deriving DecidableEq, Repr, Inhabited

/-- A plane definition (R172). -/
structure Plane where
  source : Nat := 0
  polarity : Nat := 0
  morphOp : Nat := 0
  morphW : Nat := 1
  morphH : Nat := 1
  level : Nat := 0
  deriving DecidableEq, Repr, Inhabited

/-- A filter unit (R166, R167, R181). -/
structure Filter where
  /-- 0 off, 1 separable, 2 general. -/
  kind : Nat := 0
  width : Nat := 1
  height : Nat := 1
  shiftH : Nat := 0
  shiftV : Nat := 0
  coeff : List Int := []
  deriving DecidableEq, Repr, Inhabited

/-- The streak detector's settings (R169, R181). -/
structure Streak where
  on : Bool := false
  windowLog2 : Nat := 6
  group : Nat := 1
  clip : Nat := 768
  deriving DecidableEq, Repr

/-- What DET formed for one line: z and e per column, whether the pixel is compared (valid and ready), the raw bits of the
threshold and streak planes. -/
structure DetRow where
  line : Stitched
  z : List Int
  e : List Int
  compared : List Bool
  raw : List Nat
  /-- The line was taken in column pairs (R178). -/
  paired : Bool := false
  /-- Model entries as the line left them (R218). -/
  model : List ModelEntry := []
  deriving DecidableEq, Repr, Inhabited

/-- A mask line delivered to the Carry network. -/
structure MaskLine where
  line : Stitched
  mask : List Nat
  /-- Model entries as the line left them (R218). -/
  model : List ModelEntry := []
  deriving DecidableEq, Repr, Inhabited

/-- DET (R155 to R183). -/
structure Det where
  reference : Reference := {}
  /-- Bands set, newest setting first; other bands have the defaults. -/
  bands : List (Nat × Band) := []
  planes : Vector Plane 8 := Vector.replicate 8 {}
  filters : Vector Filter 3 := Vector.replicate 3 {}
  streak : Streak := {}
  /-- Model entries from column 0; columns past the end have n = 0. -/
  model : List ModelEntry := []
  profile : Int := 0
  /-- Detection delay Fd. -/
  fd : Nat := 0
  /-- Last line whose mask has been delivered. -/
  delivered : Option Nat := none
  /-- Model resets that take effect with a stitched line (R163): that line, the columns kept, whether p is reset too. -/
  resets : List (Nat × Nat × Bool) := []
  frozenLines : Nat := 0
  varSaturations : Nat := 0
  streakEvaluations : Nat := 0
  streakColumns : Nat := 0
  readyColumns : Nat := 0
  sigmaFloorColumns : Nat := 0
  /-- Lines of the present mode entry, newest first, as far as the filters and the alignment need them. -/
  rows : List DetRow := []
  /-- Mask lines not yet taken by the Carry network, oldest first. -/
  out : List MaskLine := []
  /-- Streak accumulators and the lines each has run since the last entry from CONFIGURE or CALIBRATE. -/
  accA : List Int := []
  accB : List Int := []
  runA : Nat := 0
  runB : Nat := 0
  /-- The statistic s of R170 per column as last evaluated, and the last line its verdicts apply to. -/
  stat : List Int := []
  verdictUntil : Nat := 0
  /-- Streak settings of the last line: a change restarts the sums. -/
  lastStreak : Streak := {}
  /-- Last line processed. -/
  last : Option Nat := none
  /-- The accumulator whose window ended with the last line, A or B, still to be evaluated and cleared (R169). -/
  due : Option Bool := none
  /-- Level 3 was in force at the last line (R178). -/
  paired : Bool := false
  deriving DecidableEq, Repr

/-! ### Labelling, records and tiles (chapter 7) -/

/-- Where a run of the last line went. -/
inductive RunOwner where
  | blob (key : Nat)
  | region (band : Nat)
  deriving DecidableEq, Repr, Inhabited

/-- A run of masked pixels (R184). -/
structure Run where
  first : Nat
  last : Nat
  owner : RunOwner
  /-- The segment its pixels belong to has been emitted (R190). -/
  cut : Bool := false
  deriving DecidableEq, Repr, Inhabited

/-- A blob, segment or region that waits in the closure FIFO, or keeps its label behind it (R188). -/
structure Closed where
  blob : Blob
  /-- Its label is freed on acceptance. -/
  holdsLabel : Bool := true
  dense : Bool := false
  continuation : Bool := false
  partial_ : Bool := false
  splitGroup : Option Nat := none
  /-- `mean` and σ16 of the centroid column's model entry at the line at which the blob closed, where it was ready (R218). -/
  ref : Option (Nat × Nat) := none
  stamped : Bool := false
  deriving DecidableEq, Repr, Inhabited

/-- The Carry network (R184 to R195, R211, R215). -/
structure Carry where
  planeSelect : Nat := 0xFF
  segmentLinesLog2 : Nat := 16
  minArea : Nat := 1
  open_ : List Blob := []
  regions : List (Nat × Blob) := []
  exhausted : Bool := false
  nextKey : Nat := 1
  /-- Runs and validity of the last line labelled. -/
  runs : List Run := []
  lastLine : Option Nat := none
  /-- MD of that line, and the grid it was labelled on: `cd_pitch`, `column0_cd`, `column_count`. -/
  lastMd : Nat := 0
  grid : Nat × Int × Nat := (0, 0, 0)
  lastValid : List Bool := []
  /-- Model entries at that line (R218). -/
  model : List ModelEntry := []
  /-- Labels free once that line was labelled (R215). -/
  freeAtLine : Nat := 65536
  /-- Open blobs of the replay under way, which hold labels of the same table (R195). -/
  replay : List Blob := []
  closed : List Closed := []
  fifoPeak : Nat := 0
  minFree : Nat := 65536
  exhaustionEntries : Nat := 0
  denseRecords : Nat := 0
  /-- Chain key to `chain_id` of chains whose segment 0 has its number. -/
  chains : List (Nat × Nat) := []
  deriving DecidableEq, Repr

/-- A record in the on-chip queue. -/
structure Rec where
  data : List Byte
  id : Nat
  mdFirst : Nat
  mdLast : Nat
  /-- Records a gap record stands for; 0 for an ordinary record. -/
  gap : Nat := 0
  /-- Tile that must be written before the record. -/
  tile : Nat := 0
  deriving DecidableEq, Repr, Inhabited

/-- The record path (R200 to R206, R214, R215). -/
structure Records where
  queue : List Rec := []
  /-- Pending gap record (R205). -/
  gap : Option Rec := none
  ring : Ring := { entrySize := 128, irqCount := 64, irqHoldoffUs := 100 }
  nextSequence : Nat := 1
  droppedTotal : Nat := 0
  emitted : Nat := 0
  gapRecords : Nat := 0
  queuePeak : Nat := 0
  smallDiscarded : Nat := 0
  deriving DecidableEq, Repr

/-- Tile settings (R212). -/
structure TileCfg where
  enable : Bool := false
  lookback : Bool := false
  deep : Bool := false
  format : Nat := 0
  compress : Nat := 0
  historyLines : Nat := 0
  tileMin : Nat := 32
  tileMax : Nat := 128
  margin : Nat := 4
  planes : Nat := 0xFF
  minArea : Nat := 1
  deriving DecidableEq, Repr

/-- A reserved tile slot (R207 to R210). -/
structure TileJob where
  ref : Nat
  defect : Nat
  size : Nat
  c0 : Int
  n0 : Int
  oversize : Bool
  fromLookback : Bool
  /-- Pixels cut from the line store, top line first; none = invalid. -/
  pixels : List (Option Nat) := []
  mdTop : Nat := 0
  /-- Cut from an 8-bit history into format 1. -/
  reduced : Bool := false
  format : Nat := 0
  level : Nat := 0
  /-- The grid the tile was cut on. -/
  cdPitch : Nat := 0
  column0 : Int := 0
  columnCount : Nat := 0
  deriving DecidableEq, Repr, Inhabited

/-- Tiles (R207 to R214). -/
structure Tiles where
  cfg : TileCfg := {}
  ring : Ring := { irqCount := 64, irqHoldoffUs := 100 }
  nextRef : Nat := 1
  jobs : List TileJob := []
  written : Nat := 0
  lost : Nat := 0
  unavailable : Nat := 0
  notFound : Nat := 0
  deriving DecidableEq, Repr

/-! ### Classes and repeats (chapter 8) -/

/-- A model in the store: the container as loaded and its plaintext body (R222, R225). -/
structure Model where
  container : List Byte
  body : List Byte
  deriving DecidableEq, Repr, Inhabited

/-- The Abacus (R217 to R228, R241). -/
structure Abacus where
  model : Option Model := none
  /-- Models taken and unloaded so far: it tells two equal models apart (the model's own field). -/
  generation : Nat := 0
  bank : Nat := 0
  /-- Transaction that holds the store's shadow bank, past its application while the old model drains (R227). -/
  held : Option Nat := none
  classified : Nat := 0
  defaultOutcomes : Nat := 0
  replayClassified : Nat := 0
  peakRate : Nat := 0
  /-- Classifications in the present millisecond, and that millisecond. -/
  rate : Nat := 0
  rateMs : Nat := 0
  /-- Classes read 0 until the bank is reloaded after an ECC error or an opened debug port (R507, R524). -/
  blank : Bool := false
  deriving DecidableEq, Repr

/-- Settings of a roll channel (R239). -/
structure RollCfg where
  enable : Bool := false
  encoder : Nat := 0
  repeatCount : Nat := 4
  phaseBinsLog2 : Nat := 6
  cdBinLog2 : Nat := 8
  minArea : Nat := 1
  maxArea : Nat := 0xFFFFFFFF
  maxLines : Nat := 1024
  planeMask : Nat := 0xFF
  classMask : Nat := 2 ^ 256 - 1
  deriving DecidableEq, Repr, Inhabited

/-- What is noted of one roll channel at a trigger (R229, R236). -/
structure RollSample where
  /-- The channel was on, so that this is a sample; a channel that is off is noted for its realignments alone. -/
  live : Bool := true
  ph16 : Nat
  rev16 : Nat
  revolution : Int
  /-- Indexed, or on a channel without `index_enable` (R231). -/
  indexed : Bool
  /-- An index beyond the tolerance realigned the encoder since the line before (R236). -/
  realigned : Bool := false
  deriving DecidableEq, Repr, Inhabited

/-- A cell of a roll channel's histogram (R232). -/
structure Cell where
  roll : Nat
  i : Nat
  j : Nat
  last : Nat
  run : Nat
  chain : Option Nat
  /-- First hit of the run: its revolution and defect. -/
  firstRev : Int
  firstId : Nat
  deriving DecidableEq, Repr, Inhabited

/-- A slot of the chain table (R233, R234, R241). -/
structure Chain where
  roll : Nat
  /-- 1 active, 2 ended, 3 ended by reset. -/
  state : Nat
  run : Nat
  i : Nat
  j : Nat
  last : Nat
  firstRev : Int
  firstId : Nat
  lastId : Nat
  /-- Order in which the slot ended, for reuse of the oldest. -/
  ended : Nat
  deriving DecidableEq, Repr, Inhabited

/-- The Rotunda (R229 to R242). -/
structure Rotunda where
  recordChannel : Vector Nat 2 := Vector.replicate 2 0xFF
  rolls : Vector RollCfg 8 := Vector.replicate 8 {}
  /-- Samples per line, newest first: the last 32 768 stitched lines, and the triggers above them. -/
  samples : List (Nat × List (Option RollSample)) := []
  /-- Cells with `run` above 0 or a revolution on record; all others are clear. -/
  cells : List Cell := []
  chains : Vector (Option Chain) 64 := Vector.replicate 64 none
  /-- Grid, and encoder and bins of each roll channel, at the last stitched line. -/
  grid : Option (Nat × Int × Nat) := none
  bins : List (Nat × Nat × Nat) := []
  endings : Nat := 0
  binned : Nat := 0
  noPhase : Nat := 0
  untracked : Nat := 0
  resets : Nat := 0
  deriving DecidableEq, Repr

/-! ### Look-back and live views (chapter 9) -/

/-- A block of one lane (R243 to R248). -/
structure Block where
  lane : Nat
  /-- First trigger number of the block's span. -/
  span : Nat
  lines : List Contribution
  depth8 : Bool
  /-- Coded length (R273 to R276). -/
  bytes : Nat := 0
  /-- Extents that hold any byte of it. -/
  extents : List Nat := []
  neverStored : Bool := false
  overwritten : Bool := false
  /-- An uncorrectable read has struck it (R430). -/
  damaged : Bool := false
  deriving DecidableEq, Repr, Inhabited

/-- What the index holds of a stitched line (R244). -/
structure IndexLine where
  tag : Tag
  cdPitch : Nat
  column0 : Int
  columnCount : Nat
  deriving DecidableEq, Repr, Inhabited

/-- A seam-log entry (R244): settings of a seam from a trigger number on. -/
structure SeamLog where
  seam : Nat
  from_ : Nat
  hard : Bool
  /-- First column and width of the zone; none where the seam has no zone (R597). -/
  zone : Option (Nat × Nat)
  /-- First and last column the two lanes share. -/
  overlap : Option (Nat × Nat)
  cut : Nat
  dc : Int
  dm : Int
  deriving DecidableEq, Repr, Inhabited

/-- A region (R251). -/
structure Region where
  mdFrom : Nat := 0
  mdTo : Nat := 0
  cdFrom : Int := 0
  cdTo : Int := 0
  deriving DecidableEq, Repr, Inhabited

/-- A retrieval or replay job (R254 to R262). -/
structure LbJob where
  id : Nat
  replay : Bool
  region : Region
  /-- First line of the region and how many it has. -/
  first : Nat
  lines : Nat
  /-- The request payload. -/
  request : List Byte
  running : Bool := false
  finished : Bool := false
  /-- A takeover or the loss of its engine ended it early (R148). -/
  preempted : Bool := false
  status : Nat := 1
  channel : Option Nat := none
  linesDone : Nat := 0
  linesMissing : Nat := 0
  warmup : Nat := 0
  /-- Entries of its transaction as they stood at the request (R259). -/
  entries : List Entry := []
  /-- Detection state the replay starts from, copied at its start: its settings, and its model entries (R259, R260). -/
  det : Option Det := none
  carryCfg : Nat × Nat × Nat := (0xFF, 16, 1)
  /-- Blocks read so far, as they were read, in ascending trigger order (R254). -/
  got : List Block := []
  /-- Lines a replay's detection has taken, its warm-up included, and lines of its region it has labelled. -/
  taken : Nat := 0
  labelled : Nat := 0
  /-- Runs, number, MD and validity of the last line the replay labelled. -/
  runs : List Run := []
  lastLine : Option Nat := none
  lastMd : Nat := 0
  lastValid : List Bool := []
  deriving DecidableEq, Repr

/-- A pin (R257, R258). -/
structure Pin where
  id : Nat
  extents : List Nat
  /-- Blocks of its region that the writer has still to place: lane and first line. -/
  awaits : List (Nat × Nat) := []
  deriving DecidableEq, Repr, Inhabited

/-- The Orangery (R243 to R262, R270). -/
structure Orangery where
  enable : Bool := false
  depth8 : Bool := false
  ringGib : Nat := 0
  flushMs : Nat := 100
  everEnabled : Bool := false
  /-- Lines of the block in progress, per lane, and the span's first trigger number. -/
  building : Vector (List Contribution) 16 := Vector.replicate 16 []
  span : Nat := 0
  /-- A line of that span has been stitched; false from a re-anchor on. -/
  spanSeen : Bool := false
  /-- Depth of the present span. -/
  spanDepth8 : Bool := false
  /-- Blocks complete and waiting in staging, oldest first. -/
  staging : List Block := []
  /-- Blocks written, newest first. -/
  blocks : List Block := []
  index : List IndexLine := []
  seamLog : List SeamLog := []
  /-- Present extent, and bytes used of it. -/
  extent : Nat := 0
  used : Nat := 0
  blocksLost : Nat := 0
  stagingPeak : Nat := 0
  /-- Coded and raw bytes of the blocks written in the last second. -/
  writtenLog : List (Nat × Nat × Nat) := []
  jobs : List LbJob := []
  nextJob : Nat := 1
  pins : List Pin := []
  deriving DecidableEq, Repr

/-- Settings of a preview stream (VIEW.CONFIGURE). -/
structure ViewCfg where
  method : Nat := 0
  cdDecimation : Nat := 2
  mdDecimation : Nat := 1
  frameHeight : Nat := 16
  firstColumn : Nat := 0
  columnCount : Nat := 0
  frameRate : Nat := 1
  overlay : Bool := false
  boxes : Bool := false
  overlayPlanes : Nat := 0
  delivery : Nat := 0
  payloadType : Nat := 96
  packetPayload : Nat := 512
  destIp : Nat := 0
  destPort : Nat := 0
  destMac : Nat := 0
  deriving DecidableEq, Repr

/-- An output row (R263 to R265). -/
structure Row where
  r : Nat
  grey : List Nat
  overlay : List Nat
  newestTrigger : Nat
  newestMd : Nat
  coverageReduced : Bool
  timeDegraded : Bool
  deriving DecidableEq, Repr, Inhabited

/-- The box of a record, drawn or still to be drawn in rows to come (R264). -/
structure ViewBox where
  cMin : Nat
  cMax : Nat
  first : Nat
  last : Nat
  cls : Nat
  deriving DecidableEq, Repr, Inhabited

/-- A preview stream (R263 to R272). -/
structure View where
  configured : Bool := false
  cfg : ViewCfg := {}
  ring : Ring := {}
  started : Bool := false
  frameNumber : Nat := 0
  /-- Available rows, newest first. -/
  rows : List Row := []
  /-- Lines of the row under way, newest first. -/
  current : List MaskLine := []
  /-- Newest row of the previous frame. -/
  lastRow : Option Nat := none
  /-- Frames dropped since the stream started. -/
  dropped : Nat := 0
  /-- Of them, those under enforcement that no event has reported, and the frame number of the first (R268, R269, R272). -/
  unreported : Nat := 0
  firstDropped : Option Nat := none
  lateBoxes : Nat := 0
  suspended : Bool := false
  /-- Boxes that reach into rows not yet formed. -/
  boxes : List ViewBox := []
  /-- RTP: extended sequence number of the next packet, synchronisation source, packets and payload bytes sent. -/
  rtpSequence : Nat := 0
  ssrc : Nat := 0
  packets : Nat := 0
  octets : Nat := 0
  deriving DecidableEq, Repr, Inhabited

/-! ### Compression jobs (chapter 10) -/

/-- A compression, Tally or archive job (R281, R289 to R296). -/
structure ZipJob where
  id : Nat
  operation : Nat
  wrapper : Nat := 0
  level : Nat := 0
  fixedHuffman : Bool := false
  channelReq : Option Nat := none
  depth : Nat := 12
  format : Nat := 0
  lines : Nat := 0
  columns : Nat := 0
  source : Nat := 0
  sourceLength : Nat := 0
  dest : Nat := 0
  destSize : Nat := 0
  tag : Nat := 0
  /-- Archive: decode, and the output limit in bytes that takes effect (R282). -/
  archiveDecode : Bool := false
  limit : Option Nat := none
  /-- 0 queued, 1 running, 2 finished. -/
  state : Nat := 0
  /-- Engine 0 to 3, or 4 the job coder, while running. -/
  engine : Nat := 0
  channel : Nat := 0
  status : Nat := 1
  error : Nat := 0
  consumed : Nat := 0
  output : Nat := 0
  errorBit : Nat := 0
  deriving DecidableEq, Repr, Inhabited

/-- The job queue (R292). -/
structure Zip where
  /-- Jobs queued and running, in order of submission. -/
  jobs : List ZipJob := []
  /-- The last 256 finished, newest first. -/
  done : List ZipJob := []
  nextId : Nat := 1
  deriving DecidableEq, Repr

/-! ### Marker axes and marking (chapter 12) -/

/-- Axis states (R316). -/
inductive AxisState where
  | disabled | unreferenced | homing | idle | moving | fault
  deriving DecidableEq, Repr, Inhabited

/-- Settings of an axis (AXIS.CONFIGURE, R340). -/
structure AxisCfg where
  driverEnable : Bool := false
  retainPhase : Bool := false
  adapt : Bool := true
  fastDecay : Bool := false
  microstepLog2 : Nat := 8
  encoder : Nat := 0xFF
  runCurrent : Nat := 0
  holdCurrent : Nat := 0
  homeCurrent : Nat := 0
  windowH : Nat := 16
  blankNs : Nat := 500
  compDelayNs : Nat := 300
  holdDelayMs : Nat := 200
  swNegGpio : Nat := 0xFF
  swPosGpio : Nat := 0xFF
  swFlags : Nat := 0
  /-- Unsigned 32.16. -/
  vMax : Nat := 0
  aMax : Nat := 0
  jMax : Nat := 0
  stopDecel : Nat := 0
  /-- Signed 16.16. -/
  microstepsPerCount : Int := 0
  devWindow : Nat := 0
  stallTimeUs : Nat := 2000
  posMin : Int := 0
  posMax : Int := 0
  deriving DecidableEq, Repr, Inhabited

/-- One segment of a profile (R318): its length in seconds and its constant jerk, microsteps/s³. -/
structure MotionSeg where
  dur : Rat
  jerk : Rat
  /-- A step of the acceleration at the start of the segment: a quick stop has no jerk limit (R329). -/
  accel : Option Rat := none
  deriving DecidableEq, Repr

/-- A running profile (R318, R319): its start in model time and the motion it starts from. -/
structure Profile where
  start : Nat
  p : Rat
  v : Rat
  a : Rat
  segs : List MotionSeg
  deriving DecidableEq, Repr

/-- A homing in progress (R327, R328). -/
structure Homing where
  /-- 0 hard stop, 1 negative switch, 2 positive switch. -/
  reference : Nat
  positive : Bool
  /-- Unsigned 32.16. -/
  velocity : Nat
  backoff : Nat
  maxTravel : Nat
  homePosition : Int
  /-- Position at the start. -/
  origin : Int
  /-- The reference has been found and the axis backs off. -/
  backingOff : Bool := false
  deriving DecidableEq, Repr

/-- The chopper of one winding (R321, R322). -/
structure Winding where
  /-- The bridge drives; it is in decay otherwise. -/
  drive : Bool := false
  /-- Direction of the last target that was not 0. -/
  positive : Bool := true
  /-- Instants of the last switching edge and of the last reversal. -/
  edgeAt : Nat := 0
  reversedAt : Nat := 0
  /-- Drive time of the chop cycle under way. -/
  ton : Option Nat := none
  /-- Adaptive offset, in DAC codes. -/
  off : Int := 0
  deriving DecidableEq, Repr, Inhabited

/-- Which current of an axis is in force (R320, R323, R327). -/
inductive CoilCurrent where
  | off
  | run
  | hold
  | home
  deriving DecidableEq, Repr, Inhabited

/-- One axis (R315 to R331). -/
structure Axis where
  configured : Bool := false
  cfg : AxisCfg := {}
  state : AxisState := .disabled
  referenced : Bool := false
  phaseRetained : Bool := false
  position : Int := 0
  target : Int := 0
  profile : Option Profile := none
  arrivalS : Nat := 0
  arrivalNs : Nat := 0
  /-- Instant of the last standstill, for the settling of R337. -/
  standstillAt : Nat := 0
  /-- Which current is in force as `i_set` (R320). -/
  current : CoilCurrent := .off
  /-- AXn_EN is asserted. -/
  en : Bool := false
  /-- The choppers of the two windings (R321, R322), and the instant of their last sample. -/
  windingA : Winding := {}
  windingB : Winding := {}
  sampledAt : Nat := 0
  encRef : Int := 0
  countRef : Int := 0
  /-- Encoder-derived position at power-down with the phase retained (R324). -/
  powerDownCount : Option Int := none
  /-- Accepted switch assertions (R329). -/
  negAsserted : Bool := false
  posAsserted : Bool := false
  homing : Option Homing := none
  faultCause : Nat := 0
  /-- The fault is a limit stop, whose clearing leaves the axis IDLE. -/
  faultKeeps : Bool := false
  /-- Instants of the last count of the encoder, and of the last one at which the deviation lay within its window (R325). -/
  countAt : Nat := 0
  insideAt : Nat := 0
  stalls : Nat := 0
  missedMarks : Nat := 0
  marksFired : Nat := 0
  deriving DecidableEq, Repr, Inhabited

/-- Settings of a marker head (MARK.CONFIGURE item 0). -/
structure HeadCfg where
  enable : Bool := false
  axis : Nat := 0
  pulseOutput : Nat := 0
  activeLow : Bool := false
  fireWidthNs : Nat := 8
  downstream : Nat := 0
  lead : Int := 0
  fireTolerance : Nat := 0
  cdAtZero : Int := 0
  /-- Signed 16.16. -/
  wuPerMicrostep : Int := 0
  cdTolerance : Nat := 0
  settleUs : Nat := 0
  deriving DecidableEq, Repr, Inhabited

/-- A marking rule (MARK.CONFIGURE item 1). -/
structure MarkRule where
  enable : Bool := false
  headMask : Nat := 0
  planeMask : Nat := 0xFF
  anchor : Nat := 0
  minConfidence : Nat := 0
  flagsRequired : Nat := 0
  flagsForbidden : Nat := 0
  minArea : Nat := 0
  maxArea : Nat := 0xFFFFFFFF
  classMask : Nat := 0
  deriving DecidableEq, Repr, Inhabited

/-- An accepted mark (R335). -/
structure Mark where
  defect : Nat
  fireMd : Int
  targetCd : Int
  target : Int
  deriving DecidableEq, Repr, Inhabited

/-- A missed-mark entry (R339). -/
structure MissedMark where
  defect : Nat
  fireMd : Int
  targetCd : Int
  head : Nat
  cause : Nat
  shortfallUs : Nat
  sequence : Nat
  deriving DecidableEq, Repr, Inhabited

/-- One head: settings, queue in ascending `fire_md`. -/
structure Head where
  cfg : HeadCfg := {}
  queue : List Mark := []
  deriving DecidableEq, Repr, Inhabited

/-- The marker scheduler (R332 to R339). -/
structure Marking where
  heads : Vector Head 4 := Vector.replicate 4 {}
  rules : Vector MarkRule 16 := Vector.replicate 16 {}
  /-- The last 256 missed marks, newest first. -/
  log : List MissedMark := []
  nextSequence : Nat := 0
  deriving DecidableEq, Repr

/-! ### Sundial and network time (chapter 13) -/

/-- The counter of R343 as it stood at model time `at_`; it advances by `increment` at every 4 ns tick. -/
structure Sundial where
  s : Nat := 0
  ns : Nat := 0
  frac : Nat := 0
  /-- Unsigned 8.32 ns. -/
  increment : Nat := 0x400000000
  at_ : Nat := 0
  /-- Set since power-up (R347). -/
  everSet : Bool := false
  steps : Nat := 0
  /-- 0 internal, 1 10MHZ_IN, 2 fallen back (R344). -/
  freqRef : Nat := 0
  deriving DecidableEq, Repr

/-- Servo states (R353). -/
inductive ServoState where
  | free | acquiring | locked | holdover
  deriving DecidableEq, Repr, Inhabited

/-- The servo (R353 to R362, SERVO.CONFIGURE). -/
structure Servo where
  state : ServoState := .free
  source : Nat := 0
  acquireStepOnly : Bool := false
  ppsFalling : Bool := false
  ppsOutEnable : Bool := true
  lockCount : Nat := 8
  kp : Nat := 0x40000
  ki : Nat := 0x8000
  stepThresholdNs : Nat := 10000
  lockThresholdNs : Nat := 100
  pathStepNs : Nat := 200
  pathHoldS : Nat := 30
  ppsInOffsetNs : Int := 0
  ppsOutWidthMs : Nat := 100
  /-- Integrator and adjustment in 2^-16 ppb. -/
  integ : Int := 0
  adj : Int := 0
  lastOffset : Int := 0
  /-- Consecutive offsets within and outside the lock threshold. -/
  inCount : Nat := 0
  outCount : Nat := 0
  /-- Offsets withheld (R361), oldest first, with the delay samples seen since each. -/
  withheld : List (Int × Nat) := []
  holdUntil : Option Nat := none
  /-- Offsets that wait for the end of a Lodge restart (R25), oldest first. -/
  waiting : List Int := []
  /-- The source was lost (false), or came back (true), while the Lodge restarted (R352). -/
  missed : Option Bool := none
  /-- Last accepted 1PPS_IN edge, or the choice of that source. -/
  lastPps : Option Nat := none
  /-- 1PPS_OUT is high until then (R358). -/
  ppsOutUntil : Option Nat := none
  deriving DecidableEq, Repr

/-- Clock settings of PTP (PTP.CONFIGURE item 0). -/
structure PtpClock where
  profile : Nat := 0
  domain : Nat := 0
  priority1 : Nat := 128
  priority2 : Nat := 128
  clockClass : Nat := 248
  slaveOnly : Bool := true
  twoStep : Bool := true
  logSync : Int := 0
  logAnnounce : Int := 1
  logMinDelayReq : Int := 0
  announceReceiptTimeout : Nat := 3
  deriving DecidableEq, Repr

/-- An entry of a transmit timestamp queue (R352). -/
structure TxTimestamp where
  sequence : Nat
  messageType : Nat
  domain : Nat
  s : Nat
  ns : Nat
  frac : Nat
  deriving DecidableEq, Repr

/-- What best-master selection compares (R348): a grandmaster as an Announce describes it, how far away it is, and the port identity
that sends it. -/
structure Grandmaster where
  priority1 : Nat
  clockClass : Nat
  accuracy : Nat
  variance : Nat
  priority2 : Nat
  identity : Nat
  stepsRemoved : Nat
  /-- sourcePortIdentity of the Announce: clock identity and port number. -/
  sender : Nat
  deriving DecidableEq, Repr

/-- One Ethernet port and its PTP port (R348 to R352, R359 to R362, PTP.STATUS). -/
structure EthPort where
  enable : Bool := false
  speed : Nat := 0
  udp : Bool := false
  ptpEnable : Bool := false
  vlanTagged : Bool := false
  mac : Nat := 0
  /-- IPv4 addresses resolved by ARP with their MAC addresses, newest first (R267). -/
  arp : List (Nat × Nat) := []
  ipv4 : Nat := 0
  netmask : Nat := 0
  gateway : Nat := 0
  vlanTci : Nat := 0
  delayAsymmetryPs : Int := 0
  ingressLatencyPs : Int := 0
  egressLatencyPs : Int := 0
  /-- IEEE 1588 portState, 1 to 9; 3 is DISABLED. -/
  portState : Nat := 3
  linkUp : Bool := false
  /-- Best master heard on the port since the last Announce receipt timeout (R348). -/
  master : Option Grandmaster := none
  /-- UTC offset of the newest Announce taken as SLAVE, where it marks it valid (R512). -/
  utc : Option Int := none
  offsetFromMaster : Int := 0
  /-- m_avg of R360 in 2^-16 ns; none before the first sample. -/
  mAvg : Option Int := none
  /-- The sample that is suspect so far, in ns. -/
  suspect : Option Int := none
  syncReceived : Nat := 0
  delayExchanges : Nat := 0
  pathOutliers : Nat := 0
  pathSteps : Nat := 0
  txts : List TxTimestamp := []
  /-- Entries the firmware has read whose Follow_Up or Pdelay_Resp_Follow_Up has not been sent (R352). -/
  owed : List TxTimestamp := []
  txtsOverflows : Nat := 0
  txtsPeak : Nat := 0
  /-- Timestamps of the last event message received and of the last Pdelay_Req, ns since the epoch in 2^-16 ns (R350, R351). -/
  rxTimestamp : Int := 0
  requestTimestamp : Int := 0
  /-- The last Announce, or the start of waiting for one. -/
  announceAt : Nat := 0
  deriving DecidableEq, Repr, Inhabited

/-- State of a pulse output (TIME.GET section 1). -/
inductive PulseState where
  | idle | armed | running | done | late | rejected | cancelled
  deriving DecidableEq, Repr, Inhabited

/-- One pulse output and its schedule (R363 to R368). -/
structure Pulse where
  state : PulseState := .idle
  mode : Nat := 0
  activeLow : Bool := false
  rejectLate : Bool := false
  /-- Point of boundary 0: ns since the epoch, or wu. -/
  start : Nat := 0
  /-- Unsigned 32.32. -/
  period : Nat := 0
  width : Nat := 0
  count : Nat := 0
  emitted : Nat := 0
  /-- Next boundary. -/
  k : Nat := 0
  /-- The output is in a pulse, whose width ends then. -/
  inPulse : Bool := false
  endsAt : Nat := 0
  deriving DecidableEq, Repr, Inhabited

/-- One capture input (R369). -/
structure Capture where
  edges : Nat := 0
  glitchSamples : Nat := 2
  ring : Ring := { entrySize := 32, irqCount := 64, irqHoldoffUs := 100 }
  captured : Nat := 0
  dropped : Nat := 0
  lastEdge : Option Nat := none
  deriving DecidableEq, Repr, Inhabited

/-- All of chapter 13. -/
structure Time where
  sun : Sundial := {}
  servo : Servo := {}
  clock : PtpClock := {}
  eth : Vector EthPort 2 := Vector.replicate 2 {}
  pulse : Vector Pulse 8 := Vector.replicate 8 {}
  capture : Vector Capture 4 := Vector.replicate 4 {}
  deriving DecidableEq, Repr

/-! ### The auxiliary analog chain (chapter 14) -/

/-- A coefficient bank (R386): taps, newest input first, and phase type. -/
structure AuxBank where
  taps : List Int := []
  /-- 0 linear, 1 minimum. -/
  phaseType : Nat := 0
  deriving DecidableEq, Repr, Inhabited

/-- One auxiliary channel (R372 to R391). -/
structure Aux where
  enable : Bool := false
  /-- Single-cycle settling mode (R385). -/
  single : Bool := false
  cicLog2 : Nat := 4
  halfbands : Nat := 0
  firDecimLog2 : Nat := 3
  stream : Bool := false
  guardSamples : Nat := 0
  muxGpio : Nat := 0xFF
  offset : Int := 0
  /-- Unsigned Q10.22. -/
  gain : Nat := 0x400000
  /-- Offset and gain that take effect at the next output boundary (R382). -/
  nextCorrection : Option (Int × Nat) := none
  /-- The 36-bit integrators and comb registers of R375, as numbers modulo 2^36. -/
  integ : Vector Nat 4 := Vector.replicate 4 0
  comb : Vector Nat 4 := Vector.replicate 4 0
  /-- Delay lines of the half-bands and the FIR, newest first. -/
  hb1 : List Int := []
  hb2 : List Int := []
  fir : List Int := []
  bank : Vector AuxBank 2 := Vector.replicate 2 {}
  current : Nat := 0
  /-- A swap that takes place at the next output boundary, with its fade length (R387). -/
  swapNext : Option Nat := none
  /-- Fade length F and outputs of the fade so far. -/
  fade : Option (Nat × Nat) := none
  /-- Pending item of R388: a deferred load and a pending swap. -/
  pendingLoad : Option AuxBank := none
  pendingSwap : Option Nat := none
  /-- Suppression: its cause and the model time of the cause (R384). -/
  suppress : Option (Nat × Nat) := none
  suppressed : Nat := 0
  overload : Bool := false
  /-- The last modulator sample, how many equal ones end with it, and the samples since a run of 64 (R372). -/
  lastBit : Bool := false
  equal : Nat := 0
  quiet : Nat := 0
  /-- Samples already seen by the overload detector that wait for their output boundary, oldest first. -/
  early : List Bool := []
  clipped : Bool := false
  /-- Channel output number of the next delivered output (wraps). -/
  sequence : Nat := 0
  value : Int := 0
  valueSequence : Nat := 0
  valueS : Nat := 0
  valueNs : Nat := 0
  /-- Outputs of the ring entry under way, oldest first, with the first output's number and time. -/
  entry : List Int := []
  entrySequence : Nat := 0
  entryS : Nat := 0
  entryNs : Nat := 0
  entryAt : Nat := 0
  /-- Every delivered output, newest first: true sample instant in Sundial ns (R380) and value, as the lanes use them. -/
  delivered : List (Rat × Int) := []
  deriving DecidableEq, Repr, Inhabited

/-- A single-frequency detector (R389). -/
structure Tone where
  enable : Bool := false
  channel : Nat := 0
  frequencyMhz : Nat := 0
  blockLength : Nat := 16
  onThreshold : Nat := 0
  offThreshold : Nat := 0
  /-- Delivered outputs of the block, newest first. -/
  samples : List Int := []
  on : Bool := false
  phase : Nat := 0
  magnitude : Nat := 0
  blocks : Nat := 0
  deriving DecidableEq, Repr, Inhabited

/-- What a channel's auxiliary calibration found (R383, AUX.READ section 3). -/
structure AuxCal where
  verdict : Nat := 0
  status : Nat := 0
  offset : Int := 0
  gain : Nat := 0x400000
  repeatDeviation : Nat := 0
  /-- Mean of the zero phase, numerator over 2^avg_log2, kept for an external reference phase. -/
  zero : Option (Int × Nat) := none
  deriving DecidableEq, Repr, Inhabited

/-- The capture of one channel: outputs so far and their sums in the two halves of the zero and reference captures. -/
structure AuxCapture where
  count : Nat := 0
  sums : Vector Int 4 := Vector.replicate 4 0
  overloaded : Bool := false
  deriving DecidableEq, Repr, Inhabited

/-- A running auxiliary calibration phase. -/
structure AuxRun where
  mask : Nat
  external : Bool
  phase : Nat
  avgLog2 : Nat
  refUv : Nat
  tolerance : Nat
  apply : Bool
  /-- Model time at which the capture starts. -/
  startAt : Nat
  capture : Vector AuxCapture 8 := Vector.replicate 8 {}
  deriving DecidableEq, Repr

/-- All of chapter 14. -/
structure AuxChain where
  ch : Vector Aux 8 := Vector.replicate 8 {}
  ring : Ring := { entrySize := 32, irqCount := 64, irqHoldoffUs := 100 }
  dropped : Nat := 0
  tone : Vector Tone 2 := Vector.replicate 2 {}
  cal : Vector AuxCal 8 := Vector.replicate 8 {}
  run : Option AuxRun := none
  deriving DecidableEq, Repr

/-! ### The gang (chapter 15) -/

/-- `state` of GANG.STATUS. -/
inductive GangState where
  | notGanged | forming | joined | island | rejoining
  deriving DecidableEq, Repr, Inhabited

/-- Settings of GANG.CONFIGURE. -/
structure GangCfg where
  size : Nat := 1
  position : Nat := 0
  ring : Bool := false
  autoRejoin : Bool := true
  localEncoder : Bool := false
  overlap : Nat := 72
  rejoinDistance : Nat := 16000000
  deriving DecidableEq, Repr

/-- Sarec links, gang state and what the drive-side neighbour sent (R393 to R409). -/
structure Gang where
  cfg : GangCfg := {}
  state : GangState := .notGanged
  /-- 0 leader, 1 follower, 2 partition leader, 3 untriggered. -/
  role : Nat := 0
  members : Nat := 1
  /-- Links of the gang that carry frames; link b joins the members at positions b and b + 1 (R402). -/
  links : Vector Bool 4 := Vector.replicate 4 false
  /-- Grids of the drive-side neighbour: first column and pitch from a line on, newest first; those of the tending-side neighbour with
  their column count (R395). -/
  gridsAbove : List (Nat × Int × Nat) := []
  gridsBelow : List (Nat × Int × Nat × Nat) := []
  nodeConflict : Bool := false
  leaderNode : Nat := 0
  /-- Node IDs of the members that met (R394), by position. -/
  nodes : List Nat := []
  latency : Vector Nat 2 := Vector.replicate 2 0
  splits : Nat := 0
  framesRetried : Nat := 0
  imports : Nat := 0
  lastSplitTrigger : Nat := 0
  joinTrigger : Nat := 0
  /-- MD at which a join is scheduled (R407). -/
  joinMd : Option Nat := none
  /-- Tags received and not yet issued, oldest first (R396). -/
  tags : List Tag := []
  /-- Pitches that apply at tags not yet issued: trigger number, numerator, denominator (R397). -/
  pitches : List (Nat × Nat × Nat) := []
  /-- The gang seam (R398). -/
  seam : Seam := { zoneWidth := 64 }
  /-- Seam samples received: line number and columns from −gang_overlap on, newest first. -/
  samples : List (Nat × List (Option Nat)) := []
  /-- Sums received and not yet labelled: line, the neighbour's exported blobs with a run on it, whether that run touches its
  column 0, and the label here of each that has one. -/
  exchange : List (Nat × List (Blob × Bool)) := []
  importKeys : List (Nat × Nat) := []
  /-- Largest view offset each other member reported (R397), by position. -/
  viewOffsets : List (Nat × Nat) := []
  /-- Node IDs and local encoders of members, by position, as met (R403): members with an own copy of the encoder. -/
  encoders : Nat := 0
  /-- `gang_overlap` of the members, by position, as met (R398). -/
  overlaps : List Nat := []
  deriving DecidableEq, Repr

/-! ### DRAM (chapter 16) -/

/-- A byte lane's training result at one speed (R422 to R425). -/
structure LaneTraining where
  eyePs : Nat := 0
  eyeSteps : Nat := 0
  centre : Nat := 0
  lastDelta : Int := 0
  attempts : Nat := 1
  flagged : Bool := false
  conservative : Bool := false
  acceptedAt : Nat := 0
  /-- Channel temperature at the last accepted result, 1/16 °C. -/
  tempAt : Int := 0
  /-- Steps DQS tracking has moved the centre since, and the direction of its last measurement. -/
  moved : Int := 0
  lastDirection : Int := 0
  deriving DecidableEq, Repr, Inhabited

/-- A retrain under way: byte lane, cause, and the runs gathered so far as (eye ps, eye steps, centre). -/
structure Retrain where
  lane : Nat
  cause : Nat
  runs : List (Nat × Nat × Nat) := []
  deriving DecidableEq, Repr, Inhabited

/-- A row a bank's table samples (R421), with its activations in this window by requester, in the order of the table of R415. -/
structure Activation where
  bank : Nat
  row : Nat
  counts : List Nat
  deriving DecidableEq, Repr, Inhabited

/-- One DRAM channel (R410 to R431). -/
structure DramChannel where
  /-- 0 ready, 1 training, 2 switching speed, 3 failed. -/
  state : Nat := 0
  ranks : Nat := 1
  densityGb : Nat := 16
  doubled : Bool := false
  speed : Nat := 6400
  /-- 1/16 °C. -/
  temperature : Int := 0
  /-- Refreshes owed per rank. -/
  owed : Vector Nat 2 := Vector.replicate 2 0
  /-- Last valid reading of each sensor, 1/16 °C, and the number of sensors. -/
  readings : Vector Int 7 := Vector.replicate 7 0
  sensors : Nat := 0
  /-- Consecutive failed and valid reads per sensor, and which have failed; at most 7 sensors. -/
  badReads : Vector Nat 7 := Vector.replicate 7 0
  goodReads : Vector Nat 7 := Vector.replicate 7 0
  sensorFailed : Nat := 0
  /-- Consecutive reads below the release levels of 82 and 92 °C. -/
  below82 : Nat := 0
  below92 : Nat := 0
  limited : Bool := false
  corrected : Nat := 0
  uncorrected : Nat := 0
  failedDevices : Nat := 0
  /-- Corrections of the last 24 h: device position and instant. -/
  corrections : List (Nat × Nat) := []
  critical : Bool := false
  rfmIssued : Nat := 0
  throttleEvents : Nat := 0
  panicWriter : Nat := 0
  panicBelvedere : Nat := 0
  /-- Each real-time port is in panic (R416): writer, Belvedere. -/
  writerPanic : Bool := false
  belvederePanic : Bool := false
  retrains : Nat := 0
  scrubPermille : Nat := 0
  activations : List Activation := []
  /-- Requesters limited until the window ends: bank, requester (R421). -/
  throttled : List (Nat × Nat) := []
  /-- Training at 4800 and at the boot speed, ten byte lanes each. -/
  slow : Vector LaneTraining 10 := Vector.replicate 10 {}
  fast : Vector LaneTraining 10 := Vector.replicate 10 {}
  training : Option Retrain := none
  /-- Retrains requested and not begun: lane, cause. -/
  queue : List (Nat × Nat) := []
  deriving DecidableEq, Repr, Inhabited

/-- An entry of the DRAM error log (DRAM.STATUS section 2). -/
structure DramLog where
  timeS : Nat
  timeNs : Nat
  channel : Nat
  kind : Nat
  device : Nat
  reader : Nat
  extent : Nat
  deriving DecidableEq, Repr, Inhabited

/-- The DRAM subsystem. -/
structure Dram where
  /-- Bytes of preview rows in the Belvedere's pool that DRAM has not taken yet (R19, R416). -/
  belvedereUsed : Nat := 0
  failed : Bool := false
  /-- Speed every channel runs at outside thermal enforcement (R411). -/
  bootSpeed : Nat := 6400
  ch : Vector DramChannel 4 := Vector.replicate 4 {}
  /-- Target speed of the switch under way and channels still to switch (R426). -/
  switching : Option (Nat × List Nat) := none
  /-- Speed requested while a switch runs (R427). -/
  pendingSpeed : Option Nat := none
  spareExtents : Nat := 128
  /-- Ring extents retired, by position (life record). -/
  retired : List Nat := []
  log : List DramLog := []
  deriving DecidableEq, Repr

/-! ### Health, supplies and the life record (chapter 19) -/

/-- A die or DRAM threshold with its dwell (R494). -/
structure Threshold where
  /-- 1/16 °C. -/
  value : Int := 0
  reached : Bool := false
  /-- Consecutive rounds at or above it, at most 3. -/
  above : Nat := 0
  /-- Consecutive rounds below its release level, at most 3. -/
  below : Nat := 0
  deriving DecidableEq, Repr, Inhabited

/-- `request_state` of HEALTH.STATUS. -/
inductive Request where
  | none | grace | spent | enforced
  deriving DecidableEq, Repr, Inhabited

/-- Housekeeping (R489 to R500, R513, R593). -/
structure Health where
  /-- Last conversion of each die sensor, 1/16 °C. -/
  sensors : Vector Int 24 := Vector.replicate 24 0
  /-- Consecutive deviating or invalid rounds per sensor. -/
  badRuns : Vector Nat 24 := Vector.replicate 24 0
  failed : Vector Bool 24 := Vector.replicate 24 false
  groups : Vector Int 8 := Vector.replicate 8 0
  /-- Least substitute of a pinned group (R493). -/
  pinned : Vector (Option Int) 8 := Vector.replicate 8 none
  dieTemp : Int := 0
  levelFloor : Nat := 0
  warn : Threshold := { value := 1520 }
  request : Threshold := { value := 1600 }
  level2 : Threshold := { value := 1680 }
  level3 : Threshold := { value := 1760 }
  halt : Threshold := { value := 1888 }
  graceMs : Nat := 500
  graceEnd : Nat := 0
  state : Request := .none
  throttleReq : Bool := false
  acknowledged : Bool := false
  extensionUsed : Bool := false
  level1Latch : Bool := false
  level : Nat := 0
  roundsDiscarded : Nat := 0
  /-- Rounds completed since reset, and when the last one completed. -/
  rounds : Nat := 0
  roundAt : Nat := 0
  /-- HK_SUMMARY, HK_SENSOR_FAILED, HK_GROUP_TEMP_LO, HK_GROUP_TEMP_HI, HK_DRAM_TEMP as the last round left them (R593). -/
  registers : Vector Nat 5 := Vector.replicate 5 0
  railMv : Vector Nat 32 := Vector.replicate 32 0
  /-- Highest and lowest die temperature since the last summary (R508). -/
  high : Int := 0
  low : Int := 0
  deriving DecidableEq, Repr

/-- Supplies and SRAM (R502 to R507). -/
structure Supply where
  /-- Times of the dips of the last second, newest first. -/
  dipTimes : List Nat := []
  lastDip : Option Nat := none
  /-- Last instant at which a rail was seen outside its band. -/
  lastExcursion : Nat := 0
  /-- Monitors of rails that have been below their band for 10 ms and have not returned (R503). -/
  outside : List Nat := []
  unstable : Bool := false
  /-- Flash writes held until this instant is reached without an excursion. -/
  held : Bool := false
  dipsSinceBoot : Nat := 0
  sramCorrected : Nat := 0
  sramUncorrected : Nat := 0
  /-- Rows of the reserve pool in use as replacements. -/
  rowsUsed : Nat := 0
  exhausted : Bool := false
  /-- (pool, row) corrected on the last scrub pass. -/
  rowsOnce : List (Nat × Nat) := []
  deriving DecidableEq, Repr

/-- Totals of the life record (R508 to R512, LIFE.READ section 0). -/
structure Totals where
  powerOnHours : Nat := 0
  powerCycles : Nat := 0
  thermalCycles : Nat := 0
  /-- Aging index in equivalent seconds at 85 °C, scaled by 2^32. -/
  aging : Nat := 0
  throttleS : Vector Nat 3 := Vector.replicate 3 0
  supplyDips : Nat := 0
  supplyResets : Nat := 0
  eccCorrected : Nat := 0
  eccUncorrected : Nat := 0
  /-- 0 shipped, 1 PTP, 2 set, 3 recorded. -/
  utcSource : Nat := 0
  utcOffset : Int := 37
  auditEntries : Nat := 0
  nextDefect : Nat := 1
  takeovers : Vector Nat 17 := Vector.replicate 17 0
  retiredExtents : Nat := 0
  entriesDropped : Nat := 0
  lines : Vector Nat 16 := Vector.replicate 16 0
  deriving DecidableEq, Repr

/-- A journal entry waiting or written: its 64 bytes (R508). -/
structure JournalEntry where
  kind : Nat
  part : Nat
  timeS : Nat
  timeNs : Nat
  body : List Byte
  deriving DecidableEq, Repr

/-- The life record and its write queue (R508 to R513). -/
structure Life where
  totals : Totals := {}
  /-- Entries waiting in Lodge memory, oldest first. -/
  queue : List JournalEntry := []
  /-- Entries written, newest first: the content of areas A and B. -/
  areaA : List (List Byte) := []
  areaB : List (List Byte) := []
  nextSequence : Nat := 0
  /-- Event entries written in the present UTC day, and that day. -/
  eventsToday : Nat := 0
  day : Int := 0
  hold : Bool := false
  /-- Offset given by LIFE.SET_CALENDAR (R512). -/
  setOffset : Option Int := none
  /-- Thermal-cycle tracker of R511: lowest since the last cycle, peak of the rise under way. -/
  cycleLow : Int := 0
  cyclePeak : Option Int := none
  telemetryEvent : Bool := true
  ring : Ring := { entrySize := 128, irqCount := 64, irqHoldoffUs := 100 }
  telemetrySequence : Nat := 0
  linesLastS : Nat := 0
  recordsLastS : Nat := 0
  deriving DecidableEq, Repr

/-! ### Security (chapter 20) -/

/-- A session (R471, R519). -/
structure Session where
  cls : Nat
  id : Nat
  idleS : Nat
  lastCommand : Nat
  deriving DecidableEq, Repr, Inhabited

/-- An outstanding challenge (R518). -/
structure Challenge where
  value : List Byte
  expires : Nat
  deriving DecidableEq, Repr, Inhabited

/-- One fused setting (R523). -/
structure Fuse where
  fused : Nat := 0
  inEffect : Nat := 0
  used : Nat := 0
  deriving DecidableEq, Repr, Inhabited

/-- The Gatehouse: fuses, battery domain, sessions (R515 to R530). -/
structure Security where
  /-- Settings 0 to 4 of R523. -/
  fuses : Vector Fuse 5 := Vector.replicate 5 {}
  /-- Key-store slots (battery domain). -/
  keys : Vector (Option (List Byte)) 8 := Vector.replicate 8 none
  /-- Generation tag of slot 0. -/
  keyGeneration : Nat := 0
  sealed_ : Bool := false
  debugOpen : Bool := false
  failures : Nat := 0
  lockoutUntil : Option Nat := none
  challenges : Vector (Option Challenge) 8 := Vector.replicate 8 none
  unlockChallenges : Vector (Option Challenge) 8 := Vector.replicate 8 none
  sessions : Vector (Option Session) 8 := Vector.replicate 8 none
  nextSession : Nat := 1
  /-- LOCKDOWN latch (battery domain). -/
  latch : Bool := false
  actions : Vector Nat 9 := Vector.replicate 9 0
  switchActiveLow : Nat := 0
  asserted : Vector Bool 9 := Vector.replicate 9 false
  counts : Vector Nat 9 := Vector.replicate 9 0
  /-- Sources asserted while unpowered and not yet raised. -/
  unreported : List Nat := []
  /-- Latched cause of R505: monitor of the rail that reset the device. -/
  resetCause : Option Nat := none
  deriving DecidableEq, Repr

/-! ### The whole device -/

/-- The settings of the pipeline that the Ledger changes at a trigger N0: what every stage reads for a stitched line (R309). -/
structure Settings where
  pitchNum : Nat
  pitchDen : Nat
  geo : Geometry
  delayFrom : Vector (Option Nat) 16
  banks : Vector CorrBank 16
  /-- Only the settings of each seam are read. -/
  seams : Vector Seam 15
  reference : Reference
  bands : List (Nat × Band)
  planes : Vector Plane 8
  filters : Vector Filter 3
  streak : Streak
  fd : Nat
  planeSelect : Nat
  segmentLinesLog2 : Nat
  minArea : Nat
  model : Option Model
  generation : Nat
  recordChannel : Vector Nat 2
  rolls : Vector RollCfg 8
  tiles : TileCfg
  heads : Vector HeadCfg 4
  rules : Vector MarkRule 16
  /-- Column of the web line that the first pixel stands for: 0, but in a replay the region's first column (R260). -/
  firstColumn : Nat := 0
  deriving DecidableEq, Repr

/-- Everything inside the device. -/
structure Chip where
  /-- Instant of the last command, ns from the model's origin of time (the model's own field, log entry 2). -/
  now : Nat := 0
  /-- Index of the next free value (the model's own field, log entry 3). -/
  fresh : Nat := 0
  /-- Effects on the outside world of the last command, newest first. -/
  out : List Output := []
  modes : Modes := {}
  fw : Firmware := {}
  pcie : Pcie := {}
  evq : EventQueue := {}
  rates : List RateWindow := []
  mbx : MailboxBlock := {}
  regs : Regs := {}
  enc : Vector Enc 8 := Vector.replicate 8 {}
  trig : Trig := {}
  ledger : Ledger := {}
  /-- Settings in force for the stitched lines below a trigger N0 at which a transaction applied, newest first, as long as
  such a line may still be in the pipeline (R309). -/
  older : List (Nat × Settings) := []
  port : Vector Port 16 := Vector.replicate 16 {}
  lane : Vector Lane 16 := Vector.replicate 16 {}
  vcam : Vector Vcam 4 := Vector.replicate 4 {}
  corr : Vector Corr 16 := Vector.replicate 16 {}
  cal : Cal := {}
  seam : Vector Seam 15 := Vector.replicate 15 {}
  engines : Engines := {}
  perg : Pergola := {}
  det : Det := {}
  carry : Carry := {}
  records : Records := {}
  tiles : Tiles := {}
  abacus : Abacus := {}
  rotunda : Rotunda := {}
  orangery : Orangery := {}
  view : Vector View 4 := Vector.replicate 4 {}
  zip : Zip := {}
  axis : Vector Axis 4 := Vector.replicate 4 {}
  /-- Levels of GP banks A and B, as sensed at the end of power-on reset (R572). DESIGN CHOICE: log entry 253. -/
  gp : Vector GpBank 2 := Vector.replicate 2 .v33
  mark : Marking := {}
  time : Time := {}
  aux : AuxChain := {}
  gang : Gang := {}
  dram : Dram := {}
  health : Health := {}
  supply : Supply := {}
  life : Life := {}
  sec : Security := {}
  /-- Saturating counters that have reached all ones since they were last cleared, each with the code of its command,
  the offset of its field there and its instance (R549). -/
  saturated : List (Nat × Nat × Nat) := []
  deriving DecidableEq, Repr

/-- The state of the model: the device, the host memory and the bulk window it writes, and the commands waiting. -/
structure State where
  chip : Chip := {}
  /-- Host memory as the device has written it. -/
  host : Mem := []
  /-- The bulk window (R444). -/
  bulk : Mem := []
  pending : List Instr := []
  deriving DecidableEq, Repr

/-- The machine right after a power-on reset (R543, R586): nothing configured, nothing waiting, STANDBY not yet
reached; every register at the value the spec gives, else zero, false or empty (log entry 1). -/
def State.reset : State := {}

end Sys2Proof.Machine
end

