-- ==== Sys2Proof/Machine/Ops.lean ====
section
/-! DEFINITION. The named operations every meaning is built from: memory, effects on the outside world, free values,
time, interrupts, events, saturating counters, host rings and DMA channel ownership. -/
namespace Sys2Proof.Machine

/-! ### Memory -/

/-- What a byte of host memory or of the bulk window that nothing has written reads as (log entry 5). DESIGN CHOICE: log entry 5. -/
def Mem.blank : Byte := 0

/-- The byte at an address. DESIGN CHOICE: log entry 5. -/
def Mem.read : Mem → Nat → Byte
  | [], _ => Mem.blank
  | (k, v) :: m, a => if k = a then v else Mem.read m a

/-- One byte written, keeping the addresses rising and no entry equal to the blank byte. -/
def Mem.write : Mem → Nat → Byte → Mem
  | [], a, b => if b = Mem.blank then [] else [(a, b)]
  | (k, v) :: m, a, b =>
    if a < k then (if b = Mem.blank then (k, v) :: m else (a, b) :: (k, v) :: m)
    else if a = k then (if b = Mem.blank then m else (a, b) :: m)
    else (k, v) :: Mem.write m a b

/-- A byte string written from an address up. -/
def Mem.writeBytes : Mem → Nat → List Byte → Mem
  | m, _, [] => m
  | m, a, b :: bs => Mem.writeBytes (Mem.write m a b) (a + 1) bs

/-- The n bytes from an address up. -/
def Mem.readBytes (m : Mem) (a n : Nat) : List Byte := (List.range n).map fun i => Mem.read m (a + i)

/-- Every address of a memory lies above `lo`, the addresses rise strictly, and no entry is the blank byte. -/
def Mem.above : Nat → Mem → Bool
  | _, [] => true
  | lo, (k, v) :: m => decide (lo ≤ k) && v != Mem.blank && Mem.above (k + 1) m

/-- The canonical form of a memory. -/
def Mem.wf (m : Mem) : Bool := Mem.above 0 m

/-- The memory after the effects of a command, oldest effect first: writes to host memory. DESIGN CHOICE: log entry 8. -/
def hostAfter : List Output → Mem → Mem
  | [], m => m
  | .hostWrite a bs _ _ :: os, m => hostAfter os (m.writeBytes a bs)
  | _ :: os, m => hostAfter os m

/-- The bulk window after the effects of a command, oldest effect first. DESIGN CHOICE: log entry 8. -/
def bulkAfter : List Output → Mem → Mem
  | [], m => m
  | .bulkWrite a bs :: os, m => bulkAfter os (m.writeBytes a bs)
  | .bulkLost :: os, _ => bulkAfter os []
  | _ :: os, m => bulkAfter os m

/-- Runs one command at instant t on the whole state: the time moves on, the effect acts on the device, and the writes it
issued land in host memory and in the bulk window, in order. The queue is left as it is. DESIGN CHOICE: log entries 2, 8 and 244. -/
def State.run (s : State) (t : Nat) (f : State → Chip → Chip) : State :=
  let c := f s { s.chip with now := max s.chip.now t, out := [] }
  { s with chip := c, host := hostAfter c.out.reverse s.host, bulk := bulkAfter c.out.reverse s.bulk }

/-! ### Effects and free values -/

/-- Records an effect on the outside world. DESIGN CHOICE: log entry 8. -/
def emit (o : Output) (c : Chip) : Chip := { c with out := o :: c.out }

/-- A value the spec leaves open, and the device with the next one due (log entry 3). DESIGN CHOICE: log entry 3. -/
def freeNat (c : Chip) : Nat × Chip := (Config.freeValue c.fresh, { c with fresh := c.fresh + 1 })

/-- A free number from `lo` to `lo + width`. DESIGN CHOICE: log entry 3. -/
def freeInt (lo : Int) (width : Nat) (c : Chip) : Int × Chip :=
  let (v, c) := freeNat c
  (lo + (v % (width + 1) : Nat), c)

/-- n free bytes. DESIGN CHOICE: log entry 3. -/
def freeBytes (n : Nat) (c : Chip) : List Byte × Chip :=
  ((List.range n).map fun i => BitVec.ofNat 8 (Config.freeValue (c.fresh + i)), { c with fresh := c.fresh + n })

/-! ### Time (R343) -/

/-- One Sundial second in 2^-32 ns. -/
abbrev sunSecond : Nat := 1000000000 * 2 ^ 32

/-- A number of 2^-32 ns with its seconds kept to 48 bits: they saturate at all ones (R550). DEDUCED: log entry 12. -/
def sunClamp (total : Nat) : Nat := if total / sunSecond < 2 ^ 48 then total else (2 ^ 48 - 1) * sunSecond + total % sunSecond

/-- The Sundial at model time t in units of 2^-32 ns since the epoch: one increment at every 4 ns tick (R343). DESIGN CHOICE: log entry 2. -/
def sunTotal (x : Sundial) (t : Nat) : Nat :=
  sunClamp ((x.s * 1000000000 + x.ns) * 2 ^ 32 + x.frac + (t - x.at_) / 4 * x.increment)

/-- The Sundial at model time t in whole ns. -/
def sunNsAt (c : Chip) (t : Nat) : Nat := sunTotal c.time.sun t / 2 ^ 32

/-- The Sundial's ns now. -/
def sunNs (c : Chip) : Nat := sunNsAt c c.now

/-- Seconds and ns of a number of ns. -/
def secNs (n : Nat) : Nat × Nat := (n / 1000000000, n % 1000000000)

/-- The Sundial reading now, as seconds and ns. -/
def clock (c : Chip) : Nat × Nat := secNs (sunNs c)

/-- Sundial seconds and ns of a reading as the 10 bytes of a time field. -/
def timeBytes (s ns : Nat) : List Byte := le 6 s ++ le 4 ns

/-! ### MSI-X (R439) -/

/-- Signals a vector: sent, or left pending while it is masked or the device is in D3hot (R437). DEDUCED: log entry 15. -/
def signalVector (v : Nat) (c : Chip) : Chip :=
  let e := vget c.pcie.msix v
  if e.mask || c.pcie.d3hot then { c with pcie := { c.pcie with msix := vset c.pcie.msix v { e with pending := true } } }
  else emit (.msix v (e.addrHi * 2 ^ 32 + e.addrLo) e.data) c

/-- Sends a vector that is pending and no longer held back, once (R439). DEDUCED: log entry 15. -/
def releaseVector (v : Nat) (c : Chip) : Chip :=
  let e := vget c.pcie.msix v
  if e.pending && !e.mask && !c.pcie.d3hot then
    emit (.msix v (e.addrHi * 2 ^ 32 + e.addrLo) e.data)
      { c with pcie := { c.pcie with msix := vset c.pcie.msix v { e with pending := false } } }
  else c

/-! ### The life record's write queue (R508 to R510) -/

/-- The UTC day now (R509, R512). -/
def utcDay (c : Chip) : Int := (((clock c).1 : Int) - c.life.totals.utcOffset) / 86400

/-- Appends an entry to the write queue of 256 (R510). -/
def journalAdd (kind part : Nat) (body : List Byte) (c : Chip) : Chip :=
  let (s, n) := clock c
  { c with life := { c.life with queue := c.life.queue ++ [{ kind, part, timeS := s, timeNs := n, body := fit 42 body }] } }

/-- Appends an event entry, unless the day's 256 are used up or the queue of R510 is full: then it is dropped and counted (R509).
DEDUCED: log entry 210. -/
def journalEvent (e : Event) (c : Chip) : Chip :=
  let d := utcDay c
  let c := if c.life.day = d then c else { c with life := { c.life with day := d, eventsToday := 0 } }
  if c.life.eventsToday < 256 ∧ c.life.queue.length < 256 then
    journalAdd 1 0 (le 2 e.code ++ le 1 e.severity ++ le 1 e.source ++ e.payload)
      { c with life := { c.life with eventsToday := c.life.eventsToday + 1 } }
  else { c with life := { c.life with totals := { c.life.totals with
    entriesDropped := satU 32 (c.life.totals.entriesDropped + 1) } } }

/-! ### Host rings (R203) -/

/-- Entries written and not yet freed by the host's tail. -/
def Ring.used (r : Ring) : Nat := wrapU 32 (r.head + 2 ^ 32 - r.tail)

/-- The ring is full: head - tail = entry_count modulo 2^32. -/
def Ring.full (r : Ring) : Bool := decide (r.entryCount ≤ r.used)

/-- A tail the ring accepts: head - tail does not exceed entry_count, modulo 2^32 (R203). -/
def Ring.accepts (r : Ring) (tail : Nat) : Bool := decide (wrapU 32 (r.head + 2 ^ 32 - tail) ≤ r.entryCount)

/-- Writes data to host memory: with Relaxed Ordering where the host has enabled it (R455). -/
def writeData (addr : Nat) (data : List Byte) (c : Chip) : Chip := emit (.hostWrite addr data false Config.relaxedOrdering) c

/-- When the entries not yet signalled have waited long enough, with an entry written now: each waits for `irq_holdoff_us` as it
stood when it was written (R203, R595). -/
def Ring.entryDue (r : Ring) (now : Nat) : Option Nat :=
  if r.irqHoldoffUs = 0 then r.signalBy else some (min (r.signalBy.getD (now + 1000 * r.irqHoldoffUs)) (now + 1000 * r.irqHoldoffUs))

/-- Writes one entry, without the head block; an entry of the event ring never carries Relaxed Ordering (R455). -/
def ringEntry (r : Ring) (data : List Byte) (event : Bool) (c : Chip) : Ring × Chip :=
  let c := emit (.hostWrite (r.base + r.entrySize * (r.head % r.entryCount)) data false (!event && Config.relaxedOrdering)) c
  ({ r with head := wrapU 32 (r.head + 1), sinceIrq := r.sinceIrq + 1, signalBy := r.entryDue c.now }, c)

/-- Signals the ring's vector when `irq_count` entries are waiting, or at once where `force` asks for it. -/
def ringSignal (vector : Nat) (force : Bool) (r : Ring) (c : Chip) : Ring × Chip :=
  if force || (r.irqCount != 0 && decide (r.irqCount ≤ r.sinceIrq)) then
    ({ r with sinceIrq := 0, signalBy := none }, signalVector vector c)
  else (r, c)

/-- Writes one entry, then the head block with two totals after the head, then the interrupt (R203, R455). -/
def ringPut (r : Ring) (data : List Byte) (depth total : Nat) (c : Chip) : Ring × Chip :=
  let (r, c) := ringEntry r data false c
  let c := emit (.hostWrite r.headAddr (le 4 r.head ++ le 4 depth ++ le 4 total ++ zeros 20)) c
  let c := { c with pcie := { c.pcie with dma := vmod c.pcie.dma r.channel fun d => { d with completed := wrapU 32 (d.completed + 1) } } }
  ringSignal (2 + r.channel) false r c

/-! ### Events (R458 to R464) -/

/-- Events that exist in the PW1212 personality (R562): not groups 06, 08, 0B, 0C and 0F, nor EV_VIEW_DROPPED. -/
def legacyRaises (code : Nat) : Bool :=
  !([6, 8, 0xB, 0xC, 0xF].contains (code / 256)) && code != 0x0700

/-- Events the ring carries in LOCKDOWN (R527). DEDUCED: log entry 11. -/
def lockdownCarries (code : Nat) : Bool := code / 256 == 0xD || code == 0x0E00 || code == 0x0100

/-- Whether an event is enabled by its mask bit; EV_EVENTS_LOST and severity 4 cannot be masked (R464). -/
def eventEnabled (c : Chip) (code sev : Nat) : Bool :=
  sev == 4 || code == 0x0102 || bit (vget c.evq.mask (code / 256 % 16)) (code % 16)

/-- MSI-X vector of an event's own group: 34 for 0x0D00 to 0x0D05, 35 for group 0x0E00 (R439). -/
def groupVector (code : Nat) : Option Nat :=
  if 0x0D00 ≤ code ∧ code ≤ 0x0D05 then some 34 else if code / 256 = 0xE then some 35 else none

/-- Signals the group vector of an event, where it has one. -/
def signalGroup (code : Nat) (c : Chip) : Chip :=
  match groupVector code with
  | some v => signalVector v c
  | none => c

/-- Whether the device raises events: not before step 7 of the boot timeline (R541), and not in RECOVERY. DESIGN CHOICE: log entry 10. -/
def raisesEvents (c : Chip) : Bool := c.modes.boot == .done

/-- Whether Borusk firmware raises an event (R458): the rules that say so (R154, R371), not what R24 has hardware
do (application of a transaction, triggers, stalls, marks, thermal thresholds and enforcement), and else as the implementation has it. -/
def raisedByFirmware (code : Nat) (payload : List Byte) : Bool :=
  if code = 0x0500 then decide (4 ≤ rd payload 3 1)
  else if code = 0x0A00 ∨ code = 0x0A02 then true
  else if [0x0304, 0x0600, 0x0A01, 0x0A03, 0x0A04, 0x0B00, 0x0B04, 0x0D00, 0x0D01, 0x0D02, 0x0D03].contains code then false
  else Config.firmwareRaises code

/-- Puts an event that has its sequence into the FIFO, or counts it as lost (R461, R462). DEDUCED: log entry 11. -/
def enqueueEvent (e : Event) (c : Chip) : Chip :=
  let q := c.evq
  let c := if q.ring.enabled then c else signalGroup e.code c
  if (q.ring.enabled && q.ring.full) || 256 ≤ q.fifo.length then
    { c with evq := { q with
        lostTotal := satU 32 (q.lostTotal + 1), lostPending := satU 32 (q.lostPending + 1),
        firstLost := if q.lostPending = 0 then e.sequence else q.firstLost } }
  else { c with evq := { q with fifo := q.fifo ++ [e] } }

/-- The identity a personality reports: part and silicon revision (R559, SYS_ID). -/
def identity (c : Chip) : Nat × Nat := if c.modes.personality = 1 then (0x1212, 0x21) else (0x1640, 0xB0)

/-- The configuration-space identity of a personality (R6, R433). -/
def pciIdentity (c : Chip) : PciIdentity :=
  { vendor := 0x1F6B, device := (identity c).1, revision := (identity c).2, classCode := 0x118000, subsystemVendor := 0x1F6B
    subsystem := (identity c).1, serial := Config.serial % 2 ^ 64 }

/-- The Lodge restarts: its cores are halted for a firmware activation or a lockstep recovery (R25, R474). -/
def lodgeRestarts (c : Chip) : Bool :=
  c.modes.boot == .done && match c.modes.notReady with
    | .activation _ => true
    | .lockstep _ => true
    | .no | .boot _ | .activationPending => false

/-- Raises an event at once, with a journal entry where asked for. Masked events and those the personality does not know are not
raised and take no sequence. DESIGN CHOICE: log entry 10. -/
def raiseNow (journal : Bool) (code sev source : Nat) (payload : List Byte) (c : Chip) : Chip :=
  if !raisesEvents c || !eventEnabled c code sev || (c.modes.personality == 1 && !legacyRaises code) then c
  else
    let (s, n) := clock c
    let e : Event := {
      code, severity := sev, source := source % 128 + 128 * b2n (raisedByFirmware code payload),
      sequence := c.evq.nextSequence, timeS := s, timeNs := n, payload := fit 12 payload }
    let c := { c with evq := { c.evq with nextSequence := wrapU 32 (c.evq.nextSequence + 1) } }
    let c := if journal then journalEvent e c else c
    if c.modes.lockdown && !lockdownCarries code then c else enqueueEvent e c

/-- Raises an event; one that Borusk firmware raises waits for the end of a Lodge restart (R25). DESIGN CHOICE: log entry 194. -/
def raiseWith (journal : Bool) (code sev source : Nat) (payload : List Byte) (c : Chip) : Chip :=
  if lodgeRestarts c && raisedByFirmware code payload then
    { c with evq := { c.evq with waiting := c.evq.waiting ++ [(journal, code, sev, source, payload)] } }
  else raiseNow journal code sev source payload c

/-- The events that waited for the Lodge are raised, oldest first (R25). -/
def raiseWaiting (c : Chip) : Chip :=
  c.evq.waiting.foldl (fun c e => raiseWith e.1 e.2.1 e.2.2.1 e.2.2.2.1 e.2.2.2.2 c) { c with evq := { c.evq with waiting := [] } }

/-- A counter of a given width that stands at an offset of a command's response, at a value: at all ones it sets its sticky bit and
raises EV_COUNTER_SATURATED, once (R549, R550). DEDUCED: log entry 12. -/
def noteSaturated (command offset inst width value : Nat) (c : Chip) : Chip :=
  if value = 2 ^ width - 1 ∧ !(c.saturated.contains (command, offset, inst)) then
    raiseWith false 0x0D09 1 0x7F (le 2 command ++ le 2 offset ++ le 1 inst ++ zeros 7)
      { c with saturated := c.saturated ++ [(command, offset, inst)] }
  else c

/-- Raises an event; severities 3 and 4 and the throttle events go into the life record (R509). -/
def raise (code sev source : Nat) (payload : List Byte) (c : Chip) : Chip :=
  noteSaturated 0x0D03 84 0 32 c.life.totals.entriesDropped
    (raiseWith (3 ≤ sev || code == 0x0D02 || code == 0x0D03) code sev source payload c)

/-- The payload of a rate-limited event with its count laid in. -/
def RateWindow.withCount (w : RateWindow) (n : Nat) : List Byte :=
  if w.countLen = 0 then w.payload else putB w.payload w.countOff (le w.countLen (satU (8 * w.countLen) n))

/-- n occurrences of an event that is raised at most once per second and instance (R596): raised at once where no second
of collection is open, else collected; EV_CAMERA_LINE_LOST and EV_VIEW_DROPPED keep the payload of the first of them (R84, R272). `lessOne` marks a payload that counts suppressed occurrences.
DESIGN CHOICE: log entry 21. -/
def raiseLimited (code sev source instance_ : Nat) (payload : List Byte) (off len : Nat) (lessOne : Bool) (n : Nat) (c : Chip) : Chip :=
  if n = 0 then c
  else if c.rates.any fun w => w.code == code && w.key == instance_ then
    { c with rates := c.rates.map fun w =>
        if w.code == code && w.key == instance_ then
          { w with collected := w.collected + n, payload := if (code = 0x0203 ∨ code = 0x0700) ∧ w.collected ≠ 0 then w.payload else payload, severity := sev, source } else w }
  else
    let w : RateWindow := {
      code, key := instance_, source, severity := sev, until_ := c.now + 1000000000, payload, countOff := off,
      countLen := len, lessOne }
    raise code sev source (w.withCount (if lessOne then n - 1 else n)) { c with rates := c.rates ++ [w] }

/-- The end of a second of collection (R596). DESIGN CHOICE: log entries 21 and 22. -/
def endRateSecond (code instance_ : Nat) (c : Chip) : Chip :=
  match c.rates.find? fun w => w.code == code && w.key == instance_ with
  | none => c
  | some w =>
    let rest := c.rates.filter fun w => !(w.code == code && w.key == instance_)
    if c.now < w.until_ then c
    else if w.collected = 0 then { c with rates := rest }
    else raise code w.severity w.source (w.withCount (if w.lessOne then w.collected - 1 else w.collected))
      { c with rates := rest ++ [{ w with collected := 0, until_ := c.now + 1000000000 }] }

/-! ### Saturating counters (R549) -/

/-- Adds to a saturating counter of a given width that stands at an offset of a command's response: it stops at all ones,
where it sets its sticky bit and raises EV_COUNTER_SATURATED once. DEDUCED: log entry 12. -/
def satAdd (command offset inst width old n : Nat) (c : Chip) : Nat × Chip :=
  let new := satU width (old + n)
  (new, noteSaturated command offset inst width new c)

/-! ### DMA channels (R440, R465) -/

/-- EV_DMA_ERROR (R465). -/
def dmaError (source code detail addr : Nat) (c : Chip) : Chip :=
  raise 0x0701 3 source (le 1 code ++ [0] ++ le 2 detail ++ le 8 addr) c

/-- Whether a channel can be taken by a function: it owns it already, or nothing does and no chain runs on it. -/
def channelFree (c : Chip) (ch fn : Nat) : Bool :=
  let d := vget c.pcie.dma ch
  d.owner == fn || (d.owner == 0 && d.state != .active)

/-- A function takes a channel (R440). -/
def takeChannel (ch fn : Nat) (c : Chip) : Chip :=
  { c with pcie := { c.pcie with dma := vmod c.pcie.dma ch fun d => { d with state := .owned, owner := fn, tail := 0 } } }

/-- A function gives a channel back. -/
def freeChannel (ch : Nat) (c : Chip) : Chip :=
  { c with pcie := { c.pcie with dma := vmod c.pcie.dma ch fun d => { d with state := .idle, owner := 0 } } }

/-- Whether the host link carries requests: not in D3hot (R437), and not in LOCKDOWN (R451). -/
def hostWrites (c : Chip) : Bool := !c.pcie.d3hot && !c.modes.lockdown

/-! ### GP pins (R572, R573) -/

/-- A pin of a bank with a level; the pins of an open bank are in high impedance, neither read nor driven. -/
def gpLive (c : Chip) (pin : Nat) : Bool := decide (pin < 32) && vget c.gp (pin / 16) != .floating

/-- An axis reads a pin as a limit switch. -/
def gpSwitch (c : Chip) (pin : Nat) : Bool := pin != 0xFF && c.axis.toList.any fun x => x.cfg.swNegGpio == pin || x.cfg.swPosGpio == pin

/-- A channel other than k drives a pin as a multiplexer output. -/
def gpMux (c : Chip) (k pin : Nat) : Bool := pin != 0xFF && (List.range 8).any fun i => i != k && (vget c.aux.ch i).muxGpio == pin

/-! ### Modes (R479, R532) -/

/-- Code of a base mode. -/
def Base.code : Base → Nat
  | .standby => 3
  | .configure => 4
  | .calibrate => 5
  | .inspect => 6
  | .relay => 10

/-- A lane the map gives a port. -/
def laneMapped (c : Chip) (l : Nat) : Bool := (vget c.lane l).port.isSome

/-- The lanes mapped, ascending. -/
def mappedLanes (c : Chip) : List Nat := (List.range 16).filter (laneMapped c)

/-- Time degraded (R347): never set since power-up, or the servo is ACQUIRING or HOLDOVER. -/
def timeDegraded (c : Chip) : Bool :=
  !c.time.sun.everSet || c.time.servo.state == .acquiring || c.time.servo.state == .holdover

/-- A mapped lane that delivers no columns: its port is DOWN or FAULT (R72), its lines are withheld, or no engine is bound to
it while lines run (R145, R146). -/
def laneMissing (c : Chip) (l : Nat) : Bool :=
  match (vget c.lane l).port with
  | none => false
  | some p =>
    [PortState.down, .fault].contains (vget c.port p).state || bit c.engines.withheld l ||
    ((vget c.engines.binding l).isNone && [Base.calibrate, .inspect, .relay].contains c.modes.base)

/-- Whether the column intervals of a list reach from a column to the last one, taken in order of their first column. -/
def intervalsCover : List (Nat × Nat) → Nat → Nat → Bool
  | [], next, count => decide (count ≤ next)
  | (a, b) :: xs, next, count => if next < a then decide (count ≤ next) else intervalsCover xs (max next (b + 1)) count

/-- Every output column is produced by a lane that delivers (R72). -/
def columnsCovered (c : Chip) : Bool :=
  let spans := ((mappedLanes c).filter fun l => !laneMissing c l).filterMap fun l => (vget c.corr l).bank.span
  intervalsCover (sortBy (fun x y => decide (x.1 ≤ y.1)) spans) 0 c.trig.geo.columnCount

/-- Coverage lost (R72, R146, R404): a mapped lane delivers no columns and its neighbours do not cover them, or the gang
partition is untriggered. -/
def coverageLost (c : Chip) : Bool :=
  ((mappedLanes c).any (laneMissing c) && !columnsCovered c) || ((c.gang.state == .island || c.gang.state == .rejoining) && c.gang.role == 3)

/-- No spare engine exists (R146), once a self-test has bound the engines; before it SYS_STATUS reads zero. DEDUCED: log entry 65. -/
def noSpare (c : Chip) : Bool := c.engines.spare.isNone && (c.engines.retired != 0 || c.engines.binding.toList.any Option.isSome)

/-- The condition flags of R479. -/
def conditions (c : Chip) : Nat :=
  packBits [coverageLost c, c.seam.toList.any (·.held) || c.gang.seam.held, c.health.level != 0,
    c.gang.state == .island || c.gang.state == .rejoining, noSpare c,
    timeDegraded c, c.dram.ch.toList.any (·.critical), c.supply.unstable,
    c.health.state == .grace]

/-- The primary mode the conditions require (R532). -/
def primaryOf (c : Chip) : Nat :=
  if c.modes.thermalHalt then 11
  else if c.modes.lockdown then 12
  else match c.modes.boot with
    | .recovery => 2
    | .waitPerst | .booting => 1
    | .done =>
      if c.modes.base = .inspect then
        (if c.health.level ≠ 0 then 8 else if bit (conditions c) 3 then 9
         else if bit (conditions c) 0 || bit (conditions c) 1 then 7 else 6)
      else c.modes.base.code

/-- The primary mode as reported. -/
def mode (c : Chip) : Nat := c.modes.primary

/-- Reports the present primary mode and conditions: EV_MODE_CHANGE where the mode or condition bits 0 to 4 differ from the
last report, at severity 4 on entry to THERMAL-HALT or LOCKDOWN (R480, R477). -/
def reportMode (c : Chip) : Chip :=
  let new := primaryOf c
  let cond := conditions c
  let m := c.modes
  if new = m.primary ∧ cond % 32 = m.reportedConditions then c
  else
    let c := { c with modes := { m with
      primary := new, reportedConditions := cond % 32,
      previous := if new = m.primary then m.previous else m.primary, since := if new = m.primary then m.since else c.now } }
    raise 0x0100 (if new ≠ m.primary ∧ (new = 11 ∨ new = 12) then 4 else 1) 0x7F
      (le 1 m.primary ++ le 1 new ++ le 1 c.health.level ++ [0] ++ le 4 cond ++ zeros 4) c

/-- The modes in which triggers run (R534). -/
def triggering (c : Chip) : Bool :=
  (c.modes.base == .calibrate || c.modes.base == .inspect || c.modes.base == .relay) && !c.modes.thermalHalt && !c.modes.lockdown &&
  c.modes.change == .none

/-- INSPECT, DEGRADED, THROTTLED or ISLAND, as reported. -/
def inspecting (c : Chip) : Bool := [6, 7, 8, 9].contains (mode c)

/-- The lane engines, stitching and views run on lines still in the pipeline: base mode CALIBRATE, INSPECT or RELAY. -/
def pipelineRuns (c : Chip) : Bool :=
  (c.modes.base == .calibrate || c.modes.base == .inspect || c.modes.base == .relay) && !c.modes.thermalHalt && !c.modes.lockdown

/-- MAC address of a port (R349). -/
def portMac (c : Chip) (k : Nat) : Nat := if (vget c.time.eth k).mac = 0 then Config.mac k % 2 ^ 48 else (vget c.time.eth k).mac

/-- Addresses of a frame a port sends: its own, its VLAN tag, and those it goes to (R267, R349). -/
def ethTo (c : Chip) (k mac ip udpPort : Nat) : EthAddresses :=
  { srcMac := portMac c k, dstMac := mac, vlan := if (vget c.time.eth k).vlanTagged then some (vget c.time.eth k).vlanTci else none, srcIp := (vget c.time.eth k).ipv4, dstIp := ip, dstPort := udpPort }

/-! ### DRAM channels and the panic of the real-time ports (R416) -/

/-- Changes the DRAM subsystem. -/
def modDram (f : Dram → Dram) (c : Chip) : Chip := { c with dram := f c.dram }

/-- Changes a DRAM channel. -/
def modCh (n : Nat) (f : DramChannel → DramChannel) (c : Chip) : Chip := modDram (fun d => { d with ch := vmod d.ch n f }) c

/-- Whether a real-time port is in panic when so many bytes stand in its staging pool of `size` bytes (R416): above 75 % it enters,
below 50 % it leaves. -/
def panics (was : Bool) (used size : Nat) : Bool := if 3 * size < 4 * used then true else if 2 * used < size then false else was

/-- The panic states of a channel's two real-time ports; each entry is counted, and when panic ends every refresh owed is issued (R416,
R417). DEDUCED: log entry 180. -/
def notePanic (k : Nat) (w b : Bool) (c : Chip) : Chip :=
  let d := vget c.dram.ch k
  let (nw, c) := satAdd 0x0D05 40 k 32 d.panicWriter (b2n (w && !d.writerPanic)) c
  let (nb, c) := satAdd 0x0D05 44 k 32 d.panicBelvedere (b2n (b && !d.belvederePanic)) c
  modCh k (fun d => { d with
    writerPanic := w, belvederePanic := b, panicWriter := nw, panicBelvedere := nb, owed := if w || b then d.owed else Vector.replicate 2 0 }) c

/-- Size of the Orangery's staging pool and of the Belvedere's (R19). -/
abbrev stagingSize : Nat := 8388608
abbrev belvedereSize : Nat := 2097152

/-- The Orangery writer's panic state on every channel follows the bytes in its staging pool. DEDUCED: log entry 180. -/
def writerFill (used : Nat) (c : Chip) : Chip :=
  (List.range 4).foldl (fun c k =>
    let d := vget c.dram.ch k
    notePanic k (panics d.writerPanic used stagingSize) d.belvederePanic c) c

/-- The Belvedere's pool holds so many bytes, and its panic state on every channel follows. DEDUCED: log entry 180. -/
def belvedereFill (used : Nat) (c : Chip) : Chip :=
  (List.range 4).foldl (fun c k =>
    let d := vget c.dram.ch k
    notePanic k d.writerPanic (panics d.belvederePanic used belvedereSize) c) (modDram (fun d => { d with belvedereUsed := used }) c)

end Sys2Proof.Machine
end

