-- ==== Sys2Proof/Machine/Profile.lean ====
section
/-! DEFINITION. An axis in motion (R317, R325): its profile in exact arithmetic at an instant, its position, and its deviation from the
encoder. -/
namespace Sys2Proof.Machine

/-! ### Evaluating a profile (R317, R318) -/

/-- Position, velocity and acceleration, in microsteps and seconds. -/
structure Kin where
  p : Rat
  v : Rat
  a : Rat

/-- The motion after t seconds of constant jerk. -/
def Kin.after (k : Kin) (j t : Rat) : Kin :=
  { p := k.p + k.v * t + k.a * t * t / 2 + j * t * t * t / 6, v := k.v + k.a * t + j * t * t / 2, a := k.a + j * t }

/-- The motion t seconds into a list of segments; at rest after the last. -/
def runSegs : List MotionSeg → Kin → Rat → Kin
  | [], k, _ => { k with v := 0, a := 0 }
  | s :: ss, k, t =>
    let k := { k with a := s.accel.getD k.a }
    if t < s.dur then k.after s.jerk t else runSegs ss (k.after s.jerk s.dur) (t - s.dur)

/-- The motion at the end of segments, before they come to rest. -/
def endSegs : List MotionSeg → Kin → Kin
  | [], k => k
  | s :: ss, k => endSegs ss (({ k with a := s.accel.getD k.a } : Kin).after s.jerk s.dur)

/-- Length of a list of segments in seconds. -/
def segsTime (ss : List MotionSeg) : Rat := ss.foldl (fun t s => t + s.dur) 0

/-- Distance run from a velocity and an acceleration. -/
def segsDist (ss : List MotionSeg) (v a : Rat) : Rat := (endSegs ss { p := 0, v, a }).p

/-! ### The position of an axis, and its deviation -/

/-- The motion of an axis at an instant; at its target once the profile has ended. -/
def Axis.kin (x : Axis) (now : Nat) : Kin :=
  match x.profile with
  | none => { p := x.position, v := 0, a := 0 }
  | some f =>
    let t : Rat := ((now - f.start : Nat) : Rat) / 1000000000
    if segsTime f.segs ≤ t then { p := x.target, v := 0, a := 0 } else runSegs f.segs { p := f.p, v := f.v, a := f.a } t

/-- The profile of an axis has run to its end; so it has where there is none (R318). -/
def Axis.ended (x : Axis) (now : Nat) : Bool :=
  match x.profile with
  | none => true
  | some f => decide (segsTime f.segs ≤ ((now - f.start : Nat) : Rat) / 1000000000)

/-- The position in microsteps: those issued up to the last 4 ns tick, one wherever the exact position crosses an integer (R317). -/
def Axis.pos (x : Axis) (now : Nat) : Int := (x.kin (now / 4 * 4)).p.floor

/-- The velocity as the profile generator last updated it, every 1 µs of a profile (R317). -/
def Axis.velocity (x : Axis) (now : Nat) : Rat := ((x.profile.map fun f => x.kin (f.start + (now - f.start) / 1000 * 1000)).getD (x.kin now)).v

/-- At standstill. -/
def Axis.still (x : Axis) : Bool := x.profile.isNone

/-- The position the encoder of an axis gives, where it has one (R325). -/
def encoderPosition (c : Chip) (x : Axis) : Option Int :=
  if x.cfg.encoder = 0xFF then none
  else some (x.encRef + ((vget c.enc x.cfg.encoder).count - x.countRef) * x.cfg.microstepsPerCount / 65536)

/-- `dev` of R325 at an instant, with the present count of the encoder; 0 without an encoder. -/
def deviationAt (c : Chip) (x : Axis) (t : Nat) : Int := ((encoderPosition c x).map fun e => x.pos t - e).getD 0

/-- `dev` of R325. -/
def deviation (c : Chip) (x : Axis) : Int := deviationAt c x c.now

/-- A count of an encoder is noted for the axes that it measures: when it came, and whether the deviation lay within the window before it
or lies there now (R325). -/
def noteDeviations (ch : Nat) (before after : Chip) : Chip :=
  let inside (c : Chip) (x : Axis) : Bool := decide ((deviation c x).natAbs ≤ x.cfg.devWindow)
  { after with axis := vmapIdx (fun _ x => if x.cfg.encoder ≠ ch then x else
      { x with countAt := after.now, insideAt := if inside before x || inside after x then after.now else x.insideAt }) after.axis }

/-- The deviation has stood beyond its window for the stall time (R325). DEDUCED: log entry 137. -/
def Axis.stalled (c : Chip) (x : Axis) : Bool :=
  let since := c.now - x.cfg.stallTimeUs * 1000
  decide (x.cfg.devWindow < (deviation c x).natAbs) && decide (x.insideAt + x.cfg.stallTimeUs * 1000 ≤ c.now) &&
  (decide (since < x.countAt) || decide (x.cfg.devWindow < (deviationAt c x since).natAbs))

end Sys2Proof.Machine
end

