-- ==== Sys2Proof/Machine/Mailbox.lean ====
section
/-! DEFINITION. The mailbox exchange of chapter 18: the order in which a command is checked (R472), the answer (R468),
the repeat (R469), the audit entry (R473), and how a command row runs on the request its mailbox holds. -/
namespace Sys2Proof.Machine

/-! ### Status codes (R476) -/

abbrev stOk : Nat := 0x00
abbrev stPending : Nat := 0x01
abbrev stBadCmd : Nat := 0x10
abbrev stBadLen : Nat := 0x11
abbrev stBadParam : Nat := 0x12
abbrev stBadState : Nat := 0x13
abbrev stNoPriv : Nat := 0x14
abbrev stBusy : Nat := 0x15
abbrev stNoSpace : Nat := 0x16
abbrev stLate : Nat := 0x17
abbrev stNotFound : Nat := 0x18
abbrev stLocked : Nat := 0x19
abbrev stAuthFail : Nat := 0x1A
abbrev stFuseExhausted : Nat := 0x1B
abbrev stCalUnstable : Nat := 0x1C
abbrev stAborted : Nat := 0x1D
abbrev stTimeout : Nat := 0x1E
abbrev stHwFault : Nat := 0x1F
abbrev stNotReady : Nat := 0x20
abbrev stDataError : Nat := 0x21

/-! ### Checks and replies -/

/-- One check of a request: whether it holds, the status and detail that answer where it does not, and its step in R472. -/
structure Check where
  ok : Bool
  status : Nat
  detail : Nat
  step : Nat := 8
  deriving DecidableEq, Repr

/-- The checks in the order of R472: length, fields, mode and state, the command's own rules. -/
def inOrder (ks : List Check) : List Check :=
  ks.filter (·.step == 5) ++ ks.filter (·.step == 6) ++ ks.filter (·.step == 7) ++ ks.filter (·.step == 8)

/-- The first check of a request that fails, in the order of R472. DEDUCED: log entry 18. -/
def firstFail (ks : List Check) : Option Check := (inOrder ks).find? fun k => !k.ok

/-- What a command does: its answer, or that the answer comes later, and the device after it. -/
structure Reply where
  status : Nat
  detail : Nat := 0
  body : List Byte := []
  /-- The answer comes with a later event; the mailbox stays with the device. -/
  later : Bool := false
  /-- Step 5 or 6 of R472 refused the request. -/
  early : Bool := false
  chip : Chip
  deriving DecidableEq, Repr

/-- A reply with a status alone. -/
def reply (status : Nat) (c : Chip) : Reply := { status, chip := c }

/-- A reply ST_OK with a body. -/
def replyBody (body : List Byte) (c : Chip) : Reply := { status := stOk, body, chip := c }

/-- No answer yet. -/
def replyLater (c : Chip) : Reply := { status := stOk, later := true, chip := c }

/-- The checks, then the effect: the device is unchanged where a check fails. DEDUCED: log entry 18. -/
def checked (ks : List Check) (c : Chip) (effect : Reply) : Reply :=
  match firstFail ks with
  | some k => { status := k.status, detail := k.detail, early := decide (k.step < 7), chip := c }
  | none => effect

/-- `length` must be n. -/
def lenIs (n : Nat) (j : Job) : Check := ⟨j.payload.length == n, stBadLen, n, 5⟩

/-- A length that varies. -/
def lenOk (ok : Bool) : Check := ⟨ok, stBadLen, 0, 5⟩

/-- A field at an offset. DEDUCED: log entry 18. -/
def param (off : Nat) (ok : Bool) : Check := ⟨ok, stBadParam, off, 6⟩

/-- A rule between fields. DEDUCED: log entry 18. -/
def crossRule (ok : Bool) : Check := ⟨ok, stBadParam, 0xFFFF, 8⟩

/-- A field judged by a rule of the command's own. DEDUCED: log entry 18. -/
def ownParam (off : Nat) (ok : Bool) : Check := ⟨ok, stBadParam, off, 8⟩

/-- The mode or state of the device. -/
def stateRule (c : Chip) (ok : Bool) : Check := ⟨ok, stBadState, mode c, 7⟩

/-- A rule of the command's own with a status of its own. -/
def ownRule (status : Nat) (ok : Bool) : Check := ⟨ok, status, 0, 8⟩

/-- A reserved field of n bytes must be zero (R11). -/
def reserved (p : List Byte) (off n : Nat) : Check := param off (rd p off n == 0)

/-- A field of n bytes lies between two bounds. -/
def inRange (p : List Byte) (off n lo hi : Nat) : Check := param off (decide (lo ≤ rd p off n) && decide (rd p off n ≤ hi))

/-- A signed field of n bytes lies between two bounds. -/
def inRangeS (p : List Byte) (off n : Nat) (lo hi : Int) : Check :=
  param off (decide (lo ≤ rdS p off n) && decide (rdS p off n ≤ hi))

/-! ### The command index (R478, R471, R594) -/

/-- Class of a native command by its code: 0 OBSERVE, 1 OPERATE, 2 INTEGRATE; none for a code the set lacks. -/
def baseClass (code : Nat) : Option Nat :=
  if [0x0301, 0x0202, 0x0204, 0x0206, 0x0402, 0x0804, 0x0901, 0x0603, 0x0B04, 0x0A00, 0x0A03, 0x0C04, 0x0F01, 0x0D05,
      0x0D00, 0x0D03, 0x0E00, 0x0E01, 0x0E03, 0x0100, 0x0101, 0x0103, 0x0705].contains code then some 0
  else if [0x0300, 0x0302, 0x0303, 0x0304, 0x0200, 0x0201, 0x0203, 0x0205, 0x0207, 0x0400, 0x0401, 0x0500, 0x0501, 0x0502,
      0x0503, 0x0504, 0x0700, 0x0701, 0x0505, 0x0508, 0x0506, 0x0507, 0x0800, 0x0801, 0x0802, 0x0803, 0x0702, 0x0703,
      0x0704, 0x0900, 0x0902, 0x0600, 0x0601, 0x0602, 0x0B00, 0x0B01, 0x0B03, 0x0B02, 0x0B05, 0x0A01, 0x0A02, 0x0A04,
      0x0A06, 0x0A07, 0x0A05, 0x0C00, 0x0C03, 0x0404, 0x0C01, 0x0C02, 0x0107, 0x0108, 0x0D02, 0x0102, 0x0104, 0x0109,
      0x0403].contains code then some 1
  else if [0x0F00, 0x0D01, 0x0D04, 0x0E02, 0x0E04, 0x0E05, 0x0E06, 0x0105, 0x0106, 0x010A].contains code then some 2
  else none

/-- Native command of a legacy code (R559); none for a code the table does not list. -/
def legacyNative (code : Nat) : Option Nat :=
  ([(0x80, 0x0100), (0x81, 0x0102), (0x82, 0x0103), (0x83, 0x0104), (0x84, 0x0200), (0x85, 0x0202), (0x86, 0x0203),
    (0x87, 0x0201), (0x88, 0x0205), (0x89, 0x0206), (0x8A, 0x0300), (0x8B, 0x0301), (0x8C, 0x0302), (0x8D, 0x0303),
    (0x8E, 0x0304), (0x90, 0x0500), (0x91, 0x0501), (0x92, 0x0502), (0x93, 0x0503), (0x94, 0x0504), (0x95, 0x0505),
    (0x96, 0x0506), (0x97, 0x0507), (0x98, 0x0508), (0xA0, 0x0700), (0xA1, 0x0701), (0xA2, 0x0107), (0xA3, 0x0705),
    (0xA4, 0x0108), (0xA8, 0x0900), (0xA9, 0x0901), (0xAA, 0x0902), (0xB0, 0x0A00), (0xB1, 0x0A01), (0xB2, 0x0A02),
    (0xB3, 0x0A03), (0xB8, 0x0400), (0xB9, 0x0401), (0xBA, 0x0402)].find? fun x => x.1 == code).map (·.2)

/-- A legacy setting command (R560). -/
def legacySetting (code : Nat) : Bool := code == 0x8D || code == 0x8E || (0x90 ≤ code && code ≤ 0x98)

/-- Native codes MB0 serves in the PW1212 personality (R557). -/
def legacyServesNative (code : Nat) : Bool :=
  [0x0100, 0x0105, 0x0106, 0x0E00, 0x0E01, 0x0E03, 0x0E02, 0x0D00, 0x0D03].contains code

/-- Commands answered in LOCKDOWN (R472). -/
def lockdownServes (code : Nat) : Bool := [0x0E06, 0x0D00, 0x0D03].contains code

/-- Commands answered in THERMAL-HALT (R500). -/
def haltServes (code : Nat) : Bool := [0x0100, 0x0103, 0x0D00, 0x0D03].contains code

/-- Commands the boot ROM accepts on MB0 in RECOVERY (R475). -/
def recoveryServes (code : Nat) (p : List Byte) : Bool :=
  [0x0100, 0x0106, 0x0E00, 0x0E01].contains code || (code == 0x0105 && rd p 0 1 == 1)

/-- Slot 0 holds a key of the fused generation (R522). -/
def integratorKey (c : Chip) : Option (List Byte) :=
  if c.sec.keyGeneration = (vget c.sec.fuses 2).fused ∧ c.sec.keyGeneration ≠ 0 ∧ !c.sec.sealed_ then vget c.sec.keys 0 else none

/-- The class a request requires (R471, R594, and the flags that raise it). -/
def requiredClass (c : Chip) (code : Nat) (p : List Byte) : Nat :=
  match code with
  | 0x0301 => if 2 ≤ p.length && bit (rd p 1 1) 0 then 1 else 0
  | 0x0204 => if 2 ≤ p.length && bit (rd p 1 1) 0 then 1 else 0
  | 0x0402 => if bit (rd p 8 1) 0 then 1 else 0
  | 0x0D00 => if bit (rd p 0 1) 0 then 1 else 0
  | 0x0E02 =>
    if p.length = 0 then 2
    else match rd p 0 1 with
      | 2 => if (vget c.sec.fuses 2).fused = 0 then 1 else if (integratorKey c).isSome then 2 else 3
      | 4 => 3
      | _ => 2
  | 0x0E06 => if rd p 0 1 = 1 then rd p 1 1 else 0
  | _ => (baseClass code).getD 0

/-- The class granted to a mailbox (R471). -/
def granted (c : Chip) (mb : Nat) : Nat :=
  match vget c.sec.sessions mb with
  | some x => max x.cls (if mb = 0 then 0 else 1)
  | none => if mb = 0 then 0 else 1

/-- Whether step 4 of R472 passes: the class claimed is granted and is enough; for SEC.UNLOCK action 1 it is the class the
proof must establish (R594). -/
def privilegeOk (c : Chip) (mb code claimed : Nat) (p : List Byte) : Bool :=
  if code = 0x0E06 ∧ rd p 0 1 = 1 then (rd p 1 1 == 2 || rd p 1 1 == 3) && claimed == rd p 1 1
  else decide (claimed ≤ granted c mb) && decide (requiredClass c code p ≤ claimed)

/-- Whether a command that passes steps 1 to 3 makes an audit entry (R473, R594). -/
def auditNeeded (c : Chip) (code : Nat) (p : List Byte) : Bool :=
  decide (2 ≤ requiredClass c code p) || code == 0x0E02 || (code == 0x0E06 && rd p 0 1 == 1)

/-! ### Answering (R468, R469) -/

/-- Adds an audit entry to the queue (R473). -/
def audit (mb status : Nat) (j : Job) (c : Chip) : Chip :=
  let e : AuditEntry := {
    timeS := j.doorbellS, timeNs := j.doorbellNs, command := j.rawCode, cls := j.cls, mailbox := mb, status,
    digest := crc32 j.payload }
  let (n, c) := satAdd 0x0D03 52 0 32 c.life.totals.auditEntries 1 c
  { c with
    mbx := { c.mbx with audit := c.mbx.audit ++ [e] }
    life := { c.life with totals := { c.life.totals with auditEntries := n } } }

/-- The mailbox memory after an answer: payload, then header, then `owner` (R466, R468). -/
def answerBytes (m : Mailbox) (sequence command status cls flags detail tag s ns : Nat) (body : List Byte) : List Byte :=
  putB (fit 4096 m.bytes) 0
    (le 2 sequence ++ le 2 command ++ le 2 body.length ++ le 2 status ++ le 1 cls ++ [0] ++ le 1 flags ++ [0] ++
     le 2 detail ++ [0, 0] ++ le 4 tag ++ timeBytes s ns ++ zeros 34 ++ body)

/-- Writes an answer into a mailbox, returns it to the host, sets its response bit and signals vector 0. -/
def answer (mb : Nat) (bytes : List Byte) (c : Chip) : Chip :=
  let c := { c with mbx := { c.mbx with
    mb := vmod c.mbx.mb mb fun m => { m with bytes, owner := false, job := none }
    response := setBit c.mbx.response mb true } }
  signalVector 0 c

/-- Status as the personality reports it (R561). -/
def reportedStatus (legacy : Bool) (status detail : Nat) : Nat × Nat :=
  if legacy && status == stNotReady then (stBusy, detail)
  else if legacy && status == stDataError then (stAborted, 0) else (status, detail)

/-- A command with such an answer counts as executed (R469). -/
def executes (status : Nat) : Bool := status != stNotReady && status != stBadCmd && status != stLocked

/-- The 4 096 bytes with the answer of a command of a mailbox, and the device once it is recorded: in the audit queue, and as the copy for
a repeat where the command counts as executed (R469, R473). -/
def recordAnswer (mb : Nat) (m : Mailbox) (j : Job) (status detail : Nat) (body : List Byte) (c : Chip) : List Byte × Chip :=
  let (st, d) := reportedStatus (j.rawCode != j.code) status detail
  let (s, ns) := clock c
  let bytes := answerBytes m j.sequence j.rawCode st j.cls (if j.audited then 2 else 0) d j.tag s ns body
  let c := if j.audited then audit mb st j c else c
  (bytes, if executes status then
    { c with mbx := { c.mbx with mb := vmod c.mbx.mb mb fun m => { m with lastSequence := some j.sequence, kept := bytes.take (64 + body.length) } } }
  else c)

/-- A command that outlived a host-interface reset ends: its answer is discarded (R436), its recorded answer and its audit
entry stay. DEDUCED: log entry 16. -/
def endOrphan (mb status detail : Nat) (body : List Byte) (j : Job) (c : Chip) : Chip :=
  let c := (recordAnswer mb { vget c.mbx.mb mb with bytes := [] } j status detail body c).2
  { c with mbx := { c.mbx with mb := vmod c.mbx.mb mb fun m => { m with orphan := none } } }

/-- Writes the answer of the command a mailbox holds. The answer of an executed command is kept for a repeat; numbers from 8 stand for
the commands that outlived a host-interface reset. DEDUCED: log entries 9 and 16. -/
def respondNow (mb status detail : Nat) (body : List Byte) (c : Chip) : Chip :=
  if 8 ≤ mb then
    match (vget c.mbx.mb (mb - 8)).orphan with
    | none => c
    | some j => endOrphan (mb - 8) status detail body j c
  else match (vget c.mbx.mb mb).job with
    | none => c
    | some j =>
      let (bytes, c) := recordAnswer mb (vget c.mbx.mb mb) j status detail body c
      answer mb bytes c

/-- Answers the command a mailbox holds: during a Lodge restart the answer waits for its end (R25). -/
def respond (mb status detail : Nat) (body : List Byte) (c : Chip) : Chip :=
  if lodgeRestarts c then { c with mbx := { c.mbx with waiting := c.mbx.waiting ++ [(mb, status, detail, body)] } }
  else respondNow mb status detail body c

/-- Writes the answers that waited for the Lodge, oldest first (R25). -/
def respondWaiting (c : Chip) : Chip :=
  c.mbx.waiting.foldl (fun c a => respondNow a.1 a.2.1 a.2.2.1 a.2.2.2 c) { c with mbx := { c.mbx with waiting := [] } }

/-- Answers from the hardware responder or before a command is handed to the Lodge: nothing is kept, unless the command
counts as executed (R469). DEDUCED: log entry 17. -/
def refuseDoorbell (mb status detail : Nat) (executed : Bool) (audited : Option Job) (c : Chip) : Chip :=
  let m := vget c.mbx.mb mb
  let code := rd m.bytes 2 2
  let (st, d) := reportedStatus (c.modes.personality == 1 && decide (0x80 ≤ code) && decide (code ≤ 0xBF)) status detail
  let (s, ns) := clock c
  let bytes := answerBytes m (rd m.bytes 0 2) code st (rd m.bytes 8 1) (if audited.isSome then 2 else 0) d (rd m.bytes 16 4) s ns []
  let c := match audited with
    | some j => audit mb st j c
    | none => c
  let c := if executed then { c with mbx := { c.mbx with mb := vmod c.mbx.mb mb fun m =>
      { m with lastSequence := some (rd m.bytes 0 2), kept := bytes.take 64 } } } else c
  answer mb bytes c

/-! ### Running a command row -/

/-- What a command sees besides the device: where its answer goes, a mailbox, or 8 more for one whose answer is discarded (R436), and
the bulk window. -/
structure Env where
  mb : Nat
  bulk : Mem

/-- Gives a reply to its mailbox: the answer, or the mark that it is still to come. DEDUCED: log entry 9. -/
def finish (mb : Nat) (r : Reply) : Chip :=
  if r.later then { r.chip with mbx := { r.chip.mbx with mb := vmod r.chip.mbx.mb mb fun m =>
    { m with job := m.job.map fun j => { j with waiting := true } } } }
  else respond mb r.status r.detail r.body r.chip

/-- Ends a command that outlived a host-interface reset, or marks that its outcome is still to come. DEDUCED: log entry 16. -/
def finishOrphan (mb : Nat) (j : Job) (r : Reply) : Chip :=
  if r.later then { r.chip with mbx := { r.chip.mbx with mb := vmod r.chip.mbx.mb mb fun m => { m with orphan := some { j with waiting := true } } } }
  else endOrphan mb r.status r.detail r.body j r.chip

/-- The device refuses a command in its present mode whatever else holds: THERMAL-HALT (R500), or RECOVERY (R475). -/
def modeRefuses (c : Chip) (j : Job) : Bool :=
  (c.modes.thermalHalt && !haltServes j.code) || (c.modes.boot == .recovery && !recoveryServes j.code j.payload)

/-- A command under what R472 asks of every request: a reserved field of the header that is not zero is refused after the
length (R11; the detail is its offset in the header. DEDUCED: log entry 18), and where the mode refuses the command
(R475, R500), a request whose length and fields pass is answered ST_BAD_STATE. Neither has an effect. -/
def underMode (f : Job → Chip → Reply) (j : Job) (c : Chip) : Reply :=
  let r := f j c
  if j.headerFault.isSome && r.status != stBadLen then { status := stBadParam, detail := j.headerFault.getD 0, early := true, chip := c }
  else if modeRefuses c j && !r.early then { status := stBadState, detail := mode c, chip := c } else r

/-- The Lodge can run a command: not while it restarts (R25, R474). -/
def lodgeServes (c : Chip) : Bool :=
  !c.modes.lodgeFailed && match c.modes.notReady with
    | .activation _ => false
    | .lockstep _ => false
    | .no => true
    | .boot _ => true
    | .activationPending => true

/-- What a command acts on, as far as doorbell order goes: the commands of one chapter share a resource, and SYS.FW_STAGE, which waits on
the flash, has its own (R470). DEDUCED: log entry 261. -/
def Job.resource (j : Job) : Nat := if j.code = 0x0105 then 0x0105 else j.code / 256

/-- No command of another mailbox on the same resource is due before this one: such commands take effect in doorbell order; one that waits
on a camera delays none (R470). DEDUCED: log entry 261. -/
def inTurn (c : Chip) (j : Job) : Bool :=
  c.mbx.mb.toList.all fun m => match m.job with
    | none => true
    | some x => x.waiting || x.resource != j.resource || decide (j.order ≤ x.order)

/-- Runs a command on the request a mailbox holds where the request passes a test and its turn has come: the request of the mailbox, or
else one that outlived a host-interface reset; nothing otherwise. DEDUCED: log entry 9. -/
def runJob (test : Job → Bool) (mb : Nat) (f : Nat → Job → Chip → Reply) (c : Chip) : Chip :=
  let m := vget c.mbx.mb mb
  if !lodgeServes c then c
  else match m.job.filter fun j => test j && !j.waiting with
  | some j => if inTurn c j then finish mb (underMode (f mb) j c) else c
  | none =>
    match m.orphan.filter fun j => test j && !j.waiting with
    | some j => finishOrphan mb j (underMode (f (mb + 8)) j c)
    | none => c

/-- The row of a native command: it runs the request the mailbox holds when that request has the row's code, and does
nothing otherwise. DEDUCED: log entry 9. -/
def State.command (s : State) (code t : Nat) (mb : Fin 8) (f : Env → Job → Chip → Reply) : State :=
  s.run t fun s0 c => runJob (fun j => j.code == code && j.rawCode == code) mb (fun who => f ⟨who, s0.bulk⟩) c

end Sys2Proof.Machine
end

