-- ==== Sys2Proof/Machine/Ecc.lean ====
section
/-! DEFINITION. DRAM reads with errors: decoded, corrected or uncorrectable, counted, logged and raised (R425, R428 to R432). -/
namespace Sys2Proof.Machine

/-! ### The code (R428) -/

/-- What the decoder makes of a code word: no error, an error it takes for one symbol's, or an uncorrectable one. -/
inductive EccOutcome where
  | clean
  | corrected (symbol : Nat)
  | uncorrectable
  deriving DecidableEq, Repr

/-- The decoder of R428, given the error in each of the ten symbols: one symbol in error is corrected whatever it holds; errors in
several are uncorrectable unless the decoder finds a single-symbol solution, which it then takes. Which patterns have one is a
matter of the check symbols, for which the spec gives no polynomial. DESIGN CHOICE: log entry 260. -/
def eccDecode (symbols : List Nat) (solution : Option Nat) : EccOutcome :=
  match (List.range 10).filter fun i => symbols.getD i 0 % 256 != 0 with
  | [] => .clean
  | [i] => .corrected i
  | _ => match solution with
    | some i => .corrected i
    | none => .uncorrectable

/-- What a read with errors comes to. -/
def outcomeOf (e : ReadError) : EccOutcome := eccDecode e.symbols (e.solution.map (·.val))

/-- The read is uncorrectable. -/
def readFails (e : ReadError) : Bool := outcomeOf e == .uncorrectable

/-! ### Corrections (R425, R429, R431) -/

/-- Adds an entry to the error log, which keeps the newest 32. -/
def dramLog (ch kind device reader extent : Nat) (c : Chip) : Chip :=
  let (s, n) := clock c
  modDram (fun d => { d with log := (({ timeS := s, timeNs := n, channel := ch, kind, device, reader, extent } : DramLog) :: d.log).take 32 }) c

/-- Asks for a full retrain of a byte lane, unless one is under way or waits already (R425). -/
def DramChannel.request (l cause : Nat) (d : DramChannel) : DramChannel :=
  if d.training.any (fun r => r.lane == l) || d.queue.any (fun q => q.1 == l) then d else { d with queue := d.queue ++ [(l, cause)] }

/-- Byte lane of a device position: two x4 devices each, over both subchannels; the second rank shares them. DEDUCED: log entry 182. -/
def deviceLane (device : Nat) : Nat := device % 20 / 2

/-- One correction at a device position: counted over 24 h, marking the device failed past 256; more than 64 within 1 s on a byte
lane ask for its retrain. A second failed device of a rank and subchannel makes the channel critical. DEDUCED: log entry 182. -/
def correctOne (k device : Nat) (c : Chip) : Chip :=
  let d := vget c.dram.ch k
  let day := d.corrections.filter fun (x : Nat × Nat) => decide (c.now < x.2 + 86400000000000) &&
    (!bit d.failedDevices x.1 || decide (c.now < x.2 + 1000000000))
  let all := day ++ [(device, c.now)]
  let fails := !bit d.failedDevices device && decide (256 < (all.filter fun (x : Nat × Nat) => x.1 == device).length)
  let failed := if fails then setBit d.failedDevices device true else d.failedDevices
  let group := device / 10
  let critical := d.critical || decide (2 ≤ ((List.range 10).filter fun i => bit failed (10 * group + i)).length)
  let burst := (all.filter fun (x : Nat × Nat) => deviceLane x.1 == deviceLane device && decide (c.now < x.2 + 1000000000)).length
  let (n, c) := satAdd 0x0D05 16 k 32 d.corrected 1 c
  let (m, c) := satAdd 0x0D03 36 0 32 c.life.totals.eccCorrected 1 c
  let c := { c with life := { c.life with totals := { c.life.totals with eccCorrected := m } } }
  let c := modCh k (fun d =>
    let d := { d with corrected := n, corrections := all, failedDevices := failed, critical }
    if 64 < burst then d.request (deviceLane device) 1 else d) c
  if fails then dramLog k 1 device 5 0xFFFF c else c

/-- A corrected read: one correction, reported at most once per second and channel (R431). -/
def correctedRead (k device row : Nat) (c : Chip) : Chip :=
  raiseLimited 0x0D06 1 k k ([0] ++ le 1 k ++ le 1 device ++ [0] ++ le 4 0 ++ le 4 row) 4 4 false 1 (correctOne k device c)

/-! ### Uncorrectable reads (R430) -/

/-- Row of the table "Uncorrectable reads" that a hit belongs to; 5 for the patrol scrub. DEDUCED: log entry 186. -/
def readerOf (patrol : Bool) : DramHit → Nat
  | .block _ _ => if patrol then 5 else 0
  | .entry _ => if patrol then 5 else 1
  | .rows => if patrol then 5 else 2
  | .model => if patrol then 5 else 3
  | .area => if patrol then 5 else 4

/-- What an uncorrectable read does to what it struck: the block, or the lines of the entries, are missing from then on,
and a block that has failed counts in `blocks_lost` (R278). DEDUCED: log entry 186. -/
def strike (h : DramHit) (c : Chip) : Chip :=
  match h with
  | .block l n =>
    let hit (b : Block) : Bool := b.lane == l && b.span == n
    let (lost, c) := satAdd 0x0804 44 0 32 c.orangery.blocksLost (c.orangery.blocks.filter fun b => hit b && !b.damaged).length c
    { c with orangery := { c.orangery with
        blocksLost := lost, blocks := c.orangery.blocks.map fun b => if hit b then { b with damaged := true } else b } }
  | .entry n => { c with orangery := { c.orangery with index := c.orangery.index.filter fun i => i.tag.number != n } }
  | .rows | .model | .area => c

/-- An uncorrectable read (R430): counted on its channel and in the life record, logged, and raised each time; its errors are in no one
device. -/
def uncorrectable (patrol : Bool) (extent : Nat) (e : ReadError) (c : Chip) : Chip :=
  let k := e.ch.val
  let reader := readerOf patrol e.hit
  let (n, c) := satAdd 0x0D05 20 k 32 (vget c.dram.ch k).uncorrected 1 c
  let c := modCh k (fun d => { d with uncorrected := n }) c
  let (n, c) := satAdd 0x0D03 40 0 32 c.life.totals.eccUncorrected 1 c
  let c := { c with life := { c.life with totals := { c.life.totals with eccUncorrected := n } } }
  let c := strike e.hit (dramLog k 0 0xFF reader extent c)
  raise 0x0D07 3 k ([0] ++ le 1 k ++ [0xFF] ++ le 1 reader ++ le 8 e.location) c

/-- A read with errors takes place (R428 to R430). -/
def takeRead (patrol : Bool) (extent : Nat) (e : ReadError) (c : Chip) : Chip :=
  match outcomeOf e with
  | .clean => c
  | .corrected i => correctedRead e.ch (10 * e.group + i) e.row c
  | .uncorrectable => uncorrectable patrol extent e c

/-- Reads with errors, in order, by a reader other than the patrol scrub. -/
def takeReads (errors : List ReadError) (c : Chip) : Chip := errors.foldl (fun c e => takeRead false 0xFFFF e c) c

/-- A command that reads the Lodge, Ledger or calibration area: where that read is uncorrectable, a command that would go ahead returns
ST_HW_FAULT and does nothing more, and the area is rewritten (R430). -/
def withArea (error : Option ReadError) (f : Env → Job → Chip → Reply) (env : Env) (j : Job) (c : Chip) : Reply :=
  match error with
  | none => f env j c
  | some e =>
    if (f env j c).status ≠ stOk ∧ (f env j c).status ≠ stPending then f env j c
    else
      let c := takeRead false 0xFFFF { e with hit := .area } c
      if readFails e then reply stHwFault c else f env j c

end Sys2Proof.Machine
end

