-- ==== Sys2Proof/Machine/Binary32.lean ====
section
/-! DEFINITION. IEEE 754 binary32 as the record and the Abacus use it (R196, R218, R219): exact rational values rounded once,
to nearest even; square roots and arc tangents to far more bits than a rounding can need. -/
namespace Sys2Proof.Machine

/-- A binary32 value that is a number: finite or infinite. -/
inductive F32 where
  | fin (q : Rat)
  | inf (negative : Bool)
  deriving DecidableEq, Repr

/-- Two to an integer power. -/
def pow2 (k : Int) : Rat := if 0 ≤ k then (2 ^ k.toNat : Nat) else 1 / (2 ^ (-k).toNat : Nat)

/-- A non-negative rational rounded to a whole number, halves to even. -/
def roundEven (q : Rat) : Nat :=
  let n := q.num.toNat
  let d := q.den
  let f := n / d
  let r := 2 * (n % d)
  if r < d then f else if d < r then f + 1 else if f % 2 = 0 then f else f + 1

/-- The exponent e with 2^e ≤ q < 2^(e+1) of a positive rational. -/
def log2Floor (q : Rat) : Int :=
  let e : Int := (Nat.log2 q.num.toNat : Int) - Nat.log2 q.den
  if q < pow2 e then e - 1 else e

/-- Exponent of the last place of binary32 at a positive rational. -/
def lastPlace (q : Rat) : Int := max (log2Floor q) (-126) - 23

/-- Rounds an exact value to binary32, nearest even; values beyond the range give an infinity. -/
def F32.round (q : Rat) : F32 :=
  if q = 0 then .fin 0
  else
    let a := if q < 0 then -q else q
    let u := lastPlace a
    let v : Rat := (roundEven (a * pow2 (-u)) : Nat) * pow2 u
    if pow2 128 ≤ v then .inf (decide (q < 0)) else .fin (if q < 0 then -v else v)

/-- The 32 bits of a binary32 value. -/
def F32.bits : F32 → Nat
  | .inf n => b2n n * 2 ^ 31 + 0x7F800000
  | .fin q =>
    if q = 0 then 0
    else
      let a := if q < 0 then -q else q
      let u := lastPlace a
      let m := (a * pow2 (-u)).num.toNat
      b2n (decide (q < 0)) * 2 ^ 31 + (if m < 2 ^ 23 then m else (u + 23 + 127).toNat * 2 ^ 23 + (m - 2 ^ 23))

/-- The value of 32 bits; every word whose exponent is all ones reads as an infinity. -/
def F32.ofBits (w : Nat) : F32 :=
  let e := Machine.bits w 23 8
  let m := w % 2 ^ 23
  let neg := bit w 31
  if e = 255 then .inf neg
  else
    let v : Rat := if e = 0 then (m : Nat) * pow2 (-149) else (2 ^ 23 + m : Nat) * pow2 ((e : Int) - 150)
    .fin (if neg then -v else v)

/-- A word that is no number: exponent all ones and a fraction. -/
def isNan (w : Nat) : Bool := bits w 23 8 == 255 && w % 2 ^ 23 != 0

/-- The order of IEEE 754 among numbers. -/
def F32.lt : F32 → F32 → Bool
  | .fin a, .fin b => decide (a < b)
  | .inf n, .fin _ => n
  | .fin _, .inf n => !n
  | .inf a, .inf b => a && !b

/-- The value of an operation with no number as its result (log entry 6). DESIGN CHOICE: log entry 91. -/
def F32.none_ (op : Nat) (a b : F32) : F32 := .ofBits (Config.noNumber op a.bits b.bits)

/-- The value is negative. -/
def F32.neg? : F32 → Bool
  | .fin a => decide (a < 0)
  | .inf n => n

/-- Sum, rounded. -/
def F32.add : F32 → F32 → F32
  | .fin a, .fin b => .round (a + b)
  | .inf n, .fin _ => .inf n
  | .fin _, .inf n => .inf n
  | .inf a, .inf b => if a = b then .inf a else .none_ 0 (.inf a) (.inf b)

/-- The opposite. -/
def F32.opp : F32 → F32
  | .fin a => .fin (-a)
  | .inf n => .inf !n

/-- Difference, rounded. -/
def F32.sub (a b : F32) : F32 :=
  match a, b with
  | .inf x, .inf y => if x = y then .none_ 1 a b else .inf x
  | _, _ => a.add b.opp

/-- Product, rounded. -/
def F32.mul (a b : F32) : F32 :=
  match a, b with
  | .fin x, .fin y => .round (x * y)
  | _, _ => if a = .fin 0 ∨ b = .fin 0 then .none_ 2 a b else .inf (a.neg? != b.neg?)

/-- Quotient, rounded; 0 where the divisor is 0 (R219). -/
def F32.div (a b : F32) : F32 :=
  match a, b with
  | .fin x, .fin y => if y = 0 then .fin 0 else .round (x / y)
  | .inf n, .fin y => if y = 0 then .fin 0 else .inf (n != decide (y < 0))
  | .fin _, .inf _ => .fin 0
  | .inf _, .inf _ => .none_ 3 a b

/-! ### Square root and arc tangent -/

/-- Bits kept after the binary point. -/
abbrev fracBits : Nat := 512

/-- The square root of a non-negative rational: exact where it is rational, else below it by less than 2^-512. DESIGN CHOICE: log entry 91. -/
def ratSqrt (q : Rat) : Rat :=
  let n := q.num.toNat * q.den * 4 ^ fracBits
  (isqrtFrom n (Nat.log2 n / 2 + 2) 0 : Nat) / ((q.den * 2 ^ fracBits : Nat) : Rat)

/-- tan of half the angle whose tangent is t / 2^512. -/
def halfTan (t : Nat) : Nat :=
  let one := 2 ^ fracBits
  let r := isqrtFrom (one * one + t * t) (fracBits + 2) 0
  t * one / (one + r)

/-- The series of the arc tangent from term k on: `p` is the power of t that the term has. -/
def atanSeries (t2 : Nat) : Nat → Nat → Nat → Int
  | 0, _, _ => 0
  | n + 1, k, p => (if k % 2 = 0 then ((p / (2 * k + 1) : Nat) : Int) else -((p / (2 * k + 1) : Nat) : Int)) + atanSeries t2 n (k + 1) (p * t2 / 2 ^ fracBits)

/-- The arc tangent of t / 2^512, from 0 to 1, in units of 2^-512. -/
def atanFixed (t : Nat) : Int :=
  let u := halfTan (halfTan (halfTan t))
  8 * atanSeries (u * u / 2 ^ fracBits) 80 0 u

/-- atan2(y, x) in degrees, 0 where both are 0. DESIGN CHOICE: log entry 91. -/
def atan2Degrees (y x : Rat) : Rat :=
  let ay := if y < 0 then -y else y
  let ax := if x < 0 then -x else x
  let first : Rat :=
    if ay = 0 then 0
    else if ax = 0 then 90
    else if ax = ay then 45
    else
      let t := if ay < ax then ay / ax else ax / ay
      let d : Rat := 45 * (atanFixed (t.num.toNat * 2 ^ fracBits / t.den) : Rat) / (atanFixed (2 ^ fracBits) : Rat)
      if ay < ax then d else 90 - d
  let half := if x < 0 then 180 - first else first
  if y < 0 then -half else half

end Sys2Proof.Machine
end

