-- ==== Sys2Proof/Machine/Tally.lean ====
section
/-! DEFINITION. The Tally coder of chapter 10 (R273 to R283): the block, its residuals, the dictionary code, the encoder and
the decoder with its errors. -/
namespace Sys2Proof.Machine

/-! ### Codes of a decoding error (R278, R291) -/

abbrev errHeader : Nat := 1
abbrev errBlockType : Nat := 2
abbrev errHuffTable : Nat := 3
abbrev errBadCode : Nat := 4
abbrev errTooFar : Nat := 5
abbrev errOverrun : Nat := 6
abbrev errTruncated : Nat := 7
abbrev errChecksum : Nat := 8

/-! ### Encoding (R273 to R276) -/

/-- The invalid runs of a line: line, first column, pixel count (R273). -/
def invalidRuns (line : Nat) : List (Option Nat) → Nat → Option Nat → List (Nat × Nat × Nat)
  | [], _, none => []
  | [], i, some a => [(line, a, i - a)]
  | p :: ps, i, none => invalidRuns line ps (i + 1) (if p.isNone then some i else none)
  | p :: ps, i, some a => if p.isNone then invalidRuns line ps (i + 1) (some a) else (line, a, i - a) :: invalidRuns line ps (i + 1) none

/-- Zig-zag of a residual (R274). -/
def zigzag (r : Int) : Nat := if 0 ≤ r then (2 * r).toNat else (-2 * r - 1).toNat

/-- The residual bytes of a line (R274). -/
def residuals (pred : Int) : List Nat → List Nat
  | [] => []
  | x :: xs =>
    let z := zigzag ((x : Int) - pred)
    (if z < 255 then [z] else [255, z % 256, z / 256 % 256]) ++ residuals x xs

/-- Half scale at a depth. -/
def halfScale (depth : Nat) : Nat := if depth = 8 then 128 else 2048

/-- The codes of a byte stream after the first byte (R275): `s` is the code of the string so far, `dict` the strings added, as
(code of the prefix, last byte). -/
def dictCodes : Nat → List (Nat × Nat) → List Nat → List Nat
  | s, _, [] => [s, 257]
  | s, dict, b :: bs =>
    match dict.findIdx? fun e => e == (s, b) with
    | some i => dictCodes (258 + i) dict bs
    | none => if dict.length + 1 = 3838 then s :: 256 :: dictCodes b [] bs else s :: dictCodes b (dict ++ [(s, b)]) bs

/-- The whole code stream of a byte stream (R275). -/
def tallyCodes : List Nat → List Nat
  | [] => [256, 257]
  | b :: bs => 256 :: dictCodes b [] bs

/-- Width of a code after j codes since the last clear (R276). -/
def codeWidth (j : Nat) : Nat := min 12 (max 9 (Nat.log2 (258 + j) + 1))

/-- n bits of a number, least significant first. -/
def lowBits (n x : Nat) : List Bool := (List.range n).map fun i => bit x i

/-- The bits of the codes (R276). -/
def codeBits : Nat → List Nat → List Bool
  | _, [] => []
  | j, k :: ks => lowBits (codeWidth j) k ++ codeBits (if k = 256 then 0 else j + 1) ks

/-- Bits packed into bytes, least significant first, padded with zeros; `n` bounds the bytes. -/
def packBytes : Nat → List Bool → List Byte
  | 0, _ => []
  | n + 1, bs => if bs.isEmpty then [] else BitVec.ofNat 8 (packBits (bs.take 8)) :: packBytes n (bs.drop 8)

/-- Bits as bytes. -/
def bitBytes (bs : List Bool) : List Byte := packBytes bs.length bs

/-- A Tally block of lines of pixels, none where invalid (R273). -/
def tallyBlock (archive : Bool) (depth columns : Nat) (lines : List (List (Option Nat))) : List Byte :=
  let runs := (lines.mapIdx fun i l => invalidRuns i l 0 none).flatten
  let res := lines.flatMap fun l => residuals (halfScale depth) (l.map (·.getD 0))
  let code := bitBytes (codeBits 0 (tallyCodes res))
  le 1 (1 + 16 * b2n archive) ++ le 1 depth ++ le 2 lines.length ++ le 2 columns ++ le 2 runs.length ++ le 4 res.length ++ le 4 code.length ++
  (runs.flatMap fun r => le 2 r.1 ++ le 2 r.2.1 ++ le 2 r.2.2 ++ [0, 0]) ++ code

/-- Bound of an encode job's output (R280). -/
def tallyBound (lines columns : Nat) : Nat :=
  let b := 3 * lines * columns
  16 + 8 * (lines * ceilDiv columns 2) + ceilDiv (3 * (b + 2 + ceilDiv b 3838)) 2

/-! ### Decoding (R277, R278) -/

/-- What a decoder has: pixels so far, newest first, the column and prediction of the next, bytes of an escape, bytes decoded. -/
structure TallyOut where
  pixels : List Nat := []
  count : Nat := 0
  pred : Int
  pending : List Nat := []
  bytes : Nat := 0

/-- A pixel from its mapped residual z; the error of R278, or of R290 past the `room` pixels of a destination, where it is none. -/
def TallyOut.pixel (o : TallyOut) (depth columns lines room z : Nat) : Except Nat TallyOut :=
  let r : Int := if z % 2 = 0 then (z / 2 : Nat) else -((z / 2 : Nat) : Int) - 1
  let x := o.pred + r
  if (if depth = 8 then 510 else 8190) < z ∨ x < 0 ∨ (2 ^ depth : Int) ≤ x then .error errBadCode
  else if lines * columns ≤ o.count ∨ room ≤ o.count then .error errOverrun
  else
    let n := o.count + 1
    .ok { o with pixels := x.toNat :: o.pixels, count := n, pred := if n % columns = 0 then halfScale depth else x, pending := [] }

/-- One decoded byte. -/
def TallyOut.byte (o : TallyOut) (depth columns lines room limit b : Nat) : Except Nat TallyOut :=
  if limit ≤ o.bytes then .error errOverrun
  else
    let o := { o with bytes := o.bytes + 1 }
    match o.pending with
    | [] => if b = 255 then .ok { o with pending := [255] } else o.pixel depth columns lines room b
    | [_] => .ok { o with pending := [255, b] }
    | _ :: lo :: _ => o.pixel depth columns lines room (lo + 256 * b)

/-- The bytes of a string, one by one. -/
def TallyOut.string (depth columns lines room limit : Nat) : List Nat → TallyOut → Except Nat TallyOut
  | [], o => .ok o
  | b :: bs, o => match o.byte depth columns lines room limit b with
    | .ok o => TallyOut.string depth columns lines room limit bs o
    | .error e => .error e

/-- How a block ended: the error and its bit offset, if any, the pixels decoded, the bytes of the block read. -/
structure TallyResult where
  error : Option (Nat × Nat) := none
  depth : Nat := 12
  lines : Nat := 0
  columns : Nat := 0
  runs : List (Nat × Nat × Nat) := []
  /-- Pixels in order. -/
  pixels : List Nat := []
  read : Nat := 0

/-- Decodes codes until the end code or an error: the codes' bits, their offset, the codes since the last clear, the string of
the code before, and the strings of the dictionary (R277). -/
def tallyLoop (depth columns lines room limit : Nat) : Nat → List Bool → Nat → Nat → Option (List Nat) → List (List Nat) → TallyOut → TallyOut × Option (Nat × Nat)
  | 0, _, pos, _, _, _, o => (o, some (errTruncated, pos))
  | fuel + 1, bs, pos, j, prev, dict, o =>
    let w := codeWidth j
    if bs.length < w then (o, some (errTruncated, pos))
    else
      let k := packBits (bs.take w)
      let rest := bs.drop w
      if k = 256 then tallyLoop depth columns lines room limit fuel rest (pos + w) 0 none [] o
      else if k = 257 then
        (o, if o.bytes < limit ∨ o.count < lines * columns ∨ !o.pending.isEmpty then some (errTruncated, pos + w) else none)
      else
        let str : Option (List Nat) := match prev with
          | none => if k < 256 then some [k] else none
          | some p => if k < 256 then some [k]
            else if k - 258 < dict.length then dict[k - 258]?
            else if k - 258 = dict.length then some (p ++ p.take 1) else none
        match str with
        | none => (o, some (errBadCode, pos))
        | some x =>
          match TallyOut.string depth columns lines room limit x o with
          | .error e => (o, some (e, pos))
          | .ok o =>
            let dict := match prev with
              | some p => if dict.length < 3838 then dict ++ [p ++ x.take 1] else dict
              | none => dict
            tallyLoop depth columns lines room limit fuel rest (pos + w) (j + 1) (some x) dict o

/-- The bits of bytes, least significant first. -/
def bytesBits (bs : List Byte) : List Bool := bs.flatMap fun b => lowBits 8 b.toNat

/-- The first field of an invalid-run table that breaks R273, as a bit offset; fields that do not lie whole in the `avail` bits of the
source are not judged. -/
def runFault (avail lines columns : Nat) : List (Nat × Nat × Nat × Nat) → Nat → Nat → Nat → Option Nat
  | [], _, _, _ => none
  | (l, a, n, z) :: rs, pos, lastLine, nextCol =>
    if pos + 16 ≤ avail ∧ (lines ≤ l ∨ l < lastLine) then some pos
    else if pos + 32 ≤ avail ∧ (columns ≤ a ∨ (l = lastLine ∧ a < nextCol)) then some (pos + 16)
    else if pos + 48 ≤ avail ∧ (n = 0 ∨ columns < a + n) then some (pos + 32)
    else if pos + 64 ≤ avail ∧ z ≠ 0 then some (pos + 48)
    else runFault avail lines columns rs (pos + 64) l (a + n)

/-- Bytes of a code stream for b residual bytes, at most (R275, R276, R280). -/
def codeBound (b : Nat) : Nat := ceilDiv (3 * (b + 2 + ceilDiv b 3838)) 2

/-- The first header field out of its range, as a bit offset, of those that lie whole in the source: every pixel takes one byte or three,
and the shortest code stream has three codes. DEDUCED: log entry 115. -/
def headerFault (h : List Byte) : Option Nat :=
  let n := rd h 2 2 * rd h 4 2
  let whole (k : Nat) : Bool := decide (k ≤ h.length)
  if whole 1 && (rd h 0 1 % 16 != 1 || decide (1 < rd h 0 1 / 16)) then some 0
  else if whole 2 && rd h 1 1 != 8 && rd h 1 1 != 12 then some 8
  else if whole 4 && (rd h 2 2 == 0 || decide (256 < rd h 2 2)) then some 16
  else if whole 6 && (rd h 4 2 == 0 || decide (16384 < rd h 4 2)) then some 32
  else if whole 8 && decide (rd h 2 2 * ceilDiv (rd h 4 2) 2 < rd h 6 2) then some 48
  else if whole 12 && (decide (rd h 8 4 < n) || decide (3 * n < rd h 8 4) || (rd h 8 4 - n) % 2 == 1) then some 64
  else if whole 16 && (decide (rd h 12 4 < 4) || decide (codeBound (rd h 8 4) < rd h 12 4)) then some 96
  else none

/-- Decodes a block that stands at the start of a byte string, for a destination of `room` pixels (R277, R278, R290).
DEDUCED: log entry 115. -/
def tallyDecode (bs : List Byte) (room : Nat := 256 * 16384) : TallyResult :=
  match headerFault bs with
    | some off => { error := some (errBadCode, off) }
    | none =>
      if bs.length < 16 then { error := some (errTruncated, 8 * bs.length) } else
      let depth := rd bs 1 1
      let lines := rd bs 2 2
      let columns := rd bs 4 2
      let nr := rd bs 6 2
      let base := 16 + 8 * nr
      let table := (List.range nr).map fun i => (rd bs (16 + 8 * i) 2, rd bs (18 + 8 * i) 2, rd bs (20 + 8 * i) 2, rd bs (22 + 8 * i) 2)
      match runFault (8 * bs.length) lines columns table 128 0 0 with
      | some off => { error := some (errBadCode, off), depth, lines, columns }
      | none =>
        if bs.length < base then { error := some (errTruncated, 8 * bs.length), depth, lines, columns }
        else
          let code := (bs.drop base).take (rd bs 12 4)
          let bits := bytesBits code
          let (o, e) := tallyLoop depth columns lines room (rd bs 8 4) (bits.length + 1) bits (8 * base) 0 none [] { pred := halfScale depth }
          { error := e, depth, lines, columns, runs := table.map fun r => (r.1, r.2.1, r.2.2.1), pixels := o.pixels.reverse, read := base + rd bs 12 4 }

/-- A pixel of a decoded block is valid. -/
def TallyResult.valid (r : TallyResult) (i : Nat) : Bool :=
  !(r.runs.any fun x => x.1 == i / r.columns && decide (x.2.1 ≤ i % r.columns) && decide (i % r.columns < x.2.1 + x.2.2))

/-! ### Pixels in host memory (R209) -/

/-- One pixel in a tile format: `depth8` tells that the value is 8 bits deep. -/
def pixelBytes (format : Nat) (depth8 : Bool) : Option Nat → List Byte
  | none => if format = 0 then [0] else [0, 0]
  | some g =>
    if format = 0 then le 1 (if depth8 then g else g / 16)
    else le 2 ((if depth8 then g * 16 else g) + 0x8000)

/-- The pixels of a source in a tile format, at a depth (R281). -/
def sourcePixels (format depth n : Nat) (bs : List Byte) : List (Option Nat) :=
  (List.range n).map fun i =>
    if format = 0 then some (if depth = 8 then rd bs i 1 else rd bs i 1 * 16)
    else
      let w := rd bs (2 * i) 2
      if bit w 15 then some (if depth = 8 then w / 16 % 256 else w % 4096) else none

/-- A list cut into pieces of n; `k` bounds the pieces. -/
def chunks {α : Type} (n : Nat) : Nat → List α → List (List α)
  | 0, _ => []
  | k + 1, l => if l.isEmpty then [] else l.take n :: chunks n k (l.drop n)

end Sys2Proof.Machine
end

