-- ==== Sys2Proof/Machine/Deflate.lean ====
section
/-! DEFINITION. The Window engines of chapter 10 (R284 to R291): DEFLATE decompression with its errors, the wrappers, and
compression: matching, segments, blocks and their codes. -/
namespace Sys2Proof.Machine

/-! ### Bit input -/

/-- Input bits not yet read, and the offset of the first of them. -/
structure BitIn where
  rest : List Bool
  pos : Nat

/-- The next n bits as a number, least significant first. -/
def BitIn.take (i : BitIn) (n : Nat) : Option (Nat × BitIn) :=
  if i.rest.length < n then none else some (packBits (i.rest.take n), { rest := i.rest.drop n, pos := i.pos + n })

/-- A decompression under way: bytes written, newest first, and how many. -/
structure Inflate where
  out : List Byte := []
  count : Nat := 0

/-- A step of decompression: the rest of the input and the output, or the output before the error, its code and its offset. -/
inductive Step1 (α : Type) where
  | ok (x : α) (i : BitIn) (o : Inflate)
  | err (o : Inflate) (code pos : Nat)

/-! ### Huffman codes -/

/-- Canonical codes of a list of code lengths: (length, code, symbol), shortest first, in order of symbol (RFC 1951). -/
def canonical (lens : List Nat) : List (Nat × Nat × Nat) :=
  ((List.range 15).foldl (fun (acc : List (Nat × Nat × Nat) × Nat) k =>
    let len := k + 1
    let syms := (List.range lens.length).filter fun s => lens.getD s 0 == len
    (acc.1 ++ syms.mapIdx (fun i s => (len, acc.2 + i, s)), (acc.2 + syms.length) * 2)) ([], 0)).1

/-- Space a code leaves: 0 when complete, negative when over-subscribed. -/
def codeSpace (lens : List Nat) : Int := (lens.filter (· != 0)).foldl (fun s l => s - 2 ^ (15 - l)) 32768

/-- Reads one symbol: the bits of its code, the first the most significant. -/
def readSymbol (table : List (Nat × Nat × Nat)) : Nat → Nat → Nat → BitIn → Option (Option Nat × BitIn)
  | 0, _, _, i => some (none, i)
  | k + 1, len, code, i =>
    match i.rest with
    | [] => none
    | b :: bs =>
      let len := len + 1
      let code := 2 * code + b2n b
      let i := { rest := bs, pos := i.pos + 1 }
      match table.find? fun e => e.1 == len && e.2.1 == code with
      | some e => some (some e.2.2, i)
      | none => readSymbol table k len code i

/-- Base length and extra bits of a length symbol (RFC 1951). -/
def lengthOf (s : Nat) : Nat × Nat :=
  ([(3, 0), (4, 0), (5, 0), (6, 0), (7, 0), (8, 0), (9, 0), (10, 0), (11, 1), (13, 1), (15, 1), (17, 1), (19, 2), (23, 2), (27, 2), (31, 2),
    (35, 3), (43, 3), (51, 3), (59, 3), (67, 4), (83, 4), (99, 4), (115, 4), (131, 5), (163, 5), (195, 5), (227, 5), (258, 0)] : List (Nat × Nat)).getD (s - 257) (0, 0)

/-- Base distance and extra bits of a distance symbol (RFC 1951). -/
def distanceOf (s : Nat) : Nat × Nat := if s < 4 then (s + 1, 0) else ((2 + s % 2) * 2 ^ (s / 2 - 1) + 1, s / 2 - 1)

/-- The fixed code lengths of literals and lengths. -/
def fixedLengths : List Nat := List.replicate 144 8 ++ List.replicate 112 9 ++ List.replicate 24 7 ++ List.replicate 8 8

/-! ### Blocks -/

/-- Repeats the bytes at a distance n times. -/
def copyBytes (dist : Nat) : Nat → Inflate → Inflate
  | 0, o => o
  | n + 1, o => copyBytes dist n { out := o.out.getD (dist - 1) 0 :: o.out, count := o.count + 1 }

/-- The symbols of a Huffman block up to its end (R291 codes 4 to 7). -/
def blockSymbols (lit dist : List (Nat × Nat × Nat)) (limit : Nat) : Nat → BitIn → Inflate → Step1 Unit
  | 0, i, o => .err o errTruncated i.pos
  | fuel + 1, i, o =>
    match readSymbol lit 15 0 0 i with
    | none => .err o errTruncated i.pos
    | some (none, _) => .err o errBadCode i.pos
    | some (some s, j) =>
      if s < 256 then
        (if limit ≤ o.count then .err o errOverrun i.pos
         else blockSymbols lit dist limit fuel j { out := BitVec.ofNat 8 s :: o.out, count := o.count + 1 })
      else if s = 256 then .ok () j o
      else if 286 ≤ s ∨ dist.isEmpty then .err o errBadCode i.pos
      else match j.take (lengthOf s).2 with
        | none => .err o errTruncated i.pos
        | some (x, k) =>
          match readSymbol dist 15 0 0 k with
          | none => .err o errTruncated k.pos
          | some (none, _) => .err o errBadCode k.pos
          | some (some d, m) =>
            if 30 ≤ d then .err o errBadCode k.pos
            else match m.take (distanceOf d).2 with
              | none => .err o errTruncated k.pos
              | some (y, z) =>
                let len := (lengthOf s).1 + x
                let far := (distanceOf d).1 + y
                if o.count < far ∨ 32768 < far then .err o errTooFar k.pos
                else if limit < o.count + len then .err o errOverrun i.pos
                else blockSymbols lit dist limit fuel z (copyBytes far len o)

/-- Code lengths of a dynamic block, run by run. -/
def codeLengths (table : List (Nat × Nat × Nat)) (total : Nat) : Nat → List Nat → BitIn → Except (Nat × Nat) (List Nat × BitIn)
  | 0, _, i => .error (errTruncated, i.pos)
  | fuel + 1, acc, i =>
    if total ≤ acc.length then .ok (acc, i)
    else match readSymbol table 7 0 0 i with
      | none => .error (errTruncated, i.pos)
      | some (none, _) => .error (errHuffTable, i.pos)
      | some (some s, j) =>
        if s < 16 then codeLengths table total fuel (acc ++ [s]) j
        else
          let extra := if s = 16 then 2 else if s = 17 then 3 else 7
          match j.take extra with
          | none => .error (errTruncated, i.pos)
          | some (x, k) =>
            let n := x + (if s = 18 then 11 else 3)
            if (s = 16 ∧ acc.isEmpty) ∨ total < acc.length + n then .error (errHuffTable, i.pos)
            else codeLengths table total fuel (acc ++ List.replicate n (if s = 16 then acc.getLastD 0 else 0)) k

/-- Order in which a dynamic block gives the lengths of its code-length code. -/
def lengthOrder : List Nat := [16, 17, 18, 0, 8, 7, 9, 6, 10, 5, 11, 4, 12, 3, 13, 2, 14, 1, 15]

/-- The 3-bit code lengths of the code-length code, in symbol order. -/
def lengthCode (n : Nat) (i : BitIn) : Option (List Nat × BitIn) :=
  match i.take (3 * n) with
  | none => none
  | some (x, j) =>
    let given := (lengthOrder.take n).mapIdx fun k s => (s, bits x (3 * k) 3)
    some ((List.range 19).map (fun s => ((given.find? fun g => g.1 == s).map (·.2)).getD 0), j)

/-- The tables of a dynamic block (R291 code 3). -/
def dynamicTables (i : BitIn) : Except (Nat × Nat) (List Nat × List Nat × BitIn) :=
  match i.take 5, i.take 10, i.take 14 with
  | none, _, _ => .error (errTruncated, i.pos)
  | some (h, _), none, _ => .error (if 286 < 257 + h then errHuffTable else errTruncated, if 286 < 257 + h then i.pos else i.pos + 5)
  | _, some (h, _), none =>
    if 286 < 257 + bits h 0 5 then .error (errHuffTable, i.pos)
    else if 30 < 1 + bits h 5 5 then .error (errHuffTable, i.pos + 5)
    else .error (errTruncated, i.pos + 10)
  | _, _, some (h, j) =>
    let nl := 257 + bits h 0 5
    let nd := 1 + bits h 5 5
    if 286 < nl then .error (errHuffTable, i.pos)
    else if 30 < nd then .error (errHuffTable, i.pos + 5)
    else match lengthCode (4 + bits h 10 4) j with
      | none => .error (errTruncated, j.pos)
      | some (cl, k) =>
        if codeSpace cl ≠ 0 then .error (errHuffTable, j.pos)
        else match codeLengths (canonical cl) (nl + nd) (nl + nd + 1) [] k with
          | .error e => .error e
          | .ok (all, m) =>
            let ll := all.take nl
            let dl := all.drop nl
            let used := dl.filter (· != 0)
            if ll.getD 256 0 = 0 ∨ codeSpace ll ≠ 0 then .error (errHuffTable, k.pos)
            else if !used.isEmpty ∧ used ≠ [1] ∧ codeSpace dl ≠ 0 then .error (errHuffTable, k.pos)
            else .ok (ll, dl, m)

/-- The bytes of a stored block. -/
def storedBytes (limit : Nat) : Nat → BitIn → Inflate → Step1 Unit
  | 0, i, o => .ok () i o
  | n + 1, i, o =>
    match i.take 8 with
    | none => .err o errTruncated i.pos
    | some (b, j) => if limit ≤ o.count then .err o errOverrun i.pos
      else storedBytes limit n j { out := BitVec.ofNat 8 b :: o.out, count := o.count + 1 }

/-- Bits up to the next byte boundary are passed over. -/
def BitIn.align (i : BitIn) : BitIn := let n := (8 - i.pos % 8) % 8; { rest := i.rest.drop n, pos := i.pos + n }

/-- A stored block after its header (R291 code 6). -/
def storedBlock (limit : Nat) (i : BitIn) (o : Inflate) : Step1 Unit :=
  let i := i.align
  match i.take 32 with
  | none => .err o errTruncated (if (i.take 16).isNone then i.pos else i.pos + 16)
  | some (x, j) => if x % 65536 + x / 65536 ≠ 65535 then .err o errOverrun i.pos else storedBytes limit (x % 65536) j o

/-- The blocks of a stream up to the last one (R284, R291). -/
def blocks (limit : Nat) : Nat → BitIn → Inflate → Step1 Unit
  | 0, i, o => .err o errTruncated i.pos
  | fuel + 1, i, o =>
    match i.take 3 with
    | none => .err o errTruncated i.pos
    | some (h, j) =>
      let size := j.rest.length + 1
      let r : Step1 Unit := match h / 2 with
        | 0 => storedBlock limit j o
        | 1 => blockSymbols (canonical fixedLengths) (canonical (List.replicate 32 5)) limit size j o
        | 2 => match dynamicTables j with
          | .error (e, p) => .err o e p
          | .ok (ll, dl, k) => blockSymbols (canonical ll) (canonical dl) limit size k o
        | _ => .err o errBlockType i.pos
      match r with
      | .err o e p => .err o e p
      | .ok _ k o => if h % 2 = 1 then .ok () k o else blocks limit fuel k o

/-! ### Wrappers (R284, R285) -/

/-- Adler-32 (RFC 1950). -/
def adler32 (bs : List Byte) : Nat :=
  let (a, b) := bs.foldl (fun (p : Nat × Nat) x => let a := (p.1 + x.toNat) % 65521; (a, (p.2 + a) % 65521)) (1, 0)
  b * 65536 + a
/-- How a decompression ended: output, bytes of input used, and the error with its bit offset. -/
structure InflateResult where
  output : List Byte := []
  consumed : Nat := 0
  error : Option (Nat × Nat) := none
  deriving DecidableEq, Repr

/-- The offset after a zero-terminated gzip field; none where the input ends before it. -/
def afterZero (bs : List Byte) (off : Nat) : Option Nat := ((bs.drop off).findIdx? (· == 0)).map (off + · + 1)

/-- Length of a gzip header with its optional fields; the error where it has one (R285). -/
def gzipHeader (bs : List Byte) : Except (Nat × Nat) Nat :=
  if (1 ≤ bs.length ∧ rd bs 0 1 ≠ 0x1F) ∨ (2 ≤ bs.length ∧ rd bs 1 1 ≠ 0x8B) ∨ (3 ≤ bs.length ∧ rd bs 2 1 ≠ 8) ∨ (4 ≤ bs.length ∧ 32 ≤ rd bs 3 1) then
    .error (errHeader, 0)
  else if bs.length < 10 then .error (errTruncated, 0)
  else
    let f := rd bs 3 1
    let extra : Option Nat := if bit f 2 then (if bs.length < 12 then none else some (12 + rd bs 10 2)) else some 10
    let name := extra.bind fun o => if bs.length < o then none else if bit f 3 then afterZero bs o else some o
    let comment := name.bind fun o => if bit f 4 then afterZero bs o else some o
    match comment with
    | none => .error (errTruncated, 0)
    | some o =>
      if !bit f 1 then .ok o
      else if bs.length < o + 2 then .error (errTruncated, 8 * o)
      else if rd bs o 2 = crc32 (bs.take o) % 65536 then .ok (o + 2) else .error (errHeader, 0)

/-- The header of a wrapper: its length, or the error (R285, R291 code 1). -/
def wrapperHeader (wrapper : Nat) (bs : List Byte) : Except (Nat × Nat) Nat :=
  match wrapper with
  | 0 => .ok 0
  | 1 =>
    let c := rd bs 0 1
    if bs.length < 1 then .error (errTruncated, 0)
    else if c % 16 ≠ 8 ∨ 7 < c / 16 then .error (errHeader, 0)
    else if bs.length < 2 then .error (errTruncated, 0)
    else
      if (256 * c + rd bs 1 1) % 31 ≠ 0 ∨ bit (rd bs 1 1) 5 then .error (errHeader, 0) else .ok 2
  | _ => gzipHeader bs

/-- Decompresses a stream in its wrapper, writing at most `limit` bytes (R285, R290, R291). DEDUCED: log entry 115. -/
def inflate (wrapper limit : Nat) (bs : List Byte) : InflateResult :=
  match wrapperHeader wrapper bs with
  | .error e => { error := some e }
  | .ok off =>
    let rest := bytesBits (bs.drop off)
    match blocks limit (rest.length + 1) { rest, pos := 8 * off } {} with
    | .err o e p => { output := o.out.reverse, error := some (e, p) }
    | .ok _ i o =>
      let out := o.out.reverse
      let t := i.align.pos / 8
      match wrapper with
      | 0 => { output := out, consumed := t }
      | 1 =>
        if bs.length < t + 4 then { output := out, error := some (errTruncated, 8 * t) }
        else if (be 4 (adler32 out)) ≠ (bs.drop t).take 4 then { output := out, error := some (errChecksum, 8 * t) }
        else { output := out, consumed := t + 4 }
      | _ =>
        if bs.length < t + 4 then { output := out, error := some (errTruncated, 8 * t) }
        else if rd bs t 4 ≠ crc32 out then { output := out, error := some (errChecksum, 8 * t) }
        else if bs.length < t + 8 then { output := out, error := some (errTruncated, 8 * t + 32) }
        else if rd bs (t + 4) 4 ≠ out.length % 2 ^ 32 then { output := out, error := some (errChecksum, 8 * t + 32) }
        else { output := out, consumed := t + 8 }

/-! ### Compression (R284, R287, R288) -/

/-- One stored block for each segment of 65 535 bytes (R287). -/
def storedStream (bs : List Byte) : List Byte :=
  let segs := if bs.isEmpty then [[]] else chunks 65535 (bs.length / 65535 + 1) bs
  (segs.mapIdx fun i s => le 1 (b2n (i + 1 == segs.length)) ++ le 2 s.length ++ le 2 (65535 - s.length) ++ s).flatten

/-- Bound of a compressed stream (R288). -/
def deflateBound (wrapper n : Nat) : Nat := n + 5 * max 1 (ceilDiv n 65535) + (if wrapper = 0 then 0 else if wrapper = 1 then 6 else 18)

/-- Entries of a hash chain that are tried at a level (R286). -/
def chainDepth (level : Nat) : Nat := [8, 32, 128, 512].getD (level - 1) 8

/-- How many bytes, at most n, two byte strings have in common from their start. -/
def commonLength : Nat → List Byte → List Byte → Nat
  | n + 1, x :: xs, y :: ys => if x = y then commonLength n xs ys + 1 else 0
  | _, _, _ => 0

/-- The longest match that the engine finds for position p of an input, at most `most` bytes long: its length, 0 for none, and its
distance; of equals the nearest. The chain of a position holds the earlier positions with the same three bytes, the nearest first, and
what else its hash brings in takes places of it (R284, R286). DESIGN CHOICE: log entry 121. -/
def longestMatch (level : Nat) (bs : List Byte) (p most : Nat) : Nat × Nat :=
  let from_ (i : Nat) : List Byte := bs.drop i
  let chain := ((List.range (min p 32768)).map (· + 1)).filter fun d => commonLength 3 (from_ (p - d)) (from_ p) == 3
  (chain.take (chainDepth level - Config.chainLost level bs p)).foldl (fun best d =>
    let n := commonLength (min 258 most) (from_ (p - d)) (from_ p)
    if 3 ≤ n ∧ best.1 < n then (n, d) else best) (0, 0)

/-- The symbols of a segment from position p up to its end: literals (0, byte) and matches (length, distance). Matching is greedy at
level 1; else a literal goes first where one position further has the longer match (R286). DESIGN CHOICE: log entry 121. -/
def segmentSymbols (level : Nat) (bs : List Byte) (stop : Nat) : Nat → Nat → List (Nat × Nat)
  | 0, _ => []
  | fuel + 1, p =>
    if stop ≤ p then []
    else
      let here := longestMatch level bs p (stop - p)
      let next := if level = 1 ∨ here.1 = 0 then (0, 0) else longestMatch level bs (p + 1) (stop - (p + 1))
      let lit : Nat × Nat := (0, rd bs p 1)
      if here.1 = 0 then lit :: segmentSymbols level bs stop fuel (p + 1)
      else if here.1 < next.1 then lit :: next :: segmentSymbols level bs stop fuel (p + 1 + next.1)
      else here :: segmentSymbols level bs stop fuel (p + here.1)

/-- The symbol of a match length. -/
def lengthSymbol (n : Nat) : Nat := (((List.range 29).map (257 + ·)).filter fun s => decide ((lengthOf s).1 ≤ n)).getLastD 257

/-- The symbol of a distance. -/
def distanceSymbol (d : Nat) : Nat := ((List.range 30).filter fun s => decide ((distanceOf s).1 ≤ d)).getLastD 0

/-- The code of a symbol, its first bit the most significant; none where the code has no such symbol. -/
def symbolBits (table : List (Nat × Nat × Nat)) (s : Nat) : Option (List Bool) :=
  (table.find? fun e => e.2.2 == s).map fun e => (lowBits e.1 e.2.1).reverse

/-- A literal or a match in given codes. -/
def tokenBits (lit dist : List (Nat × Nat × Nat)) (t : Nat × Nat) : Option (List Bool) :=
  if t.1 = 0 then symbolBits lit t.2
  else
    let s := lengthSymbol t.1
    let d := distanceSymbol t.2
    match symbolBits lit s, symbolBits dist d with
    | some a, some b => some (a ++ lowBits (lengthOf s).2 (t.1 - (lengthOf s).1) ++ b ++ lowBits (distanceOf d).2 (t.2 - (distanceOf d).1))
    | _, _ => none

/-- The symbols of a block and its end in given codes; none where a symbol has no code. -/
def bodyBits (lit dist : List (Nat × Nat × Nat)) (ts : List (Nat × Nat)) : Option (List Bool) :=
  ts.foldr (fun t acc => match tokenBits lit dist t, acc with
    | some a, some b => some (a ++ b)
    | _, _ => none) (symbolBits lit 256)

/-- A block in the fixed codes, its header apart. -/
def fixedBlock (ts : List (Nat × Nat)) : List Bool := (bodyBits (canonical fixedLengths) (canonical (List.replicate 32 5)) ts).getD []

/-- A block in dynamic codes, where their header gives every symbol a code. -/
def dynamicBlock (ts : List (Nat × Nat)) : Option (List Bool) :=
  let h := Config.dynamicHeader ts
  match dynamicTables { rest := h, pos := 0 } with
  | .ok (ll, dl, i) => if i.rest.isEmpty then (bodyBits (canonical ll) (canonical dl) ts).map (h ++ ·) else none
  | .error _ => none

/-- A Huffman block: fixed or dynamic, whichever is shorter, and only fixed where that is asked for (R287). -/
def huffmanBlock (fixed last : Bool) (ts : List (Nat × Nat)) : List Bool :=
  let f := fixedBlock ts
  match if fixed then none else dynamicBlock ts with
  | some d => if d.length < f.length then [last, false, true] ++ d else [last, true, false] ++ f
  | none => [last, true, false] ++ f

/-- The stored block of a segment, written from a bit position. -/
def storedSegment (last : Bool) (pos : Nat) (seg : List Byte) : List Bool :=
  [last, false, false] ++ List.replicate ((8 - (pos + 3) % 8) % 8) false ++ lowBits 16 seg.length ++ lowBits 16 (65535 - seg.length) ++ bytesBits seg

/-- A segment, written from a bit position: its Huffman blocks of up to 16 384 symbols, or its stored block where that ends no later
(R287). -/
def codeSegment (fixed last : Bool) (pos : Nat) (ts : List (Nat × Nat)) (seg : List Byte) : List Bool :=
  let parts := if ts.isEmpty then [[]] else chunks 16384 (ts.length / 16384 + 1) ts
  let huffman := (parts.mapIdx fun i part => huffmanBlock fixed (last && i + 1 == parts.length) part).flatten
  let stored := storedSegment last pos seg
  if huffman.length < stored.length then huffman else stored

/-- The raw stream that a Window engine writes: segments of 65 535 bytes, the last with the remainder (R287). -/
def engineStream (level : Nat) (fixed : Bool) (bs : List Byte) : List Byte :=
  let n := max 1 (ceilDiv bs.length 65535)
  bitBytes ((List.range n).foldl (fun out i =>
    let stop := min bs.length (65535 * (i + 1))
    out ++ codeSegment fixed (i + 1 == n) out.length (segmentSymbols level bs stop (stop - 65535 * i) (65535 * i)) ((bs.drop (65535 * i)).take 65535)) [])

/-- The raw stream of an input: what the engine writes. Stored blocks stand in for a stream that did not expand to its input within the
bound, whatever the free choices are (R287, R288). DESIGN CHOICE: log entry 121. -/
def deflateRaw (level : Nat) (fixed : Bool) (bs : List Byte) : List Byte :=
  let x := engineStream level fixed bs
  let r := inflate 0 bs.length x
  if r.error.isNone ∧ r.output = bs ∧ r.consumed = x.length ∧ x.length ≤ deflateBound 0 bs.length then x else storedStream bs

/-- A compressed stream in its wrapper (R284). DESIGN CHOICE: log entry 121. -/
def deflate (wrapper level : Nat) (fixed : Bool) (bs : List Byte) : List Byte :=
  let raw := deflateRaw level fixed bs
  match wrapper with
  | 0 => raw
  | 1 => [0x78, BitVec.ofNat 8 ([0x01, 0x5E, 0x9C, 0xDA].getD (level - 1) 0x01)] ++ raw ++ be 4 (adler32 bs)
  | _ => [0x1F, 0x8B, 8, 0, 0, 0, 0, 0, if level = 1 then 4 else if level = 4 then 2 else 0, 255] ++ raw ++ le 4 (crc32 bs) ++ le 4 bs.length

end Sys2Proof.Machine
end

