-- ==== Sys2Proof/Machine/HostLink.lean ====
section
/-! DEFINITION. The host link of chapter 17: rings, the event ring, DMA descriptor chains, MSI-X and the resets of the
host interface. -/
namespace Sys2Proof.Machine

/-! ### Rings by channel -/

/-- The ring that owns a channel. -/
def ringOf (c : Chip) (ch : Nat) : Option Ring :=
  match (vget c.pcie.dma ch).owner with
  | 1 => some c.records.ring
  | 2 => some c.tiles.ring
  | 3 => (c.view.toList.find? fun v => v.ring.channel == ch).map (·.ring)
  | 6 => (c.time.capture.toList.find? fun x => x.ring.enabled && x.ring.channel == ch).map (·.ring)
  | 7 => some c.aux.ring
  | 8 => some c.life.ring
  | _ => none

/-- Changes the ring that owns a channel. -/
def modRing (ch : Nat) (f : Ring → Ring) (c : Chip) : Chip :=
  match (vget c.pcie.dma ch).owner with
  | 1 => { c with records := { c.records with ring := f c.records.ring } }
  | 2 => { c with tiles := { c.tiles with ring := f c.tiles.ring } }
  | 3 => { c with view := vmapIdx (fun _ v => if v.ring.channel = ch then { v with ring := f v.ring } else v) c.view }
  | 6 => { c with time := { c.time with
      capture := vmapIdx (fun _ x => if x.ring.enabled && x.ring.channel = ch then { x with ring := f x.ring } else x) c.time.capture } }
  | 7 => { c with aux := { c.aux with ring := f c.aux.ring } }
  | 8 => { c with life := { c.life with ring := f c.life.ring } }
  | _ => c

/-- Two settings of a ring place it alike: channel, base, count, size and head block. DEDUCED: log entry 19. -/
def Ring.placedAs (a b : Ring) : Bool :=
  a.channel == b.channel && a.base == b.base && a.entryCount == b.entryCount && a.entrySize == b.entrySize && a.headAddr == b.headAddr

/-- What a request makes of a ring (R595): an enabled ring that stays enabled takes the interrupt settings, which its next entry is
written under (`Ring.entryDue`); one that is
enabled starts at head and tail 0; one that is disabled takes the settings for the next enable. DEDUCED: log entry 19. -/
def Ring.change (old : Ring) (enable : Bool) (new : Ring) : Ring :=
  if old.enabled && enable then { old with irqCount := new.irqCount, irqHoldoffUs := new.irqHoldoffUs }
  else { new with enabled := enable, head := if enable then 0 else old.head, tail := if enable then 0 else old.tail }

/-- Checks of R595 and R440 for a ring of function fn on its requested channel. DEDUCED: log entry 19. -/
def ringChecks (c : Chip) (old : Ring) (enable : Bool) (new : Ring) (fn : Nat) : List Check :=
  [stateRule c (!(old.enabled && enable) || old.placedAs new),
   ownRule stBusy (!enable || old.enabled || channelFree c new.channel fn)]

/-- Takes or gives back the channel as the request asks. -/
def ringChannel (old : Ring) (enable : Bool) (new : Ring) (fn : Nat) (c : Chip) : Chip :=
  if old.enabled then (if enable then c else freeChannel old.channel c)
  else if enable then takeChannel new.channel fn c else c

/-- The fields of a ring as OUT.SET_RECORD_RING lays them out: channel at 1, then the interrupt settings, count and
addresses (R214). -/
def ringAt (p : List Byte) (size : Nat) : Ring :=
  { channel := rd p 1 1, irqCount := rd p 2 2, irqHoldoffUs := rd p 4 2, entryCount := rd p 8 4, entrySize := size,
    base := rd p 16 8, headAddr := rd p 24 8 }

/-! ### The event ring (R458 to R464) -/

/-- The 32 bytes of an event entry (R458). -/
def eventBytes (e : Event) : List Byte :=
  le 2 e.code ++ le 1 e.severity ++ le 1 e.source ++ le 4 e.sequence ++ timeBytes e.timeS e.timeNs ++ [0, 0] ++ fit 12 e.payload

/-- Writes one event and the head block, then signals vector 1 as R460 says, and the vector of the event's group. -/
def eventPut (e : Event) (c : Chip) : Chip :=
  let (r, c) := ringEntry c.evq.ring (eventBytes e) true c
  let c := emit (.hostWrite r.headAddr (le 4 r.head ++ le 4 c.evq.lostTotal ++ zeros 24)) c
  let force := c.evq.irqSeverity != 0xFF && decide (c.evq.irqSeverity ≤ e.severity)
  let (r, c) := ringSignal 1 force r c
  signalGroup e.code { c with evq := { c.evq with ring := r } }

/-- Whether the event ring takes an entry now. -/
def eventRoom (c : Chip) : Bool := c.evq.ring.enabled && !c.evq.ring.full && !c.pcie.d3hot

/-- EV_EVENTS_LOST, written first when a slot frees after losses (R461). -/
def writeEventsLost (c : Chip) : Chip :=
  if c.evq.lostPending = 0 || !eventRoom c then c
  else
    let (s, n) := clock c
    let e : Event := {
      code := 0x0102, severity := 2, source := 0x7F + 128 * b2n (Config.firmwareRaises 0x0102), sequence := c.evq.nextSequence,
      timeS := s, timeNs := n, payload := le 4 c.evq.lostPending ++ le 4 c.evq.firstLost ++ zeros 4 }
    eventPut e { c with evq := { c.evq with nextSequence := wrapU 32 (c.evq.nextSequence + 1), lostPending := 0 } }

/-- Writes the oldest event of the FIFO, where there is one and the ring has room. -/
def writeHeldEvent (c : Chip) : Chip :=
  if !eventRoom c then c
  else match c.evq.fifo with
    | [] => c
    | e :: rest => eventPut e { c with evq := { c.evq with fifo := rest } }

/-- A held event is written from the FIFO to the event ring, EV_EVENTS_LOST first after losses (R459 to R462). -/
def execEventRingWrite (t : Nat) (s : State) : Host.Outcome State Fault Refusal :=
  .next (s.run t fun _ c => writeHeldEvent (writeEventsLost c))

/-- The collection second of a rate-limited event ends (R596). -/
def execRateLimitSecondEnd (t code inst : Nat) (s : State) : Host.Outcome State Fault Refusal :=
  .next (s.run t fun _ c => endRateSecond code inst c)

/-- Host software writes EVQ_TAIL: ignored while the ring is disabled; a value that breaks R203 raises EV_DMA_ERROR with
source 0x7F (R460, R465). DEDUCED: log entry 14. -/
def evqTailWrite (value : Nat) (c : Chip) : Chip :=
  let tail := wrapU 32 value
  if !c.evq.ring.enabled then c
  else if c.evq.ring.accepts tail then { c with evq := { c.evq with ring := { c.evq.ring with tail } } }
  else dmaError 0x7F 8 0 0 c

def execEvqTailWrite (t value : Nat) (s : State) : Host.Outcome State Fault Refusal :=
  .next (s.run t fun _ c => evqTailWrite value c)

/-- `irq_holdoff_us` has passed since an entry of the ring not yet signalled. -/
def Ring.holdoffOver (r : Ring) (now : Nat) : Bool := r.enabled && (r.signalBy.map fun t => decide (t ≤ now)).getD false

/-- `irq_holdoff_us` has passed since an entry not yet signalled (R203, R460). DESIGN CHOICE: log entry 22. -/
def irqHoldoffExpiry (channel : Nat) (c : Chip) : Chip :=
  if channel = 32 then
    let r := c.evq.ring
    if r.holdoffOver c.now then
      let (r, c) := ringSignal 1 true r c
      { c with evq := { c.evq with ring := r } }
    else c
  else match ringOf c channel with
    | none => c
    | some r =>
      if r.holdoffOver c.now then
        signalVector (2 + channel) (modRing channel (fun r => { r with sinceIrq := 0, signalBy := none }) c)
      else c

def execIrqHoldoffExpiry (t : Nat) (channel : Fin 33) (s : State) : Host.Outcome State Fault Refusal :=
  .next (s.run t fun _ c => irqHoldoffExpiry channel c)

/-- SYS.SET_EVENT_RING (R463, R595). -/
def setEventRing (_ : Env) (j : Job) (c : Chip) : Reply :=
  let p := j.payload
  let enable := bit (rd p 0 1) 0
  let old := c.evq.ring
  let new : Ring := {
    irqCount := rd p 2 2, irqHoldoffUs := rd p 4 2, entryCount := rd p 8 4, entrySize := 32, base := rd p 16 8, headAddr := rd p 24 8 }
  checked
    [lenIs 32 j, param 0 (rd p 0 1 < 2), param 1 (rd p 1 1 ≤ 4 || rd p 1 1 == 0xFF), inRange p 4 2 0 10000, reserved p 6 2,
     param 8 (isPow2 (rd p 8 4) && 64 ≤ rd p 8 4 && rd p 8 4 ≤ 65536), reserved p 12 4,
     param 16 (rd p 16 8 % 4096 == 0), param 24 (rd p 24 8 % 32 == 0),
     stateRule c (!(old.enabled && enable) || (old.base == new.base && old.entryCount == new.entryCount && old.headAddr == new.headAddr))] c
    (let c := { c with evq := { c.evq with ring := old.change enable new, irqSeverity := rd p 1 1 } }
     replyBody (le 4 c.evq.ring.head ++ le 4 c.evq.fifo.length) c)

def execSysSetEventRing (t : Nat) (mb : Fin 8) (s : State) : Host.Outcome State Fault Refusal :=
  .next (s.command 0x0107 t mb setEventRing)

/-- SYS.SET_EVENT_MASK (R464). -/
def setEventMask (_ : Env) (j : Job) (c : Chip) : Reply :=
  checked [lenIs 32 j] c
    (reply stOk { c with evq := { c.evq with mask := vmapIdx (fun g _ => rd j.payload (2 * g) 2) c.evq.mask } })

def execSysSetEventMask (t : Nat) (mb : Fin 8) (s : State) : Host.Outcome State Fault Refusal :=
  .next (s.command 0x0108 t mb setEventMask)

/-! ### Descriptor chains (R442 to R451) -/

/-- Changes one DMA channel. -/
def modDma (ch : Nat) (f : Dma → Dma) (c : Chip) : Chip :=
  { c with pcie := { c.pcie with dma := vmod c.pcie.dma ch f } }

/-- The detail of ERR_ALIGN (R447): a bit per field that breaks it; a fill has no source address and stride (R444). DEDUCED: log entry 13. -/
def alignFaults (d : List Byte) : Nat :=
  let fill := bits (rd d 0 4) 4 2 == 2
  packBits [!fill && rd d 8 8 % 32 != 0, rd d 16 8 % 32 != 0, !fill && rd d 24 4 % 32 != 0, rd d 28 4 % 32 != 0, rd d 4 4 % 32 != 0, rd d 40 8 % 64 != 0]

/-- Whether every line of one side lies in its space: the bulk window, or the 64-bit host space without wrapping. -/
def sideFits (kind : Nat) (addr : Nat) (stride : Int) (length count : Nat) : Bool :=
  let last : Int := (addr : Int) + (count - 1 : Nat) * stride
  let lo := min (addr : Int) last
  let hi := max (addr : Int) last + length
  decide (0 ≤ lo) && decide (hi ≤ (if kind = 1 then 268435456 else 2 ^ 64 : Int))

/-- The first field of a descriptor outside its range (R443, R445). DEDUCED: log entry 13. -/
def descriptorFault (d : List Byte) : Option Nat :=
  let k := rd d 0 4
  let src := bits k 4 2
  let dst := bits k 6 2
  let len := rd d 4 4
  let n := rd d 32 2
  if k / 256 ≠ 0 ∨ src = 3 ∨ 2 ≤ dst then some 0
  else if len < 32 ∨ 16777216 < len then some 4
  else if src ≠ 2 ∧ !sideFits src (rd d 8 8) (rdS d 24 4) len n then some 8
  else if !sideFits dst (rd d 16 8) (rdS d 28 4) len n then some 16
  else if n = 0 then some 32
  else if rd d 34 2 ≠ 0 then some 34
  else none

/-- Bytes of a line of a side that has the bulk window or the fill pattern as its source, or the host's bytes given. -/
def sourceLine (d data : List Byte) (bulk : Mem) (i : Nat) : List Byte :=
  let len := rd d 4 4
  match bits (rd d 0 4) 4 2 with
  | 0 => sliceB data (i * len) len
  | 1 => bulk.readBytes ((rd d 8 8 : Int) + i * rdS d 24 4).toNat len
  | _ => (List.range len).map fun k => (le 4 (rd d 36 4)).getD (k % 4) 0

/-- Moves the first `moved` bytes of a transfer, line by line in order, so that a line of the bulk window is read as earlier lines
left it (R446); reads and writes of host memory carry the No-Snoop bits of the descriptor (R443, R456). -/
def moveBytes (d data : List Byte) (bulk : Mem) (moved : Nat) (c : Chip) : Chip :=
  let len := rd d 4 4
  ((List.range (rd d 32 2)).foldl (fun (bulk, c) i =>
    let here := min len (moved - i * len)
    if here = 0 then (bulk, c)
    else
      let a := ((rd d 16 8 : Int) + i * rdS d 28 4).toNat
      let bs := (sourceLine d data bulk i).take here
      let c := if bits (rd d 0 4) 4 2 = 0 then emit (.hostRead ((rd d 8 8 : Int) + i * rdS d 24 4).toNat here (bit (rd d 0 4) 2)) c else c
      if bits (rd d 0 4) 6 2 = 1 then (bulk.writeBytes a bs, emit (.bulkWrite a bs) c)
      else (bulk, emit (.hostWrite a bs (bit (rd d 0 4) 3) Config.relaxedOrdering) c)) (bulk, c)).2

/-- Ends a descriptor: `status`, then byte 0 with `own` clear, then the vector, where asked for or in error; every error but
a stop raises EV_DMA_ERROR; the channel halts on every code but OK, and a stop alone discards `recheck` (R445, R446, R448, R451, R589). -/
def endDescriptor (ch : Nat) (d : List Byte) (addr code detail moved : Nat) (c : Chip) : Chip :=
  let c := emit (.hostWrite (addr + 56) (le 1 code ++ le 2 detail ++ le 5 moved)) c
  let c := emit (.hostWrite addr (le 1 (rd d 0 1 - rd d 0 1 % 2))) c
  let c := modDma ch (fun x => { x with
    last := addr, code, detail, completed := wrapU 32 (x.completed + 1), stopRequested := false,
    state := if code = 0 then x.state else .halted, recheck := code != 6 && x.recheck }) c
  let c := if bit (rd d 0 4) 1 || code != 0 then signalVector (2 + ch) c else c
  if code = 0 ∨ code = 6 then c else dmaError ch code detail addr c

/-- The `next` field of the last descriptor, read again, is misaligned (R447): ERR_ALIGN bit 5 goes into that descriptor's status, whose
`bytes_moved` stays; `own` is clear already; the channel halts. DESIGN CHOICE: log entry 259. -/
def nextMisaligned (ch : Nat) (c : Chip) : Chip :=
  let last := (vget c.pcie.dma ch).last
  let c := emit (.hostWrite (last + 56) (le 1 1 ++ le 2 32)) c
  let c := modDma ch (fun x => { x with state := .halted, code := 1, detail := 32 }) c
  dmaError ch 1 32 last (signalVector (2 + ch) c)

/-- The channel goes on at the `next` field of the last descriptor, read again: to IDLE where that ends the chain (R447, R448). -/
def nextReadAgain (ch nextAgain : Nat) (c : Chip) : Chip :=
  let c := emit (.hostRead ((vget c.pcie.dma ch).last + 40) 8) c
  if nextAgain % 64 ≠ 0 then nextMisaligned ch c
  else modDma ch (fun x => { x with stalledAt := 0, cur := nextAgain, state := if nextAgain = 0 then .idle else .active }) c

/-- The channel goes on to the next descriptor, or to IDLE at the end of the chain, which it reads again once while
`recheck` is set (R448). -/
def advanceChain (ch next nextAgain : Nat) (c : Chip) : Chip :=
  let x := vget c.pcie.dma ch
  if x.state ≠ .active then c
  else if next ≠ 0 then modDma ch (fun x => { x with cur := next }) c
  else if !x.recheck then modDma ch (fun x => { x with state := .idle, stalledAt := 0, cur := 0 }) c
  else nextReadAgain ch nextAgain (modDma ch (fun x => { x with recheck := false }) c)

/-- How a transfer can fail (R445, R450): code, cause and bytes moved. A read of host memory fails with any cause, every other read, of the
shared buffer too (R507), with cause 4; a write of the bulk window fails before its last beat, or at that beat, which lies in the last
line. DESIGN CHOICE: log entry 259. -/
def transferFails (d : List Byte) (fault : Nat × Nat × Nat) : Bool :=
  let (code, cause, moved) := fault
  let src := bits (rd d 0 4) 4 2
  let len := rd d 4 4
  let total := len * rd d 32 2
  decide (moved < total) && decide (cause ≤ 4) &&
  match code with
  | 3 => cause == 4 || src == 0
  | 4 => bits (rd d 0 4) 6 2 == 1
  | 5 => bits (rd d 0 4) 6 2 == 1 && decide (total ≤ moved + len)
  | _ => false

/-- Fetches a descriptor with a snooped read and checks it; one that passes goes on as `run` says from its length. A stop pending where the
next descriptor is not the device's halts the channel (R446, R448, R451). DEDUCED: log entry 13. DESIGN CHOICE: log entry 259. -/
def withDescriptor (ch : Nat) (d : List Byte) (run : Nat → Nat → Chip → Chip) (c : Chip) : Chip :=
  let x := vget c.pcie.dma ch
  let fetched := emit (.hostRead x.cur 64) c
  if x.state ≠ .active ∨ x.owner ≠ 0 ∨ !hostWrites c then c
  else if !bit (rd d 0 4) 0 then
    modDma ch (fun x =>
      if x.stopRequested then { x with state := .halted, code := 6, detail := 0, stopRequested := false, recheck := false }
      else if x.recheck then { x with recheck := false }
      else { x with state := .idle, stalledAt := x.cur }) fetched
  else if alignFaults d ≠ 0 then endDescriptor ch d x.cur 1 (alignFaults d) 0 fetched
  else match descriptorFault d with
    | some off => endDescriptor ch d x.cur 2 off 0 fetched
    | none => run x.cur (rd d 4 4 * rd d 32 2) fetched

/-- Runs one descriptor (R446, R448); one that is met with a stop request pending moves nothing (R451). -/
def runDescriptor (ch : Nat) (d data : List Byte) (fault : Option (Nat × Nat × Nat)) (nextAgain : Nat) (bulk : Mem) (c : Chip) : Chip :=
  withDescriptor ch d (fun addr total c =>
    if (vget c.pcie.dma ch).stopRequested then endDescriptor ch d addr 6 0 0 c
    else match fault.filter (transferFails d) with
      | some (code, cause, moved) => endDescriptor ch d addr code cause moved (moveBytes d data bulk moved c)
      | none => advanceChain ch (rd d 40 8) nextAgain (endDescriptor ch d addr 0 0 total (moveBytes d data bulk total c))) c

def execDmaDescriptor (t : Nat) (ch : Fin 32) (desc data : List Byte) (fault : Option (Nat × Nat × Nat)) (nextAgain : Nat) (s : State) :
    Host.Outcome State Fault Refusal :=
  .next (s.run t fun s0 c => runDescriptor ch desc data fault nextAgain s0.bulk c)

/-- A pending stop request ends the descriptor in progress at a line boundary with ERR_STOPPED; the channel halts and no
event is raised (R451). -/
def stopEffect (ch : Nat) (d data : List Byte) (lines : Nat) (bulk : Mem) (c : Chip) : Chip :=
  if !(vget c.pcie.dma ch).stopRequested then c
  else withDescriptor ch d (fun addr total c =>
    let moved := min (rd d 4 4 * lines) total
    endDescriptor ch d addr 6 0 moved (moveBytes d data bulk moved c)) c

def execDmaStopEffect (t : Nat) (ch : Fin 32) (desc data : List Byte) (lines : Nat) (s : State) : Host.Outcome State Fault Refusal :=
  .next (s.run t fun s0 c => stopEffect ch desc data lines s0.bulk c)

/-- A write to DMA_CHAIN (R448, R589): ignored while the channel is ACTIVE or OWNED. -/
def dmaChainWrite (ch value : Nat) (c : Chip) : Chip :=
  let v := wrapU 64 value
  let x := vget c.pcie.dma ch
  if x.state = .active ∨ x.state = .owned then c
  else modDma ch (fun x => { x with chain := v, startWritten := true }) c

def execDmaChainWrite (t : Nat) (ch : Fin 32) (value : Nat) (s : State) : Host.Outcome State Fault Refusal :=
  .next (s.run t fun _ c => dmaChainWrite ch value c)

/-- A doorbell (R441, R448, R451); a misaligned DMA_CHAIN halts the channel with nothing fetched (R447). DEDUCED: log entry 246. -/
def dmaDoorbell (ch nextAgain : Nat) (c : Chip) : Chip :=
  let x := vget c.pcie.dma ch
  if c.modes.lockdown then c
  else if x.state = .owned then dmaError ch 7 0 0 (modDma ch (fun x => { x with code := 7, detail := 0 }) c)
  else if x.state = .active then (if x.stopRequested then c else modDma ch (fun x => { x with recheck := true }) c)
  else if x.startWritten ∧ x.chain % 64 ≠ 0 then
    dmaError ch 1 32 x.chain (modDma ch (fun x => { x with startWritten := false, state := .halted, code := 1, detail := 32 }) c)
  else if x.startWritten then
    modDma ch (fun x => { x with
      startWritten := false, startedSinceReset := true, stalledAt := 0, cur := x.chain,
      state := if x.chain = 0 then .idle else .active }) c
  else if x.state = .halted ∨ !x.startedSinceReset then c
  else if x.stalledAt ≠ 0 then modDma ch (fun x => { x with cur := x.stalledAt, stalledAt := 0, state := .active }) c
  else nextReadAgain ch nextAgain c

def execDmaDoorbell (t : Nat) (ch : Fin 32) (nextAgain : Nat) (s : State) : Host.Outcome State Fault Refusal :=
  .next (s.run t fun _ c => dmaDoorbell ch nextAgain c)

/-- A stop request: taken by an ACTIVE channel, ignored by every other (R451); it discards a recheck (R589). -/
def dmaStopRequest (ch : Nat) (c : Chip) : Chip :=
  modDma ch (fun x => if x.state = .active then { x with stopRequested := true, recheck := false } else x) c

def execDmaStopRequest (t : Nat) (ch : Fin 32) (s : State) : Host.Outcome State Fault Refusal :=
  .next (s.run t fun _ c => dmaStopRequest ch c)

/-- A ring tail written to DMA_TAIL: ignored unless a ring owns the channel; one that breaks R203 is ignored and raises
EV_DMA_ERROR (R589, R465). DEDUCED: log entry 14. -/
def dmaTailWrite (ch value : Nat) (c : Chip) : Chip :=
  match ringOf c ch with
  | none => c
  | some r =>
    let tail := wrapU 32 value
    if r.accepts tail then modDma ch (fun x => { x with tail }) (modRing ch (fun r => { r with tail }) c)
    else dmaError ch 8 0 0 (modDma ch (fun x => { x with code := 8, detail := 0 }) c)

def execDmaTailWrite (t : Nat) (ch : Fin 32) (value : Nat) (s : State) : Host.Outcome State Fault Refusal :=
  .next (s.run t fun _ c => dmaTailWrite ch value c)

/-! ### MSI-X, registers, power state -/

/-- A write to an MSI-X entry (R591): the low two address bits read zero; unmasking sends a pending vector once (R439). -/
def msixWrite (v word value : Nat) (c : Chip) : Chip :=
  let x := wrapU 32 value
  let c := { c with pcie := { c.pcie with msix := vmod c.pcie.msix v fun e =>
    match word with
    | 0 => { e with addrLo := x - x % 4 }
    | 1 => { e with addrHi := x }
    | 2 => { e with data := x }
    | _ => { e with mask := bit x 0 } } }
  releaseVector v c

def execMsixEntryWrite (t : Nat) (vector : Fin 64) (word : Fin 4) (value : Nat) (s : State) : Host.Outcome State Fault Refusal :=
  .next (s.run t fun _ c => msixWrite vector word value c)

/-- A write to BAR0 with no behaviour of its own: SYS_SCRATCH is stored; a mailbox takes the bytes while the host owns it,
`owner` apart (R466, R467); every other write, and every access that is not an aligned 4 or 8 bytes, is ignored (R438).
DEDUCED: log entry 23. -/
def registerWrite (offset length value : Nat) (c : Chip) : Chip :=
  if (length ≠ 4 ∧ length ≠ 8) ∨ offset % length ≠ 0 then c
  else if offset = 0x20 then { c with regs := { c.regs with scratch := wrapU 32 value } }
  else if 0x10000 ≤ offset ∧ offset < 0x18000 then
    let mb := (offset - 0x10000) / 4096
    let m := vget c.mbx.mb mb
    if m.owner then c
    else
      let bytes := putB (fit 4096 m.bytes) (offset % 4096) (le length value)
      { c with mbx := { c.mbx with mb := vset c.mbx.mb mb { m with bytes := putB bytes 9 [0] } } }
  else c

def execRegisterWrite (t offset length value : Nat) (s : State) : Host.Outcome State Fault Refusal :=
  .next (s.run t fun _ c => registerWrite offset length value c)

/-- A write to MBX_RESPONSE clears the bits written as 1 (R588). -/
def mbxResponseWrite (value : Nat) (c : Chip) : Chip :=
  { c with mbx := { c.mbx with response := (List.range 8).foldl (fun r i => if bit value i then setBit r i false else r) c.mbx.response } }

def execMbxResponseWrite (t value : Nat) (s : State) : Host.Outcome State Fault Refusal :=
  .next (s.run t fun _ c => mbxResponseWrite value c)

/-- The upper half last latched of a register (R554). DEDUCED: log entry 23. -/
def latchOf (c : Chip) (offset : Nat) : Nat := ((c.regs.latches.find? fun x => x.1 == offset).map (·.2)).getD 0

/-- Latches the upper half of a register. -/
def setLatch (offset v : Nat) (c : Chip) : Chip :=
  { c with regs := { c.regs with latches := c.regs.latches.filter (fun x => x.1 != offset) ++ [(offset, v)] } }

/-- A read of MBX_IGNORED: all eight bytes or the lower half return the counts and clear them, the lower half latching the
upper; the upper half returns the latch (R588). -/
def mbxIgnoredRead (part : Nat) (c : Chip) : Chip :=
  let v := fromLe (c.mbx.mb.toList.map fun m => BitVec.ofNat 8 m.ignored)
  let clear (c : Chip) : Chip := { c with mbx := { c.mbx with mb := vmapIdx (fun _ m => { m with ignored := 0 }) c.mbx.mb } }
  match part with
  | 0 => emit (.readData (v % 2 ^ 32)) (setLatch 0x18050 (v / 2 ^ 32) (clear c))
  | 1 => emit (.readData (latchOf c 0x18050)) c
  | _ => emit (.readData v) (clear c)

def execMbxIgnoredRead (t : Nat) (part : Fin 3) (s : State) : Host.Outcome State Fault Refusal :=
  .next (s.run t fun _ c => mbxIgnoredRead part c)

/-- A read of SDL_SUBSEC, whole or its lower half, latches the Sundial at one tick: it returns the ns and fraction and
latches SDL_SECONDS and SDL_STATE (R590). -/
def sdlSubsecRead (whole : Bool) (c : Chip) : Chip :=
  let total := sunTotal c.time.sun c.now
  let v := total % 2 ^ 32 + total / 2 ^ 32 % 1000000000 * 2 ^ 32
  let servo := match c.time.servo.state with
    | .free => 0
    | .acquiring => 1
    | .locked => 2
    | .holdover => 3
  let c := { c with regs := { c.regs with
    sdlSeconds := total / 2 ^ 32 / 1000000000 % 2 ^ 48
    sdlState := servo + 4 * c.time.servo.source + 16 * c.time.sun.freqRef + 64 * b2n (timeDegraded c) + 128 * b2n c.time.sun.everSet } }
  if whole then emit (.readData v) c else emit (.readData (v % 2 ^ 32)) (setLatch 0x40000 (v / 2 ^ 32) c)

def execSdlSubsecRead (t : Nat) (upper : Bool) (s : State) : Host.Outcome State Fault Refusal :=
  .next (s.run t fun _ c => sdlSubsecRead upper c)

/-- The endpoint enters D3hot, where it sends nothing, or returns to D0, where pending vectors are sent (R437, R439).
DEDUCED: log entry 15. -/
def powerState (d3 : Bool) (c : Chip) : Chip :=
  let c := { c with pcie := { c.pcie with d3hot := d3 } }
  if d3 then c else (List.range 64).foldl (fun c v => releaseVector v c) c

def execPowerStateChange (t : Nat) (d3hot : Bool) (s : State) : Host.Outcome State Fault Refusal :=
  .next (s.run t fun _ c => powerState d3hot c)

/-! ### Sessions and host-interface reset -/

/-- EV_SESSION (R530). -/
def sessionEvent (mb kind cls id : Nat) (c : Chip) : Chip :=
  raise 0x0E01 1 0x7F (le 1 mb ++ le 1 kind ++ le 1 cls ++ [0] ++ le 4 id ++ le 4 c.sec.failures) c

/-- Ends the session of a mailbox with an event of a kind (R519). -/
def endSession (mb kind : Nat) (c : Chip) : Chip :=
  match vget c.sec.sessions mb with
  | none => c
  | some x => sessionEvent mb kind x.cls x.id { c with sec := { c.sec with sessions := vset c.sec.sessions mb none } }

/-- Ends every session under R471 or R519. -/
def endSessions (c : Chip) : Chip := (List.range 8).foldl (fun c mb => endSession mb 4 c) c

/-- Where the answer of a mailbox's command goes once it is discarded (`respondNow`). -/
def discarded (mb : Nat) : Nat := mb % 8 + 8

/-- The answers that commands in progress still owe go to no mailbox. DEDUCED: log entry 16. -/
def dropAnswers (c : Chip) : Chip :=
  { c with
    port := vmapIdx (fun _ x => { x with
      discovery := x.discovery.map fun d => { d with mb := discarded d.mb }, accesses := x.accesses.map fun a => { a with mb := discarded a.mb } }) c.port
    mbx := { c.mbx with waiting := c.mbx.waiting.map fun a => (discarded a.1, a.2) }
    modes := { c.modes with change := match c.modes.change with
      | .none => .none
      | .selfTest mb => .selfTest (discarded mb)
      | .drain target mb => .drain target (discarded mb) } }

/-- Resets what the host link holds (R436, R586): sessions end, every channel stops, every host ring and the event ring are disabled, MSI-X
and the mailbox registers return to their reset state, while mailbox memory keeps its content; a command in progress completes and its
answer is discarded. DEDUCED: log entry 16. -/
def linkReset (c : Chip) : Chip :=
  let off (r : Ring) : Ring := { r with enabled := false, head := 0, tail := 0, sinceIrq := 0, signalBy := none }
  let c := dropAnswers (endSessions c)
  { c with
    pcie := { c.pcie with d3hot := false, msix := Vector.replicate 64 {}, dma := Vector.replicate 32 {} }
    evq := { c.evq with ring := off c.evq.ring, lostTotal := 0 }
    records := { c.records with ring := off c.records.ring }
    tiles := { c.tiles with ring := off c.tiles.ring }
    view := vmapIdx (fun _ v => { v with ring := off v.ring }) c.view
    time := { c.time with capture := vmapIdx (fun _ x => { x with ring := off x.ring, edges := 0 }) c.time.capture }
    aux := { c.aux with ring := off c.aux.ring }
    life := { c.life with ring := off c.life.ring }
    mbx := { c.mbx with response := 0, mb := vmapIdx (fun _ m =>
      { m with owner := false, ignored := 0, job := none, orphan := m.orphan.or m.job }) c.mbx.mb } }

/-- Width and speed of a trained link (R435): a link that trains to no width or speed the endpoint supports is down. -/
def trained (width speed : Nat) (p : Pcie) : Pcie :=
  let l : EndpointLimits := {}
  if l.widths.contains width && l.speeds.contains speed then { p with linkUp := true, width, speed } else { p with linkUp := false, width := 0, speed := 0 }

end Sys2Proof.Machine
end

