-- ==== Sys2Proof/Machine/Ledger.lean ====
section
/-! DEFINITION. The Ledger of chapter 11, its commit and application apart: transactions, targets, staging, OPEN, ABORT and
STATUS. -/
namespace Sys2Proof.Machine

/-- What a staged entry holds (R297): a kind and an index. -/
def targetOf (e : Entry) : Nat × Nat :=
  let p := e.payload
  match e.code with
  | 0x0500 => (0x0500, rd p 1 1)
  | 0x0501 => (0x0501, rd p 0 1)
  | 0x0504 => (0x0504, rd p 0 1)
  | 0x0507 => if rd p 0 1 = 0 then (0x0507, 0) else (0x0507, 1 + rd p 4 1)
  | 0x0B02 => (0x0B02, rd p 0 1)
  | 0x0A05 => (0x0A05, rd p 0 1)
  | 0x0C01 | 0x0C02 => (0x0C01, 0)
  | code => (code, 0)

/-- Whether a transaction other than `id` holds a target (R298); the model store stays held while its old model drains (R227). -/
def targetHeld (c : Chip) (target : Nat × Nat) (id : Nat) : Bool :=
  (c.ledger.opened ++ c.ledger.armed).any (fun x => x.id != id && x.entries.any fun e => targetOf e == target) ||
  (target.1 == 0x0506 && (c.abacus.held.map (· != id)).getD false)

/-- The modes that accept Ledger commands (R306). DEDUCED: log entry 130. -/
def ledgerModes (c : Chip) : Bool := [4, 5, 6, 7, 8, 9, 10].contains (mode c)

/-- Request bytes of a transaction after `transaction_id` (R301). -/
def Tx.payloadBytes (x : Tx) : Nat := x.entries.foldl (fun n e => n + e.counted.getD e.payload.length) 0

/-- The transaction with an ID, wherever it stands. -/
def findTx (c : Chip) (id : Nat) : Option Tx :=
  (c.ledger.opened ++ c.ledger.armed ++ c.ledger.done).find? fun x => x.id == id

/-- The OPEN transaction with an ID. -/
def openTx (c : Chip) (id : Nat) : Option Tx := c.ledger.opened.find? fun x => x.id == id

/-- Changes an OPEN transaction. -/
def modTx (id : Nat) (f : Tx → Tx) (c : Chip) : Chip :=
  { c with ledger := { c.ledger with opened := c.ledger.opened.map fun x => if x.id = id then f x else x } }

/-- An entry without its staged data: what R301 counts of it stays (R299). DEDUCED: log entry 131. -/
def Entry.discarded (e : Entry) : Entry :=
  { code := e.code, payload := [], counted := some (e.counted.getD e.payload.length), complete := e.complete, invalid := e.invalid }

/-- Removes a transaction from those OPEN and ARMED and keeps its outcome among the last 256; its staged data goes (R299,
R300). DEDUCED: log entry 131. -/
def closeTx (x : Tx) (c : Chip) : Chip :=
  { c with ledger := { c.ledger with
      opened := c.ledger.opened.filter (·.id != x.id), armed := c.ledger.armed.filter (·.id != x.id),
      done := ({ x with entries := x.entries.map Entry.discarded } :: c.ledger.done).take 256 } }

/-- The ID after a given one (R300). DEDUCED: log entry 129. -/
def nextTxId (id : Nat) : Nat := if id = 0xFFFFFFFF then 1 else id + 1

/-- The checks every staging command shares after its own length and fields (R302): entries to add, their targets. -/
def stagingChecks (c : Chip) (id : Nat) (es : List Entry) (added : Nat) : List Check :=
  let bytes := es.foldl (fun n e => n + e.counted.getD e.payload.length) 0
  [stateRule c (ledgerModes c), ownRule stNotFound (id != 0 && (findTx c id).isSome),
   stateRule c (id == 0 || (findTx c id).isNone || (openTx c id).isSome),
   ownRule stNoSpace (match openTx c id with
    | some x => decide (x.entries.length + added ≤ 4096) && decide (x.payloadBytes + bytes ≤ 16777216)
    | none => true),
   ownRule stBusy (!(es.any fun e => targetHeld c (targetOf e) id))]

/-- A range or a rule between fields, judged where `now` is set: a staged request leaves it to the commit (R303). -/
def rangeIf (now : Bool) (k : Check) : Check := { k with ok := !now || k.ok }

/-- The staging of an ordinary entry: the command's own checks, those of the Ledger, then the entry (R302). -/
def stage (code : Nat) (ks : List Check) (j : Job) (c : Chip) : Reply :=
  let id := rd j.payload 0 4
  let e : Entry := { code, payload := j.payload.drop 4 }
  checked (ks ++ stagingChecks c id [e] 1) c
    (reply stOk (modTx id (fun x => { x with entries := x.entries ++ [e] }) c))

/-- EV_LEDGER_REJECTED (R314). -/
def ledgerRejected (id cause index command : Nat) (c : Chip) : Chip :=
  raise 0x0602 2 0x7F (le 4 id ++ le 1 cause ++ [0] ++ le 4 index ++ le 2 command) c

/-- Aborts transactions by a change of mode (R299, R306). -/
def abortAll (xs : List Tx) (c : Chip) : Chip :=
  xs.foldl (fun c x =>
    let c := closeTx { x with state := .aborted } c
    if x.internal then c else ledgerRejected x.id 2 0xFFFFFFFF 0 c) c

/-- Aborts every ARMED transaction (R306). -/
def abortArmed (c : Chip) : Chip := abortAll c.ledger.armed c

/-- Aborts every OPEN transaction (R306). -/
def abortOpen (c : Chip) : Chip := abortAll c.ledger.opened c

/-- Code of a transaction state (R299). -/
def TxState.code : TxState → Nat
  | .open_ => 0
  | .armed => 1
  | .applied => 2
  | .rejected => 3
  | .aborted => 4

/-- Opens a transaction (R300, R301). -/
def newTx (rejectLate : Bool) (tag : Nat) (internal : Bool) (c : Chip) : Nat × Chip :=
  let id := c.ledger.nextId
  (id, { c with ledger := { c.ledger with
      nextId := nextTxId id, opened := c.ledger.opened ++ [{ id, rejectLate, tag, internal }] } })

/-- Transactions OPEN or ARMED. -/
def txCount (c : Chip) : Nat := c.ledger.opened.length + c.ledger.armed.length

/-- LEDGER.OPEN. DEDUCED: log entry 129. -/
def ledgerOpen (_ : Env) (j : Job) (c : Chip) : Reply :=
  let p := j.payload
  checked [lenIs 8 j, inRange p 0 1 0 1, reserved p 1 3, stateRule c (ledgerModes c), ownRule stNoSpace (txCount c < 64)] c
    (let (id, c) := newTx (rd p 0 1 == 1) (rd p 4 4) false c
     replyBody (le 4 id ++ le 4 (txCount c)) c)

def execLedgerOpen (t : Nat) (mb : Fin 8) (s : State) : Host.Outcome State Fault Refusal :=
  .next (s.command 0x0600 t mb ledgerOpen)

/-- LEDGER.ABORT (R312). DEDUCED: log entry 126. -/
def ledgerAbort (_ : Env) (j : Job) (c : Chip) : Reply :=
  let id := rd j.payload 0 4
  checked [lenIs 4 j, stateRule c (ledgerModes c), ownRule stNotFound (findTx c id).isSome] c
    (match (c.ledger.opened ++ c.ledger.armed).find? fun x => x.id == id with
     | some x => replyBody (le 1 4 ++ zeros 15) (closeTx { x with state := .aborted } c)
     | none =>
       let x := (findTx c id).getD { id, rejectLate := false, tag := 0 }
       { status := stBadState, detail := mode c, body := le 1 x.state.code ++ zeros 7 ++ le 8 x.applied, chip := c })

def execLedgerAbort (t : Nat) (mb : Fin 8) (s : State) : Host.Outcome State Fault Refusal :=
  .next (s.command 0x0602 t mb ledgerAbort)

/-- LEDGER.STATUS. DEDUCED: log entry 130. -/
def ledgerStatus (_ : Env) (j : Job) (c : Chip) : Reply :=
  let id := rd j.payload 0 4
  let counts := le 4 c.ledger.opened.length ++ le 4 c.ledger.armed.length
  checked [lenIs 4 j, ownRule stNotFound (id == 0 || (findTx c id).isSome)] c
    (match if id = 0 then none else findTx c id with
     | none => replyBody ([0xFF] ++ zeros 31 ++ counts ++ zeros 4) c
     | some x => replyBody (le 1 x.state.code ++ le 1 (b2n x.rejectLate) ++ le 1 x.pointKind ++ le 1 x.rejectReason ++
         le 4 x.entries.length ++ le 4 x.payloadBytes ++ le 4 x.entryIndex ++ le 8 x.pointMd ++ le 8 x.applied ++ counts ++ le 4 x.tag) c)

def execLedgerStatus (t : Nat) (mb : Fin 8) (s : State) : Host.Outcome State Fault Refusal :=
  .next (s.command 0x0603 t mb ledgerStatus)

/-- Two entries set the same pitch, grid, seam, filter unit, roll channel, or parameters or map of a lane, as a whole. -/
def sameSetting (e f : Entry) : Bool :=
  let same (off len : Nat) : Bool := rd e.payload off len == rd f.payload off len
  e.code == f.code && (match e.code with
    | 0x0303 | 0x0304 => true
    | 0x0500 => same 0 2 && rd e.payload 0 1 != 1
    | 0x0501 | 0x0504 => same 0 1
    | 0x0507 => same 0 1 && (rd e.payload 0 1 == 0 || same 4 1)
    | _ => false)

/-- No entry after a place in a list of entries sets the same again (R303). DEDUCED: log entry 125. -/
def inForce (es : List Entry) (i : Nat) (e : Entry) : Bool := !((es.drop (i + 1)).any (sameSetting e))

end Sys2Proof.Machine
end

