-- ==== Sys2Proof/Machine/Sarec.lean ====
section
/-! DEFINITION. The links of a gang: which of them join which members, the paths that are left, and what is sent over them (R393, R396,
R402, R403). -/
namespace Sys2Proof.Machine

def modGang (f : Gang → Gang) (c : Chip) : Chip := { c with gang := f c.gang }

/-- Link b of a gang joins the members at positions b and b + 1; in a ring the last one joins the last member to member 0 (R393). -/
def GangCfg.usesLink (g : GangCfg) (b : Nat) : Bool := decide (1 < g.size) && decide (b < g.size) && (g.ring || decide (b + 1 < g.size))

/-- The link at a Sarec port of this member: SA0 faces the next lower position, SA1 the next higher one (R393). -/
def GangCfg.linkAt (g : GangCfg) (port : Nat) : Nat := if port = 0 then (g.position + g.size - 1) % g.size else g.position

/-- A Sarec port that the member's place in the chain or ring uses (R393). -/
def GangCfg.uses (g : GangCfg) (port : Nat) : Bool := g.usesLink (g.linkAt port)

/-- The bit of this member's own position. -/
def GangCfg.self (g : GangCfg) : Nat := 2 ^ g.position

/-- A link of the gang carries frames. -/
def Gang.linkUp (g : Gang) (b : Nat) : Bool := g.cfg.usesLink b && vget g.links b

/-- A Sarec port of this member carries frames. -/
def Gang.portUp (g : Gang) (port : Nat) : Bool := g.linkUp (g.cfg.linkAt port)

/-- The members exchange lines: the gang has formed and is not dissolved. -/
def Gang.formed (g : Gang) : Bool := [GangState.joined, .island, .rejoining].contains g.state

/-- How many links lead up from one position to another, where each of them carries frames. -/
def Gang.stepsUp (g : Gang) (p q : Nat) : Option Nat :=
  let d := (q + g.cfg.size - p) % g.cfg.size
  if (List.range d).all fun i => g.linkUp ((p + i) % g.cfg.size) then some d else none

/-- The members a path still leads to, either way (R402, R403). -/
def Gang.reachable (g : Gang) : Nat :=
  packBits ((List.range g.cfg.size).map fun p => (g.stepsUp g.cfg.position p).isSome || (g.stepsUp p g.cfg.position).isSome)

/-- The drive-side neighbour is in this member's partition. -/
def Gang.hasAbove (g : Gang) : Bool := g.formed && decide (g.cfg.position + 1 < g.cfg.size) && bit g.members (g.cfg.position + 1)

/-- The tending-side neighbour is in this member's partition. -/
def Gang.hasBelow (g : Gang) : Bool := g.formed && decide (0 < g.cfg.position) && bit g.members (g.cfg.position - 1)

/-- The port over which the tending-side neighbour is reached: SA0, or SA1 where that link is lost and the other way round the ring leads
to it (R402). -/
def Gang.portBelow (g : Gang) : Option Nat :=
  if g.portUp 0 then some 0 else if (g.stepsUp g.cfg.position (g.cfg.position - 1)).isSome then some 1 else none

/-- The port that leads to the member at a position the shorter way (R402). DEDUCED: log entry 172. -/
def Gang.portToward (g : Gang) (p : Nat) : Option Nat :=
  match g.stepsUp g.cfg.position p, g.stepsUp p g.cfg.position with
  | some a, some b => some (if a ≤ b then 1 else 0)
  | some _, none => some 1
  | none, some _ => some 0
  | none, none => none

/-- What the member at position q sends to all reaches the member at p on the way up, which is the shorter one. -/
def Gang.servedUp (g : Gang) (q p : Nat) : Bool :=
  match g.stepsUp q p, g.stepsUp p q with
  | some a, some b => decide (a ≤ b)
  | some _, none => true
  | none, _ => false

/-- The ports over which this member passes on what the member at position q sends to the members of a mask: away from q, each member once
(R396, R402). DEDUCED: log entry 172. -/
def Gang.portsFrom (g : Gang) (q mask : Nat) : List Nat :=
  let p := g.cfg.position
  let up := (p + 1) % g.cfg.size
  let down := (p + g.cfg.size - 1) % g.cfg.size
  (if up ≠ q && g.portUp 1 && bit mask up && g.servedUp q up && (p = q || g.servedUp q p) then [1] else []) ++
  (if down ≠ q && g.portUp 0 && bit mask down && !g.servedUp q down && (p = q || !g.servedUp q p) then [0] else [])

/-- Sends a frame over Sarec ports. -/
def sendSarec (ports : List Nat) (kind : Nat) (data : List Byte) (c : Chip) : Chip := ports.foldl (fun c l => emit (.sarec l kind data) c) c

/-- The device follows the triggers of another member, or of none: the generator does not run (R396, R403, R404). -/
def followsTags (c : Chip) : Bool := c.gang.formed && (c.gang.role == 1 || c.gang.role == 3)

/-- MD counts this device's own encoder: not on a member that follows another's triggers without a copy of it (R397). -/
def mdCounts (c : Chip) : Bool := !followsTags c || c.gang.cfg.localEncoder

end Sys2Proof.Machine
end

