-- ==== Sys2Proof/Machine/Web.lean ====
section
/-! DEFINITION. The web as a clock (chapter 2): encoder channels, MD, speed, trigger targets and the issue of a trigger. -/
namespace Sys2Proof.Machine

/-! ### Counting (R26 to R32) -/

/-- The inputs of a channel as its form sees them: inverted, then swapped (R28). -/
def Enc.seen (e : Enc) (a b : Bool) : Bool × Bool :=
  let a := xor a e.invertA
  let b := xor b e.invertB
  if e.swapAb then (b, a) else (a, b)

/-- Place of a pair of levels in the forward cycle 00, 01, 11, 10. -/
def quadIndex (a b : Bool) : Nat := if a then (if b then 2 else 3) else b2n b

/-- What a change of accepted levels counts: a number of counts, or none for an illegal transition (R28, R29, R31). A simultaneous
change is illegal in quadrature form alone, and a simultaneous up/down rise is no count at all. DEDUCED: log entry 248. -/
def countStep (form : EncForm) (a0 b0 a1 b1 : Bool) : Option Int :=
  match form with
  | .quadrature =>
    match (quadIndex a1 b1 + 4 - quadIndex a0 b0) % 4 with
    | 0 => some 0
    | 1 => some 1
    | 3 => some (-1)
    | _ => none
  | .stepDir => some (if !a0 && a1 then (if b0 then 1 else -1) else 0)
  | .upDown => some ((if !a0 && a1 then 1 else 0) - (if !b0 && b1 then 1 else 0))

/-- Counts against the direction state that change it (R36); a hysteresis of 0 acts as 1. DEDUCED: log entry 248. -/
def Enc.hysteresis (e : Enc) : Nat := max 1 e.directionHysteresis

/-- The 4 ns tick of an instant (R26, R37, R47). DESIGN CHOICE: log entry 2. -/
def tickAt (t : Nat) : Nat := t - t % 4

/-- The tick of the present instant. DESIGN CHOICE: log entry 2. -/
def tickNow (c : Chip) : Nat := tickAt c.now

/-- One count in a direction at time t: count, phase, revolutions (R32), motion (R37) and direction state (R36). -/
def Enc.count1 (e : Enc) (fwd : Bool) (t : Nat) : Enc :=
  let began := e.stopped || e.times.isEmpty || e.lastForward != fwd
  let top := decide (e.phase + 1 = e.countsPerRev)
  let phase := if e.countsPerRev = 0 then e.phase
    else if fwd then (if top then 0 else e.phase + 1) else if e.phase = 0 then e.countsPerRev - 1 else e.phase - 1
  let rev : Int := if e.countsPerRev = 0 then 0 else if fwd then (if top then 1 else 0) else if e.phase = 0 then -1 else 0
  let against := if fwd = e.forward then 0 else e.against + 1
  let turned := decide (e.hysteresis ≤ against) && fwd != e.forward
  { e with
    count := wrapS 64 (e.count + if fwd then 1 else -1), phase, revolutions := wrapS 48 (e.revolutions + rev),
    times := if began then [t] else (t :: e.times).take 1026, lastForward := fwd, stopped := false,
    forward := if turned then fwd else e.forward, against := if turned then 0 else against,
    backRun := if fwd then 0 else e.backRun + 1 }

/-! ### Speed and MD (R37 to R44) -/

/-- Speed as a fraction of wu per ns scaled by 2^32: numerator and denominator; 0/1 where there is none (R37). -/
def Enc.speed (e : Enc) (now : Nat) : Nat × Nat :=
  match e.times with
  | tl :: tp :: rest =>
    if e.stopped then (0, 1)
    else
      let used := min (2 ^ e.speedAvgLog2) (rest.length + 1)
      let first := (tl :: tp :: rest).getD used tl
      let (n, d) := (e.wuPerCount * used, tl - first)
      if tl - tp < now - tl ∧ e.wuPerCount * d < n * (now - tl) then (e.wuPerCount, now - tl) else (n, max d 1)
  | _ => (0, 1)

/-- Speed in µm/s, to nearest: 16 wu are a µm. DESIGN CHOICE: log entry 37. -/
def Enc.speedUm (e : Enc) (now : Nat) : Nat :=
  let (n, d) := e.speed now
  (divNearest (n * 1000000000) (d * 16 * 2 ^ 32)).toNat

/-- The main channel (R39). -/
def mainEnc (c : Chip) : Enc := vget c.enc c.trig.mainChannel

/-- MD without interpolation, from the count (R39, R40, R550). -/
def mdOfCount (c : Chip) (count : Int) : Int :=
  c.trig.mdBase + ((count - c.trig.countRef) * (mainEnc c).wuPerCount) / 2 ^ 32

/-- Interpolated MD at time t (R43); 0 before the first anchor (R592); the MD of the last tag on a member without an encoder to count
(R397). -/
def mdAt (c : Chip) (t : Nat) : Nat :=
  let e := mainEnc c
  if !c.trig.anchored then 0
  else
    let (n, d) := e.speed t
    if e.forward && e.lastForward && !e.stopped && n != 0 && mdCounts c then
      let tc := max (e.times.headD 0) c.trig.anchorAt
      min (2 ^ 64 - 1) (c.trig.mdCount + min (n * (t - tc) / (d * 2 ^ 32)) (ceilDiv e.wuPerCount (2 ^ 32) - 1))
    else c.trig.mdCount

/-- MD now. -/
def mdNow (c : Chip) : Nat := mdAt c c.now

/-- The high-water mark now (R44). -/
def hwmNow (c : Chip) : Nat := max c.trig.hwm (mdNow c)

/-- Target j (R46). -/
def targetMd (c : Chip) (j : Nat) : Nat := c.trig.base + j * c.trig.gridNum / c.trig.gridDen

/-- The largest j whose target is at or below an MD. -/
def lastTargetAt (c : Chip) (md : Nat) : Nat :=
  if c.trig.gridNum = 0 ∨ md < c.trig.base then 0
  else ((md - c.trig.base + 1) * c.trig.gridDen - 1) / c.trig.gridNum

/-- Targets at or below the high-water mark are passed over (R44). -/
def passTargets (c : Chip) : Chip :=
  { c with trig := { c.trig with j := max c.trig.j (lastTargetAt c (hwmNow c) + 1), held := [] } }

/-- Anchors MD (R39). -/
def anchorMd (c : Chip) : Chip :=
  { c with trig := { c.trig with
      anchored := true, anchorAt := c.now, countRef := (mainEnc c).count, mdBase := c.trig.mdStart, mdCount := c.trig.mdStart,
      hwm := c.trig.mdStart, mdPrev := c.trig.mdStart, base := c.trig.mdStart, j := 1,
      gridNum := c.trig.pitchNum, gridDen := c.trig.pitchDen, gridAt := 0, rebase := false } }

/-- Takes the main channel's new count into MD and the high-water mark, where MD counts it (R397); a result below 0 or above 64 bits saturates and
sets the position-suspect flag of the next line (R40, R550). DEDUCED: log entry 33. -/
def mdFollow (before : Nat) (c : Chip) : Chip :=
  if !c.trig.anchored || !mdCounts c then c
  else
    let x := mdOfCount c (mainEnc c).count
    let md := (clampI 0 (2 ^ 64 - 1) x).toNat
    noteSaturated 0x0301 40 0 64 md { c with trig := { c.trig with
        mdCount := md, mdPrev := before, hwm := max (max c.trig.hwm before) md,
        saturatePending := c.trig.saturatePending || decide (x ≠ md) || md == 2 ^ 64 - 1 } }

/-- EV_ENC_DIRECTION and the channel's own vector (R36). -/
def directionEvent (ch : Nat) (c : Chip) : Chip :=
  let e := vget c.enc ch
  let c := raise 0x0300 1 ch (le 1 ch ++ le 1 (b2n e.forward) ++ [0, 0] ++ leS 8 e.count) c
  if 36 ≤ e.eventVector then signalVector e.eventVector c else c

/-- What MD must reach for the trigger of the i-th target from the next on: the target and the high-water mark (R44). -/
def goalAhead (c : Chip) (i : Nat) : Nat := max (targetMd c (c.trig.j + i)) c.trig.hwm

/-- What MD must reach for the next trigger (R44). -/
def triggerGoal (c : Chip) : Nat := goalAhead c 0

/-- A partition leader that was a follower waits: for the instants of the tags it had received (R404), and from the join point on for the
leader's tag (R407). DEDUCED: log entry 173. -/
def leaderWaits (c : Chip) : Bool :=
  c.gang.formed && c.gang.role == 2 &&
  (!c.gang.tags.isEmpty || (c.gang.state == .rejoining && (c.gang.joinMd.map fun m => decide (m ≤ triggerGoal c)).getD false))

/-- Whether the device's own generator triggers: a triggering mode, anchored, a pitch in force, and no member that follows another or
an untriggered partition (R396, R404). DEDUCED: log entry 30. -/
def generatorRuns (c : Chip) : Bool :=
  triggering c && c.trig.anchored && c.trig.gridNum != 0 && !followsTags c && !leaderWaits c

/-- The instant from which the present motion and the present targets are known: that of the last count, of the anchor, or of the trigger
at which the grid began. -/
def motionSince (c : Chip) : Nat := max ((mainEnc c).times.headD 0) (max c.trig.anchorAt c.trig.gridAt)

/-- The tick at which MD reaches the goal of the i-th target at the speed of the last count, however many counts ahead it lies; none
where there is no speed or the motion is not forward (R43, R47, R48). DEDUCED: log entry 30. -/
def predictedTick (c : Chip) (i : Nat) : Option Nat :=
  let e := mainEnc c
  let tl := e.times.headD 0
  let (n, d) := e.speed tl
  if n = 0 || e.stopped || !e.forward || !e.lastForward then none
  else some (4 * ceilDiv (max tl c.trig.anchorAt + ceilDiv ((goalAhead c i - c.trig.mdCount) * (d * 2 ^ 32)) n) 4)

/-- The earlier of the two leads of a trigger, by its length (R47). -/
def longestLead : Nat := max Config.cxpLead Config.trigoutLead

/-- The instants, from the i-th target on, whose earlier lead has begun by now (R48). -/
def leadsBegun : Nat → Nat → Chip → List (Nat × Nat)
  | 0, _, _ => []
  | n + 1, i, c =>
    match predictedTick c i with
    | some p => if p ≤ tickNow c + longestLead then (p, motionSince c) :: leadsBegun n (i + 1) c else []
    | none => []

/-- The trigger instants computed so far hold where their earlier lead has begun as the motion changes (R48). DEDUCED: log entry 30. -/
def holdInstant (c : Chip) : Chip :=
  if !generatorRuns c then c
  else { c with trig := { c.trig with held := c.trig.held ++ leadsBegun (longestLead + 1) c.trig.held.length c } }

/-- One count of a channel, forward or backward, with its consequences for MD when the channel is the main encoder, and for the axes whose
encoder it is. -/
def takeCount (ch : Nat) (fwd : Bool) (c : Chip) : Chip :=
  let c0 := c
  let before := mdNow c
  let e := vget c.enc ch
  let e' := e.count1 fwd (tickNow c)
  let main := decide (ch = c.trig.mainChannel)
  let c := if main then holdInstant c else c
  let c := { c with enc := vset c.enc ch e' }
  let c := if main then mdFollow before c else c
  let c := if main && decide (e.directionHysteresis < e'.backRun) then { c with trig := { c.trig with reversePending := true } } else c
  let c := noteDeviations ch c0 c
  if e'.forward = e.forward then c else directionEvent ch c

/-- An illegal transition (R29): the count stays, and the main channel becomes suspect. -/
def illegalTransition (ch : Nat) (c : Chip) : Chip :=
  let e := vget c.enc ch
  let (n, c) := satAdd 0x0301 24 ch 32 e.illegalCount 1 c
  let c := { c with enc := vmod c.enc ch fun e => { e with illegalCount := n, suspect := e.suspect || decide (ch = c.trig.mainChannel) } }
  raiseLimited 0x0301 2 ch ch (le 1 ch ++ [0] ++ zeros 2 ++ leS 8 e.count) 2 2 false 1 c

/-- Whether the glitch filter accepts a level seen in a number of consecutive samples (R26). -/
def Enc.accepts (e : Enc) (samples : Nat) : Bool := decide (e.glitchSamples ≤ samples)

/-- The sampled levels of A and B, each accepted once seen often enough (R26); what the accepted levels change counts (R28 to R31). An
unconfigured channel does not count (R598). -/
def encoderLevels (ch : Nat) (a b : Bool) (heldA heldB : Nat) (c : Chip) : Chip :=
  let e := vget c.enc ch
  let pinA := if e.accepts heldA then a else e.pinA
  let pinB := if e.accepts heldB then b else e.pinB
  let (a0, b0) := e.seen e.pinA e.pinB
  let (a1, b1) := e.seen pinA pinB
  let c := { c with enc := vset c.enc ch { e with rawA := a, rawB := b, pinA, pinB } }
  if !e.configured then c
  else match countStep e.form a0 b0 a1 b1 with
    | none => illegalTransition ch c
    | some n => if n = 1 then takeCount ch true c else if n = -1 then takeCount ch false c else c

/-- ENCODER_COUNT. -/
def execEncoderCount (t : Nat) (ch : Fin 8) (a b : Bool) (heldA heldB : Nat) (s : State) : Host.Outcome State Fault Refusal :=
  .next (s.run t fun _ c => encoderLevels ch a b heldA heldB c)

/-! ### Index and standstill (R33 to R38) -/

/-- The deviation of an index: the phase mapped into the half-open range around 0 (R34). For an odd `counts_per_rev` the range is
symmetric. DEDUCED: log entry 248. -/
def Enc.deviation (e : Enc) : Int := if e.countsPerRev ≤ 2 * e.phase then (e.phase : Int) - e.countsPerRev else e.phase

/-- Phase set to 0 and the revolution count corrected (R34). -/
def Enc.realigned (e : Enc) : Enc :=
  { e with phase := 0, revolutions := if e.deviation < 0 then wrapS 48 (e.revolutions + 1) else e.revolutions }

/-- An index (R33, R34, R30); the first index, which has no deviation, leaves `suspect` as it is. DEDUCED: log entries 31 and 248. -/
def takeIndex (ch : Nat) (c : Chip) : Chip :=
  let e := vget c.enc ch
  if !e.indexed then { c with enc := vset c.enc ch { e with phase := 0, indexed := true } }
  else
    let dev := e.deviation
    let inside := decide (dev.natAbs ≤ e.indexTolerance)
    let e' := { (if e.realign then e.realigned else e) with lastDeviation := dev, suspect := e.suspect && !inside }
    let c := { c with enc := vset c.enc ch e' }
    if inside then c
    else
      let c := if e.realign then { c with trig := { c.trig with realignPending := true }, enc := vmod c.enc ch fun e => { e with realignedBeyond := true } } else c
      raise 0x0302 2 ch (le 1 ch ++ le 1 (b2n e.realign) ++ [0, 0] ++ leS 4 dev ++ leS 4 e'.revolutions) c

/-- A sampled level of Z, accepted once seen often enough (R26): an index is the rising edge in forward motion and the falling edge in
backward motion (R33). A channel without a phase counter takes no index. DEDUCED: log entries 31 and 248. -/
def indexLevel (ch : Nat) (z : Bool) (held : Nat) (c : Chip) : Chip :=
  let e := vget c.enc ch
  let pinZ := if e.accepts held then z else e.pinZ
  let z0 := xor e.pinZ e.invertZ
  let z1 := xor pinZ e.invertZ
  let c := { c with enc := vset c.enc ch { e with rawZ := z, pinZ } }
  if e.configured && e.indexEnable && e.countsPerRev != 0 && (if e.forward then !z0 && z1 else z0 && !z1) then takeIndex ch c else c

/-- INDEX_PULSE. -/
def execIndexPulse (t : Nat) (ch : Fin 8) (z : Bool) (held : Nat) (s : State) : Host.Outcome State Fault Refusal :=
  .next (s.run t fun _ c => indexLevel ch z held c)

/-- `zero_speed_timeout` has passed since the last count (R38). -/
def Enc.timedOut (e : Enc) (now : Nat) : Bool := decide (e.times.headD 0 + e.zeroSpeedTimeout * 1000000 ≤ now)

/-- No count for `zero_speed_timeout` (R38): nothing happens to a channel already stopped or never counted, nor before that time. -/
def zeroSpeed (ch : Nat) (c : Chip) : Chip :=
  let e := vget c.enc ch
  if !e.configured || e.stopped || !e.timedOut c.now then c
  else
    let c := if ch = c.trig.mainChannel then { holdInstant c with trig := { (holdInstant c).trig with hwm := hwmNow c } } else c
    raise 0x0303 1 ch (le 1 ch ++ zeros 3 ++ leS 8 e.count)
      { c with enc := vset c.enc ch { e with stopped := true, times := [] } }

/-- ZERO_SPEED_TIMEOUT. -/
def execZeroSpeedTimeout (t : Nat) (ch : Fin 8) (s : State) : Host.Outcome State Fault Refusal :=
  .next (s.run t fun _ c => zeroSpeed ch c)

/-! ### ENC.CONFIGURE and ENC.GET_STATE (R54, R598) -/

/-- While triggers run, the channels ENC.CONFIGURE refuses: the main channel, the encoder of an enabled roll channel, and
the encoder of an axis that is not DISABLED (R54). -/
def encInUse (c : Chip) (ch : Nat) : Bool :=
  [5, 6, 7, 8, 9, 10].contains (mode c) &&
  (ch == c.trig.mainChannel || c.rotunda.rolls.toList.any (fun r => r.enable && r.encoder == ch) ||
   c.axis.toList.any fun x => x.state != .disabled && x.cfg.encoder == ch)

/-- ENC.CONFIGURE: the channel starts anew, forward and stopped, the levels then seen become the accepted ones and a pending acceptance
is abandoned (R598); for the main channel MD is re-based without moving (R41).
DEDUCED: log entry 32. -/
def encConfigure (_ : Env) (j : Job) (c : Chip) : Reply :=
  let p := j.payload
  let ch := rd p 0 1
  let f := rd p 3 1
  let v := rd p 24 1
  checked
    [lenIs 32 j, inRange p 0 1 0 7, inRange p 1 1 0 2, inRange p 2 1 0 15, param 3 (f < 32), inRange p 10 1 0 1,
     inRange p 12 1 0 10, reserved p 13 1, inRange p 14 2 1 10000, param 16 (rd p 16 8 != 0), param 24 (v == 0 || (36 ≤ v && v ≤ 63)),
     reserved p 25 7, stateRule c (!encInUse c ch)] c
    (let e := vget c.enc ch
     let e' : Enc := {
       configured := true, form := match rd p 1 1 with
         | 0 => .quadrature
         | 1 => .stepDir
         | _ => .upDown
       glitchSamples := rd p 2 1, invertA := bit f 0, invertB := bit f 1, invertZ := bit f 2, swapAb := bit f 3, indexEnable := bit f 4,
       countsPerRev := rd p 4 4, indexTolerance := rd p 8 2, realign := rd p 10 1 == 1, directionHysteresis := rd p 11 1,
       speedAvgLog2 := rd p 12 1, zeroSpeedTimeout := rd p 14 2, wuPerCount := rd p 16 8, eventVector := v,
       pinA := e.rawA, pinB := e.rawB, pinZ := e.rawZ, rawA := e.rawA, rawB := e.rawB, rawZ := e.rawZ, lastDeviation := e.lastDeviation, forward := true, stopped := true }
     let main := ch == c.trig.mainChannel && c.trig.anchored
     let c := if main then { c with trig := { c.trig with hwm := hwmNow c } } else c
     let c := { c with enc := vset c.enc ch e' }
     reply stOk (if main then { c with trig := { c.trig with mdBase := c.trig.mdCount, countRef := 0 } } else c))

def execEncConfigure (t : Nat) (mb : Fin 8) (s : State) : Host.Outcome State Fault Refusal :=
  .next (s.command 0x0300 t mb encConfigure)

/-- State bits of a channel: forward, stopped, indexed, suspect. -/
def Enc.stateBits (e : Enc) : Nat := packBits [e.forward, e.stopped, e.indexed, e.suspect]

/-- Next trigger target, 0 before the first anchor. -/
def nextTarget (c : Chip) : Nat := if c.trig.anchored then targetMd c c.trig.j else 0

/-- ENC.GET_STATE: the state as it stands, then the suspect state cleared where asked for (R30, R598). DEDUCED: log entry 32. -/
def encGetState (_ : Env) (j : Job) (c : Chip) : Reply :=
  let p := j.payload
  let ch := rd p 0 1
  let e := vget c.enc ch
  let main := ch == c.trig.mainChannel
  checked [lenIs 2 j, inRange p 0 1 0 7, inRange p 1 1 0 1] c
    (let body := if !e.configured then zeros 72 else
       leS 8 e.count ++ leS 8 e.revolutions ++ le 4 e.phase ++ le 4 (satU 32 (e.speedUm c.now)) ++ le 4 e.illegalCount ++
       leS 4 e.lastDeviation ++ le 2 e.stateBits ++ zeros 6 ++ le 8 (if main then mdNow c else 0) ++
       le 8 (if main && c.trig.anchored then hwmNow c else 0) ++ le 8 (nextTarget c) ++ le 8 c.trig.number
     replyBody body (if bit (rd p 1 1) 0 then { c with enc := vset c.enc ch { e with suspect := false } } else c))

def execEncGetState (t : Nat) (mb : Fin 8) (s : State) : Host.Outcome State Fault Refusal :=
  .next (s.command 0x0301 t mb encGetState)

/-! ### Staged pitch and geometry (R46, R49, R56) -/

/-- TRIG.SET_PITCH. -/
def trigSetPitch (_ : Env) (j : Job) (c : Chip) : Reply := stage 0x0303 [lenIs 12 j, reserved j.payload 10 2] j c

def execTrigSetPitch (t : Nat) (mb : Fin 8) (s : State) : Host.Outcome State Fault Refusal :=
  .next (s.command 0x0303 t mb trigSetPitch)

/-- WEB.SET_GEOMETRY. -/
def webSetGeometry (_ : Env) (j : Job) (c : Chip) : Reply := stage 0x0304 [lenIs 80 j] j c

def execWebSetGeometry (t : Nat) (mb : Fin 8) (s : State) : Host.Outcome State Fault Refusal :=
  .next (s.command 0x0304 t mb webSetGeometry)

/-- A lane's line delay, halves rounded up (R49). -/
def lineDelay (c : Chip) (l : Nat) : Nat :=
  let n := vget c.trig.geo.viewOffset l * c.trig.pitchDen
  if c.trig.pitchNum = 0 then 0 else (2 * n + c.trig.pitchNum) / (2 * c.trig.pitchNum)

/-- R46: the range of the pitch. -/
def pitchOk (num den : Nat) : Bool := den != 0 && decide (8 * den ≤ num) && decide (num ≤ 16000000 * den)

/-- The CD of the last column stays in 32 bits (R56). -/
def lastColumnOk (cdPitch : Nat) (column0 : Int) (count : Nat) : Bool :=
  decide (column0 + (count - 1 : Nat) * cdPitch ≤ 2 ^ 31 - 1) && decide (-(2 ^ 31) ≤ column0 + (count - 1 : Nat) * cdPitch)

/-- The line-delay limit of R49 and, where a lane is mapped, the offset-0 rule of R56. -/
def delaysOk (c : Chip) : Bool :=
  let ls := mappedLanes c
  ls.isEmpty || (ls.all (fun l => decide (lineDelay c l ≤ 48)) && ls.any fun l => vget c.trig.geo.viewOffset l == 0)

/-- The column a field of WEB.SET_GEOMETRY sets. -/
def geometryOf (p : List Byte) : Geometry :=
  { cdPitch := rd p 0 4, column0 := rdS p 4 4, columnCount := rd p 8 4,
    viewOffset := vmapIdx (fun l _ => rd p (12 + 4 * l) 4) (Vector.replicate 16 0) }

/-- Ranges of a geometry by itself (R56). -/
def geometryOk (g : Geometry) : Bool :=
  decide (16 ≤ g.cdPitch) && decide (g.cdPitch ≤ 65535) && decide (1 ≤ g.columnCount) && decide (g.columnCount ≤ 262144) &&
  lastColumnOk g.cdPitch g.column0 g.columnCount

/-! ### Triggers (R44 to R52) -/

/-- MD just before the tick t, from the counts so far. -/
def mdBefore (c : Chip) (t : Nat) : Nat :=
  if (mainEnc c).times.head? = some t then c.trig.mdPrev else mdAt c (t - 4)

/-- The trigger instant of the next target, where it was known ahead: held, or computed from the speed (R47, R48). -/
def knownInstant (c : Chip) : Option Nat := (c.trig.held.head?.map (·.1)).or (predictedTick c 0)

/-- The pending target was reached before the present tick (R51). -/
def reachedBefore (c : Chip) : Bool :=
  match knownInstant c with
  | some h => decide (h < tickNow c)
  | none => decide (targetMd c c.trig.j ≤ mdBefore c (tickNow c))

/-- Targets skipped at a trigger issued now: those reached, and followed by another reached, before it (R51). DEDUCED: log entry 30. -/
def skippedTargets (c : Chip) : Nat := if reachedBefore c then lastTargetAt c (mdBefore c (tickNow c)) - c.trig.j else 0

/-- A trigger falls due: its instant has come, or where none was known its target is reached at or beyond the high-water mark (R44, R47,
R48), and the minimum period has passed (R51). DEDUCED: log entry 30. -/
def triggerDue (c : Chip) : Bool :=
  generatorRuns c &&
  ((c.trig.lastTrigger.map fun t => decide (t + c.trig.minPeriod ≤ tickNow c)).getD true) &&
  (match knownInstant c with
   | some h => decide (h ≤ tickNow c)
   | none => decide (triggerGoal c ≤ mdAt c (tickNow c)))

/-- The flags of the tag of a trigger (R52), those of a transaction that applies at it and of the stitched line apart; one applied in
CONFIGURE marks its N0, the next trigger (R311). DEDUCED: log entry 33. -/
def tagFlags (late skipped : Bool) (c : Chip) : Nat :=
  packBits [(mainEnc c).suspect || c.trig.saturatePending, c.trig.reversePending, c.health.level == 3 || coverageLost c,
    false, c.trig.appliedPending, late, timeDegraded c, false, c.trig.skipPending || skipped, c.trig.realignPending]

/-- The link of a port whose uplink carries trigger packets: Pn.0 (R57), and while the port is DOWN the first that remains (R71). -/
def Port.uplink (x : Port) : Option Nat :=
  match x.state with
  | .off => none
  | .device => none
  | .down => (List.range x.links).find? fun m => (vget x.link m).state != 3
  | .idle | .discovering | .ready | .streaming | .fault => some 0

/-- The ports a trigger goes to: packets on those in `cxp_trigger_mask`, pulses on those in `trigout_mask`, each ahead of the trigger
instant by its lead where the instant was known then (R47, R48), and every mapped port that streams, or has locked again, now owes a
line (R65, R73). `known`: the instant from which the trigger instant was known. DEDUCED: log entry 30. -/
def sendTrigger (number known : Nat) (c : Chip) : Chip :=
  let c := (List.range 16).foldl (fun c n =>
    let c := match bit c.trig.cxpTriggerMask n, (vget c.port n).uplink with
      | true, some m => emit (.cxpTrigger n m (max known (tickNow c - Config.cxpLead)) c.trig.cxpDelayComp) c
      | _, _ => c
    if bit c.trig.trigoutMask n then
      emit (.trigOut n (max known (tickNow c - Config.trigoutLead)) c.trig.trigoutWidthNs c.trig.trigoutActiveLow) c else c) c
  { c with port := vmapIdx (fun n p =>
      if (p.state == .streaming || p.relocked) && c.lane.toList.any (fun l => l.port == some n) then
        { p with outstanding := p.outstanding ++ [{ number, at_ := c.now }] } else p) c.port }

/-- Records a tag and moves on: the next number, the pending flags taken. DEDUCED: log entry 38. -/
def pushTag (tag : Tag) (c : Chip) : Chip :=
  noteSaturated 0x0301 64 0 64 (tag.number + 1) { c with trig := { c.trig with
      tags := (tag :: c.trig.tags).take 256, number := satU 64 (tag.number + 1), lastTrigger := some (tickNow c), held := c.trig.held.drop 1,
      appliedPending := false, skipPending := false, reversePending := false, realignPending := false, saturatePending := false } }

/-- The tag of the trigger issued now: MD, time and speed at its tick (R52). -/
def makeTag (late skipped : Bool) (c : Chip) : Tag :=
  let (s, ns) := secNs (sunNsAt c (tickNow c))
  { number := c.trig.number, md := mdAt c (tickNow c), timeS := s, timeNs := ns, speed := satU 32 ((mainEnc c).speedUm (tickNow c)),
    flags := tagFlags late skipped c }

/-- The 32 bytes of a line tag (R52). -/
def tagBytes (x : Tag) : List Byte := le 8 x.number ++ le 8 x.md ++ timeBytes x.timeS x.timeNs ++ le 4 x.speed ++ le 2 x.flags

/-- The tag of a trigger still held. -/
def tagOf (c : Chip) (n : Nat) : Option Tag := c.trig.tags.find? fun x => x.number == n

/-- A tag with more flags. -/
def Tag.withFlags (x : Tag) (f : Nat) : Tag := { x with flags := Nat.lor x.flags f }

/-- Changes the newest tag. -/
def modNewestTag (f : Tag → Tag) (c : Chip) : Chip :=
  match c.trig.tags with
  | [] => c
  | x :: xs => { c with trig := { c.trig with tags := f x :: xs } }

/-- Issues a trigger from the generator's own targets (R47, R51): the pending target, or the newest reached where later ones
were reached before it; the skipped ones are counted. DEDUCED: log entries 30 and 34. -/
def issueTrigger (c : Chip) : Chip :=
  let skipped := skippedTargets c
  let late := reachedBefore c
  let tag := makeTag late (skipped != 0) c
  let known := ((c.trig.held[skipped]?).map (·.2)).getD (motionSince c)
  let c := { c with trig := { c.trig with hwm := hwmNow c, j := c.trig.j + skipped + 1, held := c.trig.held.drop skipped } }
  let c := sendTrigger tag.number known (pushTag tag c)
  raiseLimited 0x0304 2 0x7F 0 (zeros 4 ++ le 8 tag.number) 0 4 false skipped c

end Sys2Proof.Machine
end

