-- ==== Sys2Proof/Machine/Ports.lean ====
section
/-! DEFINITION. Camera ports, lanes and virtual cameras (chapter 3), and TRIG.CONFIGURE, whose period they derive. -/
namespace Sys2Proof.Machine

/-! ### Small tables -/

/-- Code of a port state, in the order of the table of R58 (log entry 20). DESIGN CHOICE: log entry 20. -/
def PortState.code : PortState → Nat
  | .off => 0
  | .idle => 1
  | .discovering => 2
  | .ready => 3
  | .streaming => 4
  | .down => 5
  | .fault => 6
  | .device => 7

/-- The link speeds of R57, fastest first. -/
def linkSpeeds : List Nat := [12, 10, 6, 5, 3, 2, 1]

/-- Payload of a link after 8b/10b, Mbps (R57). -/
def payloadMbps (speed : Nat) : Nat :=
  match speed with
  | 12 => 10000
  | 10 => 8000
  | 6 => 5000
  | 5 => 4000
  | 3 => 2500
  | 2 => 2000
  | _ => 1000

/-- Least eye width of a speed in 1/256 UI (R69). -/
def eyeThreshold (speed : Nat) : Nat := if speed = 12 then 90 else if speed = 10 then 103 else 116

/-- Supported formats with bits per pixel and greatest width (R62). -/
def pixelFormats : List (Nat × Nat × Nat) :=
  [(0x01080001, 8, 16384), (0x01100003, 10, 16384), (0x010A0046, 10, 16384), (0x01100005, 12, 16384), (0x010C0047, 12, 16384),
   (0x01100025, 14, 14032), (0x010E0104, 14, 14032)]

/-- Bits per pixel of a port's camera. -/
def Port.bitsPerPixel (p : Port) : Nat := ((pixelFormats.find? fun x => x.1 == p.pixelFormat).map (·.2.1)).getD 12

/-- Bits a pixel takes in the stream (R62): a byte or a 16-bit word for the unpacked formats, its own bits for the packed ones. -/
def streamBits (pixelFormat : Nat) : Nat :=
  if pixelFormat = 0x01100003 ∨ pixelFormat = 0x01100005 ∨ pixelFormat = 0x01100025 then 16
  else if pixelFormat = 0x010A0046 then 10 else if pixelFormat = 0x010C0047 then 12 else if pixelFormat = 0x010E0104 then 14 else 8

/-- The numbers of a given bit width that a stream packs one after another, LSB first; at most one ends in a byte. -/
def streamWords (bits : Nat) (data : List Byte) : List Nat :=
  (data.foldl (fun (y : Nat × Nat × List Nat) b =>
    let acc := y.1 + b.toNat * 2 ^ y.2.1
    let k := y.2.1 + 8
    if bits ≤ k then (acc / 2 ^ bits, k - bits, (acc % 2 ^ bits) :: y.2.2) else (acc, k, y.2.2)) (0, 0, [])).2.2.reverse

/-- The pixels of a line from its stream (R62); bits above the format's own are zero. -/
def Port.linePixels (p : Port) (stream : List Byte) : List Nat :=
  ((streamWords (streamBits p.pixelFormat) stream).take p.width).map fun v => v % 2 ^ p.bitsPerPixel

/-- What R62 and R63 ask of a camera; one that reports width 0 is refused. DEDUCED: log entries 42 and 249. -/
def cameraAccepted (x : CameraInfo) : Bool :=
  x.lineMode && x.width % 16 == 0 && x.width != 0 &&
  pixelFormats.any fun f => f.1 == x.pixelFormat && decide (x.width ≤ f.2.2)

/-- Changes one port. -/
def modPort (n : Nat) (f : Port → Port) (c : Chip) : Chip := { c with port := vmod c.port n f }

/-- Changes one lane. -/
def modLane (l : Nat) (f : Lane → Lane) (c : Chip) : Chip := { c with lane := vmod c.lane l f }

/-- The lane a port is mapped to. -/
def laneOf (c : Chip) (n : Nat) : Option Nat := (List.range 16).find? fun l => (vget c.lane l).port == some n

/-- EV_LINK_DOWN (R84). -/
def linkDown (n link cause number : Nat) (c : Chip) : Chip :=
  raise 0x0200 3 n (le 1 n ++ le 1 link ++ le 1 cause ++ [0] ++ le 8 number) c

/-- EV_LINK_UP (R84). -/
def linkUp (n number : Nat) (c : Chip) : Chip := raise 0x0201 1 n (le 1 n ++ [0xFF, 0, 0] ++ le 8 number) c

/-! ### The minimum period and the capacity of virtual cameras (R55, R80) -/

/-- The derived minimum period: the slowest mapped camera, rounded up to 4 ns; 400 ns while no lane is mapped (R55). DEDUCED: log entry 36. -/
def derivedPeriod (c : Chip) : Nat :=
  match mappedLanes c with
  | [] => 400
  | ls => maxOf (ls.map fun l =>
      let p := vget c.port ((vget c.lane l).port.getD 0)
      4 * max (ceilDiv (p.width * 5) 32) (ceilDiv p.camMinPeriodNs 4))

/-- The effective minimum period (R54, R55). DEDUCED: log entry 36. -/
def effectivePeriod (c : Chip) : Nat :=
  if c.trig.minPeriodReq = 0 then derivedPeriod c else 4 * ceilDiv c.trig.minPeriodReq 4

/-- Output pixels of a virtual camera. -/
def VcamCfg.width (v : VcamCfg) : Nat := v.columnCount / v.cdDecimation

/-- Required rate times the period and decimation, in Mbps × ns: width × bits × 1000 (R80). -/
def VcamCfg.load (v : VcamCfg) : Nat := v.width * (if v.mono12p then 12 else 8) * 1000

/-- Capacity in hundredths of Mbps (R80). -/
def VcamCfg.capacity (v : VcamCfg) : Nat := v.links * payloadMbps v.speed * 96

/-- The check of R80 against a period. -/
def VcamCfg.fits (v : VcamCfg) (period : Nat) : Bool := decide (v.load * 100 ≤ v.capacity * (period * v.mdDecimation))

/-- A virtual camera stops, with EV_LINK_DOWN cause CAPACITY (R80). -/
def vcamStop (k : Nat) (c : Chip) : Chip :=
  let v := vget c.vcam k
  linkDown v.cfg.port 0xFF 3 c.trig.number { c with vcam := vset c.vcam k { v with stopped := true } }

/-- Takes the effective period into force; an enabled virtual camera that then fails R80 stops, with EV_LINK_DOWN cause 3. -/
def refreshPeriod (c : Chip) : Chip :=
  let c := { c with trig := { c.trig with minPeriod := effectivePeriod c } }
  (List.range 4).foldl (fun c k =>
    let v := vget c.vcam k
    if v.enabled && !v.stopped && !v.cfg.fits c.trig.minPeriod then vcamStop k c else c) c

/-! ### Discovery (R59 to R63) -/

/-- The links of a port go idle; their counters stay (R58, R549). -/
def Port.idleLinks (x : Port) : Port := { x with link := vmapIdx (fun _ y => { y with state := 0 }) x.link }

/-- A discovery starts: PWR_ENn follows `power_on` and discovery is sent on Pn.0 (R59, R68). -/
def startDiscovery (n : Nat) (d : Discovery) (c : Chip) : Chip :=
  emit (.cxpDiscovery n) (modPort n (fun x => { x.idleLinks with
    power := d.power, powerAt := if d.power && !x.power then c.now else x.powerAt,
    mismatch := false, relocked := false, outstanding := [], timedOut := [], discovery := some { d with queued := false } }) c)

/-- PORT.DISCOVER (R59, R85): it starts once the accesses in front of it have ended, since a port carries one control transaction at a
time in doorbell order (R76); the answer comes with DISCOVERY_COMPLETE. DEDUCED: log entry 42. -/
def portDiscover (env : Env) (j : Job) (c : Chip) : Reply :=
  let p := j.payload
  let n := rd p 0 1
  let x := vget c.port n
  let f := rd p 3 1
  let d := rd p 8 2
  checked
    [lenIs 16 j, inRange p 0 1 0 15, param 1 ([0, 1, 2, 4].contains (rd p 1 1)), param 2 ((0 :: linkSpeeds).contains (rd p 2 1)),
     param 3 (f < 4), param 8 (d == 0 || (100 ≤ d && d ≤ 30000)), reserved p 10 6,
     stateRule c (mode c != 3), stateRule c (x.state != .streaming && x.state != .device),
     stateRule c (x.state != .fault || bit f 0), ownRule stBusy (x.state != .discovering)] c
    (let q : Discovery := {
       mb := env.mb, links := rd p 1 1, speed := rd p 2 1, fallback := bit f 1, minPeriodAddr := rd p 4 4,
       timeoutMs := if d = 0 then 5000 else d, power := bit f 0, queued := !x.accesses.isEmpty }
     let c := modPort n (fun x => { x with state := .discovering, discovery := some q }) c
     replyLater (if q.queued then c else startDiscovery n q c))

def execPortDiscover (t : Nat) (mb : Fin 8) (s : State) : Host.Outcome State Fault Refusal :=
  .next (s.command 0x0200 t mb portDiscover)

/-- The response of PORT.DISCOVER. -/
def discoverBody (x : Port) (links speed : Nat) : List Byte :=
  le 1 links ++ le 1 speed ++ le 1 x.state.code ++ [0] ++ le 4 x.pixelFormat ++ le 4 x.width ++ le 4 x.camMinPeriodNs ++
  le 4 x.cxpRevision ++ fit 32 x.modelName ++ fit 16 x.serial

/-- The speeds a discovery tries, in order (R59, R60). -/
def speedsToTry (d : Discovery) (first : Nat) : List Nat :=
  if d.fallback then linkSpeeds.filter fun x => decide (x ≤ first) else [first]

/-- Ends a discovery that found no usable camera: the port goes to IDLE and the command is answered (R58, R60, R63): what the camera
reported is not kept, and the model, serial number and revision are those of the discovery before. A mapped port forms the period again
(R55). DEDUCED: log entries 42 and 249. -/
def discoveryFails (n status detail links speed : Nat) (d : Discovery) (c : Chip) : Chip :=
  let c := modPort n (fun x => { x.idleLinks with state := .idle, discovery := none, links := 0, speed := 0, width := 0, pixelFormat := 0, camMinPeriodNs := 0 }) c
  let c := if (laneOf c n).isSome then refreshPeriod c else c
  respond d.mb status detail (discoverBody (vget c.port n) links speed) c

/-- A link's state by the two criteria of R69: its eye at the last scan and the code errors of the last whole second. -/
def linkHealth (speed limit : Nat) (k : Link) : Nat := if eyeThreshold speed ≤ k.eyeWidth ∧ k.errorsLastS < limit then 1 else 2

/-- Links of a trained port: those in use with their eyes scanned, the others idle; the counters go on (R549). -/
def trainedLinks (used : Nat) (eye errors : List Nat) (now : Nat) (links : Vector Link 4) : Vector Link 4 :=
  vmapIdx (fun m k => if m < used then { k with
    state := 1, eyeWidth := eye.getD m 0, lastScan := now, errorsLastS := errors.getD m 0, unhealthyOnce := false, qualityRaised := false }
    else { k with state := 0 }) links

/-- What a camera's links show at a speed: the list kept for it, or none. -/
def shownAt (speed : Nat) (xs : List (Nat × List Nat)) : Option (List Nat) := (xs.find? fun y => y.1 == speed).map (·.2)

/-- Every link in use locks at a speed and meets both criteria of a healthy link: its eye and its code errors (R59, R69). -/
def locksHealthy (i : CameraInfo) (limit links speed : Nat) : Bool :=
  match shownAt speed i.scans with
  | some eye => decide (links ≤ eye.length) && (eye.take links).all (fun w => decide (eyeThreshold speed ≤ w)) &&
      (((shownAt speed i.errors).getD []).take links).all fun e => decide (e < limit)
  | none => false

/-- The speeds a discovery really tries: those up to the first that succeeds. -/
def speedsTried (d : Discovery) (first limit links : Nat) (i : CameraInfo) : List Nat :=
  let xs := speedsToTry d first
  xs.take ((xs.takeWhile fun s => !locksHealthy i limit links s).length + 1)

/-- Steps 3 and 4 of R59: the bootstrap registers read. -/
def bootstrapReads (d : Discovery) : List CameraRegister :=
  [.standard, .revision, .deviceModelName, .deviceSerialNumber, .connectionConfigDefault, .width, .pixelFormat] ++
  if d.minPeriodAddr = 0 then [] else [.minPeriod d.minPeriodAddr]

/-- The control packets of a discovery that met a camera (R59): the reads, then ConnectionConfig at each speed tried. -/
def bootstrapTraffic (n links : Nat) (speeds : List Nat) (d : Discovery) (c : Chip) : Chip :=
  let c := (bootstrapReads d).foldl (fun c r => emit (.cxpBootstrap n r none) c) c
  speeds.foldl (fun c s => emit (.cxpBootstrap n .connectionConfig (some (links, s))) c) c

/-- The end of a discovery (R59 to R63), of one that has started (R76); in the PW1212 personality no link runs above CXP-6 (R559). DEDUCED: log entry 42. -/
def discoveryComplete (n : Nat) (camera : Option CameraInfo) (c : Chip) : Chip :=
  let x := vget c.port n
  match x.discovery.filter (!·.queued) with
  | none => c
  | some d =>
    match camera with
    | none => discoveryFails n stTimeout 0 0 0 d c
    | some i =>
      let links := if d.links = 0 then i.defaultLinks else d.links
      let asked := if d.speed = 0 then i.defaultSpeed else d.speed
      let first := if c.modes.personality = 1 then min asked 6 else asked
      if !cameraAccepted i then discoveryFails n stBadParam 0xFFFF 0 0 d (bootstrapTraffic n links [] d c)
      else match (speedsToTry d first).find? (locksHealthy i x.codeErrorLimit links) with
        | none => discoveryFails n stHwFault 0 links ((speedsToTry d first).getLastD first) d (bootstrapTraffic n links (speedsToTry d first) d c)
        | some speed =>
          let streams := (laneOf c n).isSome && triggering c
          let c := bootstrapTraffic n links (speedsTried d first x.codeErrorLimit links i) d c
          let eye := (shownAt speed i.scans).getD []
          let errors := (shownAt speed i.errors).getD []
          let c := modPort n (fun x => { x with
            state := if streams then .streaming else .ready, discovery := none, links, speed, pixelFormat := i.pixelFormat,
            width := i.width, camMinPeriodNs := if d.minPeriodAddr = 0 then 0 else i.minPeriodNs, cxpRevision := i.revision,
            modelName := i.model, serial := i.serial, packetData := i.packetData, link := trainedLinks links eye errors c.now x.link }) c
          let c := if (laneOf c n).isSome then refreshPeriod c else c
          respond d.mb stOk 0 (discoverBody (vget c.port n) links speed) c

def execDiscoveryComplete (t : Nat) (port : Fin 16) (camera : Option CameraInfo) (s : State) : Host.Outcome State Fault Refusal :=
  .next (s.run t fun _ c => discoveryComplete port camera c)

/-- PORT.CONFIGURE (R68, R85); a port taken OFF has its links idle (R58). -/
def portConfigure (_ : Env) (j : Job) (c : Chip) : Reply :=
  let p := j.payload
  let n := rd p 0 1
  let x := vget c.port n
  let f := rd p 2 1
  let host := rd p 1 1 == 0
  let on := host && bit f 0
  checked
    [lenIs 32 j, inRange p 0 1 0 15, inRange p 1 1 0 1, param 2 (f < 4), reserved p 3 1, inRange p 4 4 10 1000000,
     inRange p 8 4 0 1000000, inRange p 12 2 1 65535, inRange p 14 2 1 1000, inRange p 16 2 10 10000, reserved p 18 14,
     stateRule c (x.state != .streaming && x.state != .device)] c
    (let c := match x.discovery, host with
       | some d, false => discoveryFails n stHwFault 0 0 0 d c
       | _, _ => c
     reply stOk (modPort n (fun x => { (if host then x else { x.idleLinks with relocked := false, outstanding := [], timedOut := [] }) with
       state := match x.state with
         | .fault => if !bit f 0 then .fault else if host then .idle else .off
         | .off => if host then .idle else .off
         | s => if host then s else .off
       power := on, powerAt := if on && !x.power then c.now else x.powerAt, autoRecover := bit f 1, lineTimeoutUs := rd p 4 4,
       dataLatencyMinNs := rd p 8 4, codeErrorLimit := rd p 12 2, pocBlankMs := rd p 14 2, controlTimeoutMs := rd p 16 2 }) c))

def execPortConfigure (t : Nat) (mb : Fin 8) (s : State) : Host.Outcome State Fault Refusal :=
  .next (s.command 0x0201 t mb portConfigure)

/-! ### Control-channel pass-through (R74 to R76) -/

/-- Bytes of the next control packet of an access. PRESUMED: log entry 40. -/
def packetBytes (x : Port) (a : Access) : Nat := min (max 4 x.packetData) (a.length - a.done)

/-- Sends the next control packet of the access in front of the queue. -/
def sendPacket (n : Nat) (c : Chip) : Chip :=
  let x := vget c.port n
  match x.accesses with
  | [] => c
  | a :: _ => emit (.cxpControl n a.write (a.addr + a.done) (if a.write then sliceB a.data a.done (packetBytes x a) else le 4 (packetBytes x a))) c

/-- Checks shared by the two pass-through commands; `head` is the length of the request apart from the data. -/
def accessChecks (j : Job) (c : Chip) (dataLen head : Nat) : List Check :=
  let p := j.payload
  let x := vget c.port (rd p 0 1)
  let n := rd p 8 2
  [lenOk (j.payload.length == head + dataLen), inRange p 0 1 0 15, reserved p 1 3, param 4 (rd p 4 4 % 4 == 0),
   param 8 (4 ≤ n && n ≤ 4000 && n % 4 == 0), reserved p 10 2, stateRule c (mode c != 3), stateRule c (x.state != .device)]

/-- Queues an access; its first packet goes out when no other is in progress. -/
def startAccess (n : Nat) (a : Access) (c : Chip) : Chip :=
  let idle := (vget c.port n).accesses.isEmpty
  let c := modPort n (fun x => { x with accesses := x.accesses ++ [a] }) c
  if idle then sendPacket n c else c

/-- Room on a port for one more access: one in progress and four waiting, and no discovery (R76). -/
def accessRoom (c : Chip) (n : Nat) : Bool :=
  let x := vget c.port n
  x.state != .discovering && decide (x.accesses.length < 5)

/-- PORT.READ_CAMERA_REG. -/
def portRead (env : Env) (j : Job) (c : Chip) : Reply :=
  let p := j.payload
  checked ((lenIs 12 j :: accessChecks j c 0 12) ++ [ownRule stBusy (accessRoom c (rd p 0 1))]) c
    (replyLater (startAccess (rd p 0 1) { mb := env.mb, write := false, addr := rd p 4 4, length := rd p 8 2, data := [] } c))

def execPortReadCameraReg (t : Nat) (mb : Fin 8) (s : State) : Host.Outcome State Fault Refusal :=
  .next (s.command 0x0202 t mb portRead)

/-- PORT.WRITE_CAMERA_REG; while the port streams, R75 protects the camera's own registers. PRESUMED: log entry 40. -/
def portWrite (env : Env) (j : Job) (c : Chip) : Reply :=
  let p := j.payload
  let n := rd p 0 1
  let len := rd p 8 2
  let guarded := (List.range (len / 4)).any fun i => Config.cameraProtected (rd p 4 4 + 4 * i)
  checked (accessChecks j c len 12 ++
      [stateRule c (!((vget c.port n).state == .streaming && guarded)), ownRule stBusy (accessRoom c n)]) c
    (replyLater (startAccess n { mb := env.mb, write := true, addr := rd p 4 4, length := len, data := p.drop 12 } c))

def execPortWriteCameraReg (t : Nat) (mb : Fin 8) (s : State) : Host.Outcome State Fault Refusal :=
  .next (s.command 0x0203 t mb portWrite)

/-- What comes next on a port's control channel: the next access, or the discovery that waits behind the last (R76). -/
def nextTransaction (n : Nat) (c : Chip) : Chip :=
  let x := vget c.port n
  match x.accesses, x.discovery.filter (·.queued) with
  | [], some d => startDiscovery n d c
  | _, _ => sendPacket n c

/-- Ends the access in front and starts what comes next. -/
def endAccess (n status ack : Nat) (c : Chip) : Chip :=
  match (vget c.port n).accesses with
  | [] => c
  | a :: rest =>
    let body := le 2 a.done ++ le 2 ack ++ (if a.write then [] else zeros 4 ++ a.data)
    nextTransaction n (respond a.mb status 0 body (modPort n (fun x => { x with accesses := rest }) c))

/-- Changes the access in front. -/
def modAccess (n : Nat) (f : Access → Access) (c : Chip) : Chip :=
  modPort n (fun x => { x with accesses := match x.accesses with
    | [] => []
    | a :: rest => f a :: rest }) c

/-- The packet in flight has no valid acknowledgement (R74): it is sent again up to three times, then the access ends with ST_TIMEOUT.
DEDUCED: log entry 41. -/
def retryPacket (n ack : Nat) (c : Chip) : Chip :=
  match (vget c.port n).accesses with
  | [] => c
  | a :: _ =>
    if a.retries < 3 then sendPacket n (modAccess n (fun a => { a with retries := a.retries + 1 }) c) else endAccess n stTimeout ack c

/-- The acknowledgement of the packet in flight (R74): one that fails its CRC is retried up to three times; an error ends the
access; otherwise the access moves on by the packet. DEDUCED: log entry 41. -/
def controlAck (n : Nat) (crcOk error : Bool) (code : Nat) (data : List Byte) (c : Chip) : Chip :=
  let x := vget c.port n
  match x.accesses with
  | [] => c
  | a :: _ =>
    if !crcOk then retryPacket n code c
    else if error then endAccess n stAborted code c
    else
      let k := packetBytes x a
      let c := modAccess n (fun a => { a with done := a.done + k, retries := 0, data := if a.write then a.data else a.data ++ fit k data }) c
      if a.done + k ≥ a.length then endAccess n stOk code c else sendPacket n c

def execControlAckReceived (t : Nat) (port : Fin 16) (crcOk error : Bool) (code : Nat) (data : List Byte) (s : State) :
    Host.Outcome State Fault Refusal :=
  .next (s.run t fun _ c => controlAck port crcOk error code data c)

/-- No acknowledgement within `control_timeout_ms` (R74); an access that ends so answers `cxp_ack` 0, where the spec states no code.
DEDUCED: log entries 41 and 249. -/
def execControlAckTimeout (t : Nat) (port : Fin 16) (s : State) : Host.Outcome State Fault Refusal :=
  .next (s.run t fun _ c => retryPacket port 0 c)

/-! ### Lines (R65, R66) -/

/-- Changes the entry of a link in a running link calibration (R484). -/
def calLinkSeen (n link : Nat) (f : LinkCal → LinkCal) (c : Chip) : Chip :=
  match c.cal.links with
  | some r => if r.running && bit r.portMask n then
      { c with cal := { c.cal with links := some { r with links := r.links.mapIdx fun i x => if i = 4 * n + link then f x else x } } } else c
  | none => c

/-- A line of a port's lane is declared lost (R66). -/
def lineLost (n number : Nat) (c : Chip) : Chip :=
  match laneOf c n with
  | none => c
  | some l =>
    let (k, c) := satAdd 0x0206 (32 * l + 16) l 32 (vget c.lane l).linesLost 1 c
    raiseLimited 0x0203 2 n n (le 1 n ++ [0xFF] ++ zeros 4 ++ le 6 number) 2 4 false 1
      (modLane l (fun x => { x with linesLost := k, lost := (number :: x.lost).take 128 }) c)

/-- Declares triggers lost, oldest first. -/
def losePast (n : Nat) (xs : List Outstanding) (c : Chip) : Chip := xs.foldl (fun c x => lineLost n x.number c) c

/-- Declares every outstanding trigger of a port lost. -/
def loseOutstanding (n : Nat) (c : Chip) : Chip :=
  losePast n (vget c.port n).outstanding (modPort n (fun x => { x with outstanding := [], timedOut := [] }) c)

/-- Triggers that were outstanding as a line's first packet arrived: those outstanding now and those timed out since, oldest first. -/
def Port.outstandingAt (x : Port) (first : Nat) : List Outstanding :=
  ((x.timedOut.filter fun y => decide (first < y.2)).map (·.1) ++ x.outstanding).filter fun o => decide (o.at_ ≤ first)

/-- The trigger a line answers and those it leaves behind as lost and as still outstanding, judged as its first packet arrived (R65). The
trigger may have been declared lost since (R66). DEDUCED: log entry 250. -/
def matchLine (x : Port) (first : Nat) : Option (Outstanding × List Outstanding × List Outstanding) :=
  let xs := x.outstandingAt first
  let qualifies := if x.dataLatencyMinNs = 0 then xs.head? else (xs.filter fun o => decide (o.at_ + x.dataLatencyMinNs ≤ first)).getLast?
  qualifies.map fun o =>
    (o, if x.dataLatencyMinNs = 0 then [] else x.outstanding.filter (fun y => decide (y.number < o.number)),
     x.outstanding.filter fun y => if x.dataLatencyMinNs = 0 then y.number != o.number else decide (o.number < y.number))

/-- Lines a lane holds at present, its line delay included (LANE.GET_STATUS). -/
def laneFill (c : Chip) (l : Nat) : Nat :=
  let d := lineDelay c l
  min 64 (d + ((vget c.lane l).buffer.filter fun x => decide (c.perg.next ≤ x.number + d)).length)

/-- A complete line enters the lane input buffer of 64 lines (R19, R64, R67). -/
def bufferLine (l number : Nat) (pixels : List Nat) (c : Chip) : Chip :=
  let md := ((tagOf c number).map (·.md)).getD 0
  let c := modLane l (fun x => { x with
    linesReceived := wrapU 64 (x.linesReceived + 1), lastTrigger := number,
    buffer := ({ number, md, pixels } :: x.buffer).take 64 }) c
  modLane l (fun x => { x with bufferPeak := max x.bufferPeak (laneFill c l) }) c

/-- The stream packets of a line count on the links that carried them, and so do those that failed their CRC. -/
def countPackets (n : Nat) (packets crcErrors : List Nat) (c : Chip) : Chip :=
  (List.range 4).foldl (fun c m =>
    let k := vget (vget c.port n).link m
    let bad := crcErrors.getD m 0
    let (e, c) := satAdd 0x0204 (32 * m + 12) n 32 k.crcErrors bad c
    let c := calLinkSeen n m (fun y => { y with crcErrors := satU 32 (y.crcErrors + bad) }) c
    modPort n (fun x => { x with link := vmod x.link m fun k => { k with
      packets := wrapU 64 (k.packets + packets.getD m 0), crcErrors := e } }) c) c

/-- A camera line has arrived (R65, R66, R73): one whose stream lacks pixels is not complete, and one whose trigger has been declared lost
since its first packet is discarded. -/
def lineReceived (n first : Nat) (packets crcErrors : List Nat) (stream : List Byte) (c : Chip) : Chip :=
  let x := vget c.port n
  let pixels := x.linePixels stream
  if (x.state != .streaming && !x.relocked) || decide (pixels.length < x.width) then c
  else
    let c := countPackets n packets crcErrors c
    match matchLine x first, laneOf c n with
    | none, some l =>
      let (k, c) := satAdd 0x0206 (32 * l + 20) l 32 (vget c.lane l).unsolicited 1 c
      modLane l (fun x => { x with unsolicited := k }) c
    | some (o, past, rest), some l =>
      let late := x.timedOut.any fun y => y.1.number == o.number
      let c := losePast n past (modPort n (fun x => { x with
        outstanding := rest, timedOut := x.timedOut.filter fun y => decide (o.number < y.1.number) }) c)
      if late then c
      else if crcErrors.any (· != 0) then lineLost n o.number c
      else
        let c := bufferLine l o.number pixels c
        if x.relocked then linkUp n o.number (modPort n (fun x => { x with state := .streaming, relocked := false }) c) else c
    | _, none => c

def execCameraLineReceived (t : Nat) (port : Fin 16) (first : Nat) (packets crcErrors : List Nat) (stream : List (BitVec 8)) (s : State) :
    Host.Outcome State Fault Refusal :=
  .next (s.run t fun _ c => lineReceived port first packets crcErrors stream c)

/-- The line of the oldest outstanding trigger is not complete `line_timeout_us` after its instant (R66). -/
def lineTimeout (n : Nat) (c : Chip) : Chip :=
  let x := vget c.port n
  match x.outstanding with
  | [] => c
  | o :: rest =>
    if c.now < o.at_ + x.lineTimeoutUs * 1000 then c
    else lineLost n o.number (modPort n (fun x => { x with outstanding := rest, timedOut := ((x.timedOut ++ [(o, c.now)]).reverse.take 64).reverse }) c)

def execLineTimeout (t : Nat) (port : Fin 16) (s : State) : Host.Outcome State Fault Refusal :=
  .next (s.run t fun _ c => lineTimeout port c)

/-- A trigger issued while a mapped port is DOWN or FAULT costs its line at once (R71). -/
def loseDownLines (number : Nat) (c : Chip) : Chip :=
  (List.range 16).foldl (fun c n =>
    let x := vget c.port n
    if (x.state == .down && !x.relocked) || x.state == .fault then lineLost n number c else c) c

/-! ### Links lost and regained (R68 to R73) -/

/-- Number of the first line a port loses now: its oldest outstanding trigger, else the trigger to be issued next. -/
def firstLostLine (c : Chip) (n : Nat) : Nat := (((vget c.port n).outstanding.head?).map (·.number)).getD c.trig.number

/-- A link is lost (R71): a trained port goes DOWN and the lines owed to it are lost. -/
def linkLost (n link : Nat) (c : Chip) : Chip :=
  let x := vget c.port n
  if link ≥ x.links ∨ !([.ready, .streaming, .down].contains x.state) then c
  else
    let (k, c) := satAdd 0x0204 (32 * link + 16) n 32 (vget x.link link).lockLosses 1 c
    let c := modPort n (fun x => { x with link := vmod x.link link fun y => { y with state := 3, lockLosses := k } }) c
    if x.state = .down then modPort n (fun x => { x with relocked := false }) (loseOutstanding n c)
    else
      let first := firstLostLine c n
      loseOutstanding n (linkDown n link 0 first (modPort n (fun x => { x with state := .down }) c))

/-- PWR_FLTn_N asserts after the blanking time (R68): PWR_ENn is deasserted and the port enters FAULT; a discovery is cut short.
DEDUCED: log entry 42. -/
def powerFault (n : Nat) (c : Chip) : Chip :=
  let x := vget c.port n
  if !x.power ∨ c.now < x.powerAt + x.pocBlankMs * 1000000 then c
  else
    let first := firstLostLine c n
    let c := modPort n (fun x => { x.idleLinks with state := .fault, power := false, discovery := none, relocked := false }) c
    let c := match x.discovery with
      | some d => respond d.mb stHwFault 0 (discoverBody (vget c.port n) 0 0) c
      | none => c
    loseOutstanding n (linkDown n 0xFF 1 first c)

def execPowerFault (t : Nat) (port : Fin 16) (s : State) : Host.Outcome State Fault Refusal :=
  .next (s.run t fun _ c => powerFault port c)

/-- EV_LINK_QUALITY_LOW, once until a healthy scan (R70). -/
def qualityLow (n link : Nat) (c : Chip) : Chip :=
  let k := vget (vget c.port n).link link
  if k.qualityRaised then c
  else raise 0x0202 2 n (le 1 n ++ le 1 link ++ le 2 k.eyeWidth ++ le 4 k.errorsLastS ++ zeros 4)
    (modPort n (fun x => { x with link := vmod x.link link fun y => { y with qualityRaised := true } }) c)

/-- A link's code errors are taken over: those since they were last taken over, and those of the last whole second (R69, R85).
DESIGN CHOICE: log entry 254. -/
def takeErrors (n link new errors : Nat) (c : Chip) : Chip :=
  let (total, c) := satAdd 0x0204 (32 * link + 8) n 32 (vget (vget c.port n).link link).codeErrors new c
  calLinkSeen n link (fun y => { y with codeErrors := satU 32 (y.codeErrors + new) })
    (modPort n (fun x => { x with link := vmod x.link link fun y => { y with errorsLastS := errors, codeErrors := total } }) c)

/-- The eye scan of a link in use (R69, R70): a scan that meets a lost link is abandoned. DESIGN CHOICE: log entry 254. -/
def eyeScan (n link width new errors : Nat) (c : Chip) : Chip :=
  let x := vget c.port n
  let k := vget x.link link
  if link ≥ x.links ∨ k.state = 3 ∨ k.state = 0 then c
  else
    let healthy := linkHealth x.speed x.codeErrorLimit { k with eyeWidth := width, errorsLastS := errors } == 1
    let c := takeErrors n link new errors c
    let c := modPort n (fun x => { x with link := vmod x.link link fun y => { y with
      eyeWidth := width, lastScan := c.now, state := if healthy then 1 else 2,
      unhealthyOnce := !healthy, qualityRaised := y.qualityRaised && !healthy } }) c
    let c := calLinkSeen n link (fun y => { y with
      speed := x.speed, eyeMin := if y.eyeMax = 0 then width else min y.eyeMin width, eyeMax := max y.eyeMax width }) c
    if !healthy && k.unhealthyOnce then qualityLow n link c else c

def execEyeScan (t : Nat) (port : Fin 16) (link : Fin 4) (width new errors : Nat) (s : State) : Host.Outcome State Fault Refusal :=
  .next (s.run t fun _ c => eyeScan port link width new errors c)

/-- A link reaches `code_error_limit` within one second (R70). DESIGN CHOICE: log entry 254. -/
def codeErrorLimit (n link new errors : Nat) (c : Chip) : Chip :=
  let x := vget c.port n
  let k := vget x.link link
  if link ≥ x.links ∨ k.state = 3 ∨ k.state = 0 ∨ errors < x.codeErrorLimit then c
  else
    qualityLow n link (modPort n (fun x => { x with link := vmod x.link link fun y => { y with state := 2 } }) (takeErrors n link new errors c))

def execCodeErrorLimit (t : Nat) (port : Fin 16) (link : Fin 4) (new errors : Nat) (s : State) : Host.Outcome State Fault Refusal :=
  .next (s.run t fun _ c => codeErrorLimit port link new errors c)

/-- Whether a port may try to lock again (R61, R73). -/
def Port.recovers (x : Port) : Bool := x.state == .down && x.autoRecover && !x.mismatch

/-- An attempt to lock again, 100 ms after the one before (R73); what comes of it is LINK_RELOCK's. DESIGN CHOICE: log entry 22. -/
def execRecoveryAttempt (t : Nat) (port : Fin 16) (s : State) : Host.Outcome State Fault Refusal :=
  .next (s.run t fun _ c => if (vget c.port port).recovers ∧ (vget c.port port).lastAttempt + 100000000 ≤ c.now then modPort port (fun x => { x with lastAttempt := c.now }) c else c)

/-- The links lock again and Width and PixelFormat are read (R61, R73); a link is healthy by its last scan (R69). -/
def linkRelock (n width pixelFormat : Nat) (c : Chip) : Chip :=
  let x := vget c.port n
  let c := if x.recovers then emit (.cxpBootstrap n .pixelFormat none) (emit (.cxpBootstrap n .width none) c) else c
  if !x.recovers then c
  else if width ≠ x.width ∨ pixelFormat ≠ x.pixelFormat then
    linkDown n 0xFF 2 c.trig.number (modPort n (fun x => { x with mismatch := true }) c)
  else
    let c := modPort n (fun x => { x with link := vmapIdx (fun m y => if m < x.links then { y with state := linkHealth x.speed x.codeErrorLimit y } else y) x.link }) c
    if (laneOf c n).isSome && triggering c then modPort n (fun x => { x with relocked := true, outstanding := [], timedOut := [] }) c
    else linkUp n c.trig.number (modPort n (fun x => { x with state := .ready }) c)

def execLinkRelock (t : Nat) (port : Fin 16) (width pixelFormat : Nat) (s : State) : Host.Outcome State Fault Refusal :=
  .next (s.run t fun _ c => linkRelock port width pixelFormat c)

/-! ### PORT.GET_LINK_QUALITY, LANE.GET_STATUS -/

/-- One entry of PORT.GET_LINK_QUALITY; the age of a link never scanned counts from the model's time origin. DESIGN CHOICE: log entry 254. -/
def linkEntry (x : Port) (now : Nat) (m : Nat) (k : Link) : List Byte :=
  le 1 (if m < x.links then k.state else 0) ++ le 1 x.speed ++ le 2 k.eyeWidth ++ le 2 (eyeThreshold x.speed) ++
  le 2 (satU 16 ((now - k.lastScan) / 1000000000)) ++ le 4 k.codeErrors ++ le 4 k.crcErrors ++ le 4 k.lockLosses ++
  le 4 k.errorsLastS ++ le 8 k.packets

/-- Clears the counters of a port's links; `errors_last_s` is none of them. DESIGN CHOICE: log entry 254. -/
def Port.clearLinks (x : Port) : Port :=
  { x with link := vmapIdx (fun _ k => { k with codeErrors := 0, crcErrors := 0, lockLosses := 0, packets := 0 }) x.link }

/-- PORT.GET_LINK_QUALITY: the links in use are read with what their receivers have `seen`, for each link the code errors since they were
last taken over and those of the last whole second. DESIGN CHOICE: log entry 254. -/
def portQuality (seen : List (Nat × Nat)) (_ : Env) (j : Job) (c : Chip) : Reply :=
  let p := j.payload
  let n := rd p 0 1
  let x := vget c.port n
  checked [lenIs 2 j, inRange p 0 1 0 15, inRange p 1 1 0 1, stateRule c (x.state != .device)] c
    (let c := (List.range x.links).foldl (fun c m => match seen[m]? with
       | some (new, errors) => takeErrors n m new errors c
       | none => c) c
     let x := vget c.port n
     replyBody ((x.link.toList.mapIdx (linkEntry x c.now)).flatten ++ le 1 x.state.code)
      (if bit (rd p 1 1) 0 then modPort n Port.clearLinks c else c))

def execPortGetLinkQuality (t : Nat) (mb : Fin 8) (seen : List (Nat × Nat)) (s : State) : Host.Outcome State Fault Refusal :=
  .next (s.command 0x0204 t mb (portQuality seen))

/-- One entry of LANE.GET_STATUS; an unmapped lane shows `port_state` 0, where the spec names no value. DEDUCED: log entry 249. -/
def laneEntry (c : Chip) (l : Nat) (x : Lane) : List Byte :=
  le 1 (x.port.getD 0xFF) ++ le 1 ((vget c.engines.binding l).getD 0xFF) ++
  le 1 ((x.port.map fun n => (vget c.port n).state.code).getD 0) ++ le 1 (lineDelay c l) ++ le 1 x.bufferPeak ++ zeros 3 ++
  le 8 x.linesReceived ++ le 4 x.linesLost ++ le 4 x.unsolicited ++ le 8 x.lastTrigger

/-- LANE.GET_STATUS; the peak restarts at each read, at the present fill. -/
def laneStatus (_ : Env) (j : Job) (c : Chip) : Reply :=
  checked [lenIs 0 j] c
    (replyBody ((c.lane.toList.mapIdx (laneEntry c)).flatten ++ le 1 (c.engines.spare.getD 0xFF) ++ zeros 3 ++ le 4 c.engines.retired)
      { c with lane := vmapIdx (fun l x => { x with bufferPeak := if x.port.isSome then laneFill c l else 0 }) c.lane })

def execLaneGetStatus (t : Nat) (mb : Fin 8) (s : State) : Host.Outcome State Fault Refusal :=
  .next (s.command 0x0206 t mb laneStatus)

/-! ### LANE.MAP (R77) -/

/-- The lane entry of a map at fault first: out of range, behind an unmapped lane, or naming a port again. -/
def mapFault (ps : List Nat) : Option Nat :=
  (List.range 16).find? fun l =>
    let p := ps.getD l 0xFF
    p != 0xFF && (decide (15 < p) || (ps.take l).contains 0xFF || (ps.take l).contains p)

/-- The state of a lane whose port changes, reset under R101: its lamp-sample history starts anew on every channel, and a re-seed of R90
still to come stays. DEDUCED: log entry 43. -/
def Corr.restart (c : Chip) (x : Corr) : Corr :=
  { x with
    delta := 0, flickerGain := 0x4000, obClamped := 0, flickerHolds := 0, flickerClamped := 0, lastLine := none
    lampFrom := vmapIdx (fun k _ => (vget c.aux.ch k).delivered.length) x.lampFrom }

/-- Assigns ports to lanes; a lane whose port changes starts anew (R77, R131). DEDUCED: log entry 43. -/
def mapLanes (ps : List Nat) (c : Chip) : Chip :=
  let new (l : Nat) : Option Nat := if ps.getD l 0xFF = 0xFF then none else some (ps.getD l 0xFF)
  let changed (l : Nat) : Bool := (vget c.lane l).port != new l
  refreshPeriod { c with
    lane := vmapIdx (fun l x => if x.port = new l then x else { port := new l }) c.lane
    corr := vmapIdx (fun l x => if changed l then x.restart c else x) c.corr
    seam := vmapIdx (fun k x => if changed k || changed (k + 1) then
      { x with dc := 0, dm := 0, next := [], weakCount := 0, held := false, sums := [], possible := 0, confidence := 0, applies := [] } else x) c.seam }

/-- LANE.MAP. -/
def laneMap (_ : Env) (j : Job) (c : Chip) : Reply :=
  let p := j.payload
  let ps := (List.range 16).map fun l => rd p l 1
  checked
    [lenIs 32 j, param ((mapFault ps).getD 0) (mapFault ps).isNone, reserved p 16 16, stateRule c (mode c == 4),
     stateRule c (ps.all fun n => n == 0xFF || (vget c.port n).state == .ready)] c
    (reply stOk (mapLanes ps c))

def execLaneMap (t : Nat) (mb : Fin 8) (s : State) : Host.Outcome State Fault Refusal :=
  .next (s.command 0x0205 t mb laneMap)

/-! ### Virtual cameras (R78 to R83) -/

/-- The settings a VCAM.CONFIGURE request carries. -/
def vcamCfgOf (p : List Byte) : VcamCfg :=
  { port := rd p 1 1, mono12p := rd p 3 1 == 1, links := rd p 4 1, speed := rd p 5 1, cdDecimation := rd p 6 2,
    firstColumn := rd p 8 4, columnCount := rd p 12 4, mdDecimation := rd p 16 2, linesPerImage := rd p 18 2 }

/-- A port can be turned around for a virtual camera: mapped to no lane, no other virtual camera's, not discovering (R78); nor in FAULT,
which it leaves through a command with `power_on` alone (R68). DEDUCED: log entry 251. -/
def turnable (c : Chip) (k n : Nat) : Bool :=
  (laneOf c n).isNone && !((List.range 4).any fun i => i != k && (vget c.vcam i).enabled && (vget c.vcam i).cfg.port == n) &&
  (vget c.port n).state != .discovering && (vget c.port n).state != .fault

/-- A port becomes a virtual camera's (R78): PWR_ENn is deasserted and its links no longer serve a camera. -/
def turnPort (n : Nat) (c : Chip) : Chip :=
  modPort n (fun x => { x.idleLinks with state := .device, power := false, relocked := false, outstanding := [], timedOut := [] }) c

/-- A port returns to the Host role (R78). -/
def returnPort (n : Nat) (c : Chip) : Chip := modPort n (fun x => { x with state := .idle }) c

/-- A waiting change takes effect at an image boundary (R83), and the rate is judged again at the present period (R80). A change of port
waits on while the new one cannot be turned around. DEDUCED: log entry 251. -/
def vcamTake (k : Nat) (c : Chip) : Chip :=
  let v := vget c.vcam k
  match v.next with
  | none => c
  | some cfg =>
    if !v.enabled || v.imageLine != 0 || (cfg.port != v.cfg.port && !turnable c k cfg.port) then c
    else
      let c := if cfg.port = v.cfg.port then c else turnPort cfg.port (returnPort v.cfg.port c)
      let c := { c with vcam := vset c.vcam k { v with cfg, next := none, stopped := false } }
      if cfg.fits c.trig.minPeriod then c else vcamStop k c

/-- VCAM.CONFIGURE: turning a port around, changing a virtual camera at its next image boundary, or returning the port, whichever port
the request names. DESIGN CHOICE: log entry 255. -/
def vcamConfigure (_ : Env) (j : Job) (c : Chip) : Reply :=
  let p := j.payload
  let k := rd p 0 1
  let v := vget c.vcam k
  let on := rd p 2 1 == 1
  let cfg := vcamCfgOf p
  let n := cfg.port
  checked
    [lenIs 32 j, inRange p 0 1 0 3, inRange p 1 1 0 15, inRange p 2 1 0 1, inRange p 3 1 0 1, param 4 ([1, 2, 4].contains cfg.links),
     param 5 (linkSpeeds.contains cfg.speed), param 6 (isPow2 cfg.cdDecimation && cfg.cdDecimation ≤ 256), inRange p 8 4 0 262143,
     param 12 (cfg.columnCount % max 1 cfg.cdDecimation == 0 && cfg.columnCount / max 1 cfg.cdDecimation ≤ 65536), inRange p 16 2 1 4096,
     inRange p 18 2 1 65535, reserved p 20 12, crossRule (!on || cfg.fits c.trig.minPeriod),
     stateRule c (!on || turnable c k n),
     ownRule stNoSpace (!on || !((List.range 4).all fun i => (vget c.vcam i).enabled && (vget c.vcam i).cfg.port != n))] c
    (let body := le 4 cfg.width ++ le 4 (1000000000 / c.trig.minPeriod) ++
       le 4 (ceilDiv cfg.load (c.trig.minPeriod * cfg.mdDecimation)) ++ le 4 (cfg.capacity / 100)
     if !on then
       replyBody body (let off := { v with enabled := false, next := none, stopped := false, acquiring := false, imageLine := 0 }
                       let c' := { c with vcam := vset c.vcam k off }
                       if v.enabled then returnPort v.cfg.port c' else c')
     else if v.enabled then
       replyBody body (vcamTake k { c with vcam := vset c.vcam k { v with next := some cfg, imageLine := if v.stopped then 0 else v.imageLine } })
     else
       replyBody body (turnPort n { c with vcam := vset c.vcam k { enabled := true, cfg, userId := v.userId } }))

def execVcamConfigure (t : Nat) (mb : Fin 8) (s : State) : Host.Outcome State Fault Refusal :=
  .next (s.command 0x0207 t mb vcamConfigure)

/-- ASCII bytes of a text. -/
def ascii (s : String) : List Byte := s.toList.map fun ch => BitVec.ofNat 8 ch.toNat

/-- The value of a register or feature of a virtual camera (R82). DESIGN CHOICE: log entry 265. -/
def vcamRegister (c : Chip) (k r : Nat) : List Byte :=
  let v := vget c.vcam k
  match r with
  | 0 => ascii "Harsis Gesyn"
  | 1 => ascii "Ploras PW1640 VCAM" ++ [BitVec.ofNat 8 (48 + k)]
  | 2 => Config.serialText ++ ascii "-V" ++ [BitVec.ofNat 8 (48 + k)]
  | 3 => le 4 v.cfg.width
  | 4 => le 4 v.cfg.linesPerImage
  | 5 => le 4 (if v.cfg.mono12p then 0x010C0047 else 0x01080001)
  | 6 => le 2 v.cfg.links ++ le 2 v.cfg.speed
  | 7 => v.userId
  | 8 => le 4 v.cfg.cdDecimation
  | 9 => le 4 v.cfg.mdDecimation
  | 10 => le 4 v.cfg.firstColumn
  | 11 => le 4 c.trig.geo.cdPitch
  | 12 => Config.cxpStandard
  | 13 => Config.cxpRevision
  | 14 => le 4 1
  | _ => le 4 0

/-- A control packet of the downstream host (R81): code 0 acknowledges, code 1 is the error acknowledgement. DEDUCED: log entry 44. -/
def vcamControl (k : Nat) (op : VcamOp) (c : Chip) : Chip :=
  let v := vget c.vcam k
  let put (v : Vcam) (c : Chip) : Chip := { c with vcam := vset c.vcam k v }
  if !v.enabled then c
  else match op with
    | .discovery => emit (.vcamAck k 0 []) c
    | .read r => emit (.vcamAck k 0 (vcamRegister c k r)) c
    | .readXml offset length => emit (.vcamAck k 0 (sliceB Config.genicamFile offset length)) c
    | .writeReadOnly _ => emit (.vcamAck k 1 []) c
    | .connectionConfig links speed =>
      emit (.vcamAck k (if links = v.cfg.links ∧ speed = v.cfg.speed then 0 else 1) []) c
    | .acquisitionStart => emit (.vcamAck k 0 []) (put { v with acquiring := true, imageLine := 0 } c)
    | .acquisitionStop => emit (.vcamAck k 0 []) (vcamTake k (put { v with acquiring := false, imageLine := 0 } c))
    | .writeUserId x => emit (.vcamAck k 0 []) (put { v with userId := x } c)

def execVcamControlPacket (t : Nat) (k : Fin 4) (op : VcamOp) (s : State) : Host.Outcome State Fault Refusal :=
  .next (s.run t fun _ c => vcamControl k op c)

/-- A trigger packet of the downstream host is acknowledged and counted (R81). -/
def execVcamTriggerPacket (t : Nat) (k : Fin 4) (s : State) : Host.Outcome State Fault Refusal :=
  .next (s.run t fun _ c => if (vget c.vcam k).enabled then
    emit (.vcamAck k 0 []) { c with vcam := vmod c.vcam k fun v => { v with triggers := wrapU 64 (v.triggers + 1) } } else c)

/-- An output pixel of a virtual camera: the mean of the valid columns, halves up, 0 where none is valid (R79). -/
def vcamPixel (mono12p : Bool) (cols : List Pix) : Nat :=
  let ok := cols.filter (·.valid)
  let v := if ok.isEmpty then 0 else (ok.foldl (fun n x => n + x.grey) 0 + ok.length / 2) / ok.length
  if mono12p then v else min 255 ((v + 8) / 16)

/-- The pixels of an output line of a virtual camera (R79). -/
def vcamPixels (cfg : VcamCfg) (line : Stitched) : List Nat :=
  (List.range cfg.width).map fun k => vcamPixel cfg.mono12p ((line.columns.drop (cfg.firstColumn + k * cfg.cdDecimation)).take cfg.cdDecimation)

/-- A stitched line passes to the virtual cameras; a change waits for an image boundary (R79, R83). -/
def vcamEmit (line : Stitched) (c : Chip) : Chip :=
  (List.range 4).foldl (fun c k =>
    let c := vcamTake k c
    let v := vget c.vcam k
    if v.enabled && !v.stopped && v.acquiring && line.tag.number % max 1 v.cfg.mdDecimation == 0 then
      emit (.vcamLine k (v.imageLine == 0) (vcamPixels v.cfg line))
        { c with vcam := vset c.vcam k { v with imageLine := if v.imageLine + 1 ≥ v.cfg.linesPerImage then 0 else v.imageLine + 1 } }
    else c) c

/-! ### TRIG.CONFIGURE (R41, R54, R599) -/

/-- The re-anchor of TRIG.CONFIGURE (R599): state held by trigger number goes, settings and what they have still to do (resets of the
model, re-seeds, a seam position, the flag of a transaction applied in CONFIGURE) stay, from trigger 0. Pending tag flags of earlier
motion go. DEDUCED: log entries 38 and 248. -/
def reanchor (c : Chip) : Chip :=
  let c := writerFill 0 c
  let o := c.orangery
  { c with
    trig := { c.trig with
      anchored := false, number := 0, mdCount := 0, hwm := 0, mdPrev := 0, j := 1, lastTrigger := none, tags := [], leaderTags := [], skipPending := false,
      reversePending := false, realignPending := false, saturatePending := false,
      delayFrom := Vector.replicate 16 none, lastApplied := none, held := [], gridAt := 0 }
    lane := vmapIdx (fun _ x => { x with buffer := [], lost := [] }) c.lane
    corr := vmapIdx (fun _ x => { x with lastLine := none, reseed := x.reseed.map fun _ => 0 }) c.corr
    seam := vmapIdx (fun _ x => { x with next := x.next.map (fun y => (y.1, y.2.1, 0, y.2.2.2)), sums := [], possible := 0, taints := [], applies := x.applies.map fun _ => 0, appliedAt := 0 }) c.seam
    perg := { c.perg with contributions := Vector.replicate 16 [], next := 0, out := [], recent := [], expired := [], takeoverAt := [] }
    det := { c.det with rows := [], out := [], last := none, delivered := none, resets := c.det.resets.map (fun y => (0, y.2)), stat := [], verdictUntil := 0, due := none }
    carry := { c.carry with runs := [], lastLine := none, lastValid := [] }
    rotunda := { c.rotunda with samples := [] }
    orangery := { o with building := Vector.replicate 16 [], span := 0, spanSeen := false, staging := [], blocks := [], index := [], seamLog := [], pins := [] }
    time := { c.time with pulse := vmapIdx (fun _ x => if 2 ≤ x.mode ∧ (x.state = .armed ∨ x.state = .running) then { x with state := .cancelled } else x) c.time.pulse }
    view := vmapIdx (fun _ v => { v with rows := [], current := [], boxes := [], lastRow := none }) c.view
    abacus := { c.abacus with held := none }
    gang := { c.gang with
      samples := [], exchange := [], importKeys := [], tags := [], pitches := []
      gridsAbove := (c.gang.gridsAbove.take 1).map (fun y => (0, y.2)), gridsBelow := (c.gang.gridsBelow.take 1).map (fun y => (0, y.2))
      seam := { c.gang.seam with next := c.gang.seam.next.map (fun y => (y.1, y.2.1, 0, y.2.2.2)), sums := [], possible := 0, taints := [] } }
    older := [] }

/-- TRIG.CONFIGURE; on a follower of a joined gang it sets the local channel alone (R397). -/
def trigConfigure (_ : Env) (j : Job) (c : Chip) : Reply :=
  let p := j.payload
  let f := rd p 1 1
  let w := rd p 2 2
  let m := rd p 8 4
  checked
    [lenIs 24 j, inRange p 0 1 0 7, param 1 (f < 4), param 2 (8 ≤ w && w % 4 == 0), param 8 (m == 0 || (400 ≤ m && m ≤ 1000000000)),
     reserved p 12 4, stateRule c (mode c == 4)] c
    (let c := if c.gang.formed && c.gang.role == 1 then
         { c with trig := { c.trig with mainChannel := rd p 0 1, configuredSince := true } }
       else refreshPeriod (reanchor { c with trig := { c.trig with
         mainChannel := rd p 0 1, cxpDelayComp := bit f 0, trigoutActiveLow := bit f 1, trigoutWidthNs := w, cxpTriggerMask := rd p 4 2,
         trigoutMask := rd p 6 2, minPeriodReq := m, mdStart := rd p 16 8, configuredSince := true } })
     replyBody (le 4 Config.cxpLead ++ le 4 Config.trigoutLead ++ le 4 c.trig.minPeriod) c)

def execTrigConfigure (t : Nat) (mb : Fin 8) (s : State) : Host.Outcome State Fault Refusal :=
  .next (s.command 0x0302 t mb trigConfigure)

end Sys2Proof.Machine
end

