-- ==== Sys2Proof/Machine/Settings.lean ====
section
/-! DEFINITION. The settings a stitched line is processed with (R309): a transaction that applies at trigger N0 changes them
for the stitched lines, and the records, from N0 on; a line below N0 that is still in the pipeline keeps the older ones. -/
namespace Sys2Proof.Machine

/-- The settings in force now, those of the newest trigger. -/
def settingsOf (c : Chip) : Settings :=
  { pitchNum := c.trig.pitchNum, pitchDen := c.trig.pitchDen, geo := c.trig.geo, delayFrom := c.trig.delayFrom,
    banks := vmapIdx (fun _ x => x.bank) c.corr, seams := c.seam, reference := c.det.reference, bands := c.det.bands,
    planes := c.det.planes, filters := c.det.filters, streak := c.det.streak, fd := c.det.fd, planeSelect := c.carry.planeSelect,
    segmentLinesLog2 := c.carry.segmentLinesLog2, minArea := c.carry.minArea, model := c.abacus.model, generation := c.abacus.generation,
    recordChannel := c.rotunda.recordChannel, rolls := c.rotunda.rolls, tiles := c.tiles.cfg,
    heads := vmapIdx (fun _ h => h.cfg) c.mark.heads, rules := c.mark.rules }

/-- The settings for a stitched line, or for a record whose last line it is: those replaced by the earliest application above
the line, or else the present ones (R309). DESIGN CHOICE: log entry 245. -/
def settingsAt (c : Chip) (n : Nat) : Settings :=
  match (c.older.filter fun x => decide (n < x.1)).getLast? with
  | some x => x.2
  | none => settingsOf c

/-- Least number of a list with a bound. -/
def minOf (bound : Nat) (l : List Nat) : Nat := l.foldl min bound

/-- The oldest stitched line that any stage has still to process, or that may still end a blob. -/
def oldestLine (c : Chip) : Nat :=
  minOf (min c.trig.number c.perg.next)
    (c.perg.out.map (·.tag.number) ++ c.det.out.map (·.line.tag.number) ++ c.carry.closed.map (·.blob.nLast) ++
     ((c.det.rows.map (·.line.tag.number)).filter fun n => (c.det.delivered.map fun m => decide (m < n)).getD true) ++
     c.carry.open_.map (·.nLast) ++ c.carry.regions.map (·.2.nLast))

/-- Older settings that no line can need any more are dropped. DESIGN CHOICE: log entry 245. -/
def pruneOlder (c : Chip) : Chip :=
  match c.older with
  | [] => c
  | xs => { c with older := xs.filter fun x => decide (oldestLine c < x.1) }

/-- Keeps the present settings for the lines below N0, before a transaction changes them. DESIGN CHOICE: log entry 245. -/
def keepSettings (n0 : Nat) (c : Chip) : Chip :=
  if c.older.any fun x => x.1 == n0 then c else pruneOlder { c with older := (n0, settingsOf c) :: c.older }

/-- A lane's line delay under given settings, halves rounded up (R49). -/
def Settings.delay (x : Settings) (l : Nat) : Nat :=
  if x.pitchNum = 0 then 0 else (2 * (vget x.geo.viewOffset l * x.pitchDen) + x.pitchNum) / (2 * x.pitchNum)

end Sys2Proof.Machine
end

