-- ==== Sys2Proof/Machine/Correction.lean ====
section
/-! DEFINITION. The lane engine of chapter 4: the correction path, the forward and inverse maps, the correction of a camera
line for its stitched line, and the staged correction tables. -/
namespace Sys2Proof.Machine

/-! ### Steps 1 to 5 (R87 to R95) -/

/-- Arithmetic shift right. -/
def asr (x : Int) (n : Nat) : Int := x / 2 ^ n

/-- Bits by which a format is shifted to 14 bits (R87). -/
def Port.shift (p : Port) : Nat := 14 - p.bitsPerPixel

/-- Step 1 (R87). -/
def unpack (p : Port) (raw : List Nat) : List Nat := raw.map fun x => x % 2 ^ p.bitsPerPixel * 2 ^ p.shift

/-- x of a saturated pixel (R87). -/
def Port.fullScale (p : Port) : Nat := (2 ^ p.bitsPerPixel - 1) * 2 ^ p.shift

/-- Table entry of a camera pixel: offset and gain entry. DESIGN CHOICE: log entry 50. -/
def CorrBank.entry (b : CorrBank) (u : Nat) : Int × Nat := b.table.getD u (0, 0x4000)

/-- A gain entry that is a defect code. -/
def isDefect (g : Nat) : Bool := decide (0xFFFD ≤ g)

/-- 4·x(u) − o(u) of a pixel. -/
def CorrBank.dark (b : CorrBank) (xs : List Nat) (u : Nat) : Int := 4 * (xs.getD u 0 : Int) - (b.entry u).1

/-- The optical-black pixels that are not defective. -/
def CorrBank.obPixels (b : CorrBank) : List Nat :=
  ((List.range b.params.obCount).map (b.params.obFirst + ·)).filter fun u => !isDefect (b.entry u).2 && !b.broken.contains u

/-- m of R89: the rounded mean over the optical-black pixels; none where every one is defective (R90). -/
def CorrBank.obMean (b : CorrBank) (xs : List Nat) : Option Int :=
  match b.obPixels with
  | [] => none
  | us => some (divNearest (us.foldl (fun s u => s + b.dark xs u) 0) us.length)

/-- Whether drift is tracked (R89). -/
def CorrBank.tracks (b : CorrBank) : Bool := b.params.obEnable && b.params.obCount != 0

/-- δ after the line that gave m, before the clamp (R89). -/
def deltaStep (k : Nat) (delta m : Int) : Int := if k = 0 then m else delta + asr (m - delta + 2 ^ (k - 1)) k

/-- y1 of every camera pixel (R88). -/
def CorrBank.step2 (b : CorrBank) (delta : Int) (xs : List Nat) : List Int := xs.mapIdx fun u _ => b.dark xs u - delta

/-- A good pixel (R92), its distance apart. -/
def CorrBank.good (b : CorrBank) (u : Nat) : Bool :=
  !isDefect (b.entry u).2 && !b.broken.contains u && decide (b.params.activeFirst ≤ u) && decide (u ≤ b.params.activeLast)

/-- Distance of the nearest good pixel on the left, at most 8 (R92). -/
def CorrBank.goodLeft (b : CorrBank) (u : Nat) : Option Nat :=
  ((List.range 8).map (· + 1)).find? fun d => decide (d ≤ u) && b.good (u - d)

/-- Distance of the nearest good pixel on the right, at most 8 (R92). -/
def CorrBank.goodRight (b : CorrBank) (u : Nat) : Option Nat := ((List.range 8).map (· + 1)).find? fun d => b.good (u + d)

/-- A defective pixel that lacks a required neighbour (R92), or whose table word is lost (R507). -/
def CorrBank.unreplaceable (b : CorrBank) (u : Nat) : Bool :=
  b.broken.contains u || match (b.entry u).2 with
  | 0xFFFD => (b.goodLeft u).isNone || (b.goodRight u).isNone
  | 0xFFFE => (b.goodLeft u).isNone
  | 0xFFFF => (b.goodRight u).isNone
  | _ => false

/-- y2 of a pixel with a gain (R91). -/
def gained (y1 : Int) (g : Nat) : Int := asr (y1 * g + 8192) 14

/-- Steps 3 and 4: y2 of every camera pixel; 0 where it is unreplaceable (R91, R92). -/
def CorrBank.step4 (b : CorrBank) (ys : List Int) : List Int :=
  let y2 (u : Nat) : Int := gained (ys.getD u 0) (b.entry u).2
  ys.mapIdx fun u y =>
    let l := b.goodLeft u
    let r := b.goodRight u
    if b.broken.contains u then 0
    else match (b.entry u).2, l, r with
    | 0xFFFD, some dl, some dr => (y2 (u - dl) * dr + y2 (u + dr) * dl + ((dl + dr) / 2 : Nat)) / ((dl + dr : Nat) : Int)
    | 0xFFFE, some dl, _ => y2 (u - dl)
    | 0xFFFF, _, some dr => y2 (u + dr)
    | g, _, _ => if isDefect g then 0 else gained y g

/-- Step 5: y3 of every camera pixel (R94, R95). DEDUCED: log entry 52. -/
def CorrBank.step5 (b : CorrBank) (full f : Nat) (xs : List Nat) (y2 : List Int) : List Int :=
  y2.mapIdx fun u y =>
    if b.params.saturatePropagate && xs.getD u 0 == full && !isDefect (b.entry u).2 then 65535
    else clampI 0 65535 (asr (y * f + 8192) 14)

/-! ### Flicker (R93, R94) -/

/-- The value at time t on the straight line through two samples (time, value). -/
def lineThrough (a b : Rat × Int) (t : Rat) : Rat :=
  if a.1 = b.1 then b.2 else (a.2 : Rat) + ((b.2 - a.2 : Int) : Rat) * (t - a.1) / (b.1 - a.1)

/-- The newest sample before t and the oldest at or after it, of samples newest first. -/
def bracket : List (Rat × Int) → Rat → Option ((Rat × Int) × (Rat × Int))
  | hi :: lo :: rest, t => if lo.1 < t then (if t ≤ hi.1 then some (lo, hi) else none) else bracket (lo :: rest) t
  | _, _ => none

/-- m(t) of R93 from the delivered samples, newest first, and the output period; none where there is no new value.
DESIGN CHOICE: log entry 160. -/
def lampLevel (samples : List (Rat × Int)) (period : Rat) (t : Rat) : Option Rat :=
  let m : Option Rat := match samples with
    | [] => none
    | [x] => if x.1 = t then some x.2 else none
    | x :: y :: _ =>
      if t ≤ x.1 then (match bracket samples t with
        | some (lo, hi) => some (lineThrough lo hi t)
        | none => (samples.find? fun s => s.1 == t).map fun s => (s.2 : Rat))
      else if t ≤ x.1 + period then some (lineThrough y x t) else none
  m.filter fun v => decide (0 < v)

/-- Modulator samples per output of an auxiliary channel (R376, R385). -/
def Aux.decimation (a : Aux) : Nat :=
  if a.single then 4 * 2 ^ a.cicLog2 + a.guardSamples else 2 ^ a.cicLog2 * 2 ^ a.halfbands * 2 ^ a.firDecimLog2

/-- Modulator samples in ns: the modulator runs at 10.24 MHz (R372). -/
def modulatorNs (n : Rat) : Rat := n * 3125 / 32

/-- m(t) for the camera line of a trigger at Sundial time `at_`, from the lane's lamp-sample history (R93, R101). -/
def lampAt (c : Chip) (x : Corr) (b : CorrBank) (at_ : Nat) : Option Rat :=
  let k := b.params.lampChannel % 8
  let a := vget c.aux.ch k
  lampLevel (a.delivered.take (a.delivered.length - vget x.lampFrom k)) (modulatorNs a.decimation) (((at_ : Int) + b.params.exposureMidNs : Int) : Rat)

/-- A rational to the nearest integer, halves up. -/
def ratRound (x : Rat) : Int := (x + 1 / 2).floor

/-- f of R94 before the clamp. -/
def flickerGainOf (ref : Int) (m : Rat) : Int := ratRound (16384 * (ref : Rat) / m)

/-- The flicker gain of a line: the gain, whether it was held for want of a new value, whether it was clamped (R93, R94). -/
def flickerOf (b : CorrBank) (held : Nat) (level : Option Rat) : Nat × Bool × Bool :=
  if !b.params.flickerEnable then (0x4000, false, false)
  else match level with
    | none => (held, true, false)
    | some m =>
      let raw := flickerGainOf b.params.lampRef m
      let f := (clampI 0x2000 0x8000 raw).toNat
      (f, false, raw != f)

/-! ### Forward and inverse maps (R96 to R99) -/

/-- First pixel of segment s for a camera of width w (R96). -/
def segFirst (w s : Nat) : Nat := s * w / 64

/-- CD × 256 of the position p/1024, as a numerator over (1024·len)³, in the segment from `us` of length `len`. -/
def segCd (g : Segment) (us len p : Nat) : Int :=
  let d : Int := 1024 * len
  let x : Int := (p : Int) - 1024 * us
  256 * g.a0 * d ^ 3 + g.a1 * x * d ^ 2 + g.a2 * x ^ 2 * d + g.a3 * x ^ 3

/-- Segment of a position in 1/1024 pixel: the last non-empty one that starts at or before it. -/
def segOf (w p : Nat) : Nat :=
  ((List.range 64).filter fun s => decide (segFirst w s < segFirst w (s + 1)) && decide (1024 * segFirst w s ≤ p)).getLastD 0

/-- CD × 256 at a position p/1024, as a fraction: numerator and denominator (R96). -/
def cdAt (m : List Segment) (w p : Nat) : Int × Int :=
  let s := segOf w p
  let us := segFirst w s
  let len := max 1 (segFirst w (s + 1) - us)
  (segCd (m.getD s { a0 := 0, a1 := 0, a2 := 0, a3 := 0 }) us len p, (1024 * len : Int) ^ 3)

/-- Whether the map's CD at a position is at or below a CD in wu. -/
def cdLe (m : List Segment) (w p : Nat) (cd : Int) : Bool :=
  let (n, d) := cdAt m w p
  decide (n ≤ 256 * cd * d)

/-- Whether the map's CD rises from one position to another. -/
def cdRises (m : List Segment) (w p q : Nat) : Bool :=
  let (n, d) := cdAt m w p
  let (n', d') := cdAt m w q
  decide (n * d' < n' * d)

/-- The map increases over the active range. -/
def CorrBank.increasing (b : CorrBank) (m : List Segment) (w : Nat) : Bool :=
  cdRises m w (1024 * b.params.activeFirst) (1024 * b.params.activeLast)

/-- Bisection: the largest position from lo that keeps the test, in k halvings of the span. -/
def bisect (test : Nat → Bool) : Nat → Nat → Nat
  | 0, lo => lo
  | k + 1, lo => bisect test k (if test (lo + 2 ^ k) then lo + 2 ^ k else lo)

/-- The exact camera position of a CD, rounded down to 1/1024 pixel; none where the CD lies outside the active range.
DESIGN CHOICE: log entry 51. -/
def CorrBank.position (b : CorrBank) (m : List Segment) (w : Nat) (cd : Int) : Option Nat :=
  let lo := 1024 * b.params.activeFirst
  let hi := 1024 * b.params.activeLast
  let up := b.increasing m w
  let before (p : Nat) : Bool := decide (p ≤ hi) && (if up then cdLe m w p cd else decide (256 * cd * (cdAt m w p).2 ≤ (cdAt m w p).1))
  if !before lo then none
  else
    let p := bisect before 25 lo
    if p = hi ∧ (cdAt m w p).1 ≠ 256 * cd * (cdAt m w p).2 then none else some p

/-- xc of R97: the exact position with the derivation's error of at most 1/64 pixel. DESIGN CHOICE: log entry 51. -/
def CorrBank.xc (b : CorrBank) (l : Nat) (m : List Segment) (w : Nat) (g : Geometry) (col : Int) : Option Int :=
  (b.position m w (g.column0 + col * g.cdPitch)).map fun p =>
    (p : Int) + ((Config.inverseError b.derived l (col + 264).toNat % 32 : Nat) : Int) - 15

/-- Tap i and phase φ of a position (R98). DEDUCED: log entry 52. -/
def tapPhase (xc : Int) : Int × Nat :=
  let i := xc / 1024
  let f := ((xc % 1024).toNat * 64 + 512) / 1024
  if f = 64 then (i + 1, 0) else (i, f)

/-- Quotient rounded to nearest, halves away from zero. -/
def divAway (a : Int) (b : Nat) : Int := if 0 ≤ a then (2 * a + b) / (2 * b : Int) else -((2 * -a + b) / (2 * b : Int))

/-- The weights of a phase (R98). DEDUCED: log entry 52. -/
def weights (linear : Bool) (phi : Nat) : Int × Int × Int × Int :=
  let f : Int := phi
  if linear then
    let w1 := 16384 - 256 * f
    (0, w1, 16384 - w1, 0)
  else
    let w0 := divAway (-f ^ 3 + 128 * f ^ 2 - 4096 * f) 32
    let w2 := divAway (-3 * f ^ 3 + 256 * f ^ 2 + 4096 * f) 32
    let w3 := divAway (f ^ 3 - 64 * f ^ 2) 32
    (w0, 16384 - w0 - w2 - w3, w2, w3)

/-- Whether a column at xc is produced (R99). -/
def CorrBank.inRange (b : CorrBank) (xc : Int) : Bool :=
  let (lo, hi) := if b.params.linear then (b.params.activeFirst, b.params.activeLast - 1) else (b.params.activeFirst + 1, b.params.activeLast - 2)
  decide (1024 * (lo : Int) ≤ xc) && decide (xc ≤ 1024 * (hi : Int))

/-- Whether a lane produces a column. -/
def CorrBank.produces (b : CorrBank) (l : Nat) (m : List Segment) (w : Nat) (g : Geometry) (col : Int) : Bool :=
  ((b.xc l m w g col).map b.inRange).getD false

/-- A CD in wu of a position, rounded down. -/
def cdFloor (m : List Segment) (w p : Nat) : Int :=
  let (n, d) := cdAt m w p
  n / (256 * d)

/-- First and last column whose position can lie within the active range. -/
def CorrBank.candidates (b : CorrBank) (m : List Segment) (w : Nat) (g : Geometry) : Nat × Nat :=
  let x := cdFloor m w (1024 * b.params.activeFirst)
  let y := cdFloor m w (1024 * b.params.activeLast)
  let pitch : Int := max 1 g.cdPitch
  (((min x y - g.column0) / pitch).toNat, min (g.columnCount - 1) ((max x y - g.column0) / pitch + 1).toNat)

/-- The columns a lane produces (R99). -/
def CorrBank.columns (b : CorrBank) (l w : Nat) (g : Geometry) : List Nat :=
  match b.map with
  | none => []
  | some m =>
    if b.params.activeLast ≤ b.params.activeFirst ∨ g.columnCount = 0 then []
    else
      let (lo, hi) := b.candidates m w g
      ((List.range (hi + 1 - lo)).map (lo + ·)).filter fun col => b.produces l m w g col

/-- The columns before its own grid that lane L0 produces for the tending-side neighbour in a gang (R398), and those at the
start of the grid that it sends along: −overlap to +7. -/
def CorrBank.gangColumns (b : CorrBank) (w overlap : Nat) (g : Geometry) : List Int :=
  match b.map with
  | none => []
  | some m => ((List.range (overlap + 8)).map fun (i : Nat) => (i : Int) - overlap).filter (b.produces 0 m w g)

/-- Overlap that lane L0 of this device produces for a neighbour: `gang_overlap` of the member below, whose seam it is; none before the
gang has formed, or at position 0 (R398, R408). DEDUCED: log entry 60. -/
def exportOverlap (c : Chip) : Nat := if c.gang.cfg.size ≤ 1 ∨ c.gang.cfg.position = 0 then 0 else c.gang.overlaps.getD (c.gang.cfg.position - 1) 0

/-- First and last column of a list. -/
def spanOf (cols : List Nat) : Option (Nat × Nat) :=
  match cols with
  | [] => none
  | x :: _ => some (x, cols.getLastD x)

/-- Camera width of a lane: the one read at discovery. -/
def laneWidth (c : Chip) (l : Nat) : Nat := (((vget c.lane l).port).map fun n => (vget c.port n).width).getD 0

/-- Derives the inverse map of every mapped lane (R97), the derivation with a given index. -/
def deriveMaps (derivation : Nat) (c : Chip) : Chip :=
  { c with corr := vmapIdx (fun l x =>
      let b := { x.bank with derived := derivation }
      if laneMapped c l then { x with bank := { b with span := spanOf (b.columns l (laneWidth c l) c.trig.geo) } }
      else { x with bank := { x.bank with span := none } }) c.corr }

/-- R96: the segments agree at the inner knots, and the map is strictly monotone over the pixel centres of the active range.
DESIGN CHOICE: log entry 51. -/
def CorrBank.mapOk (b : CorrBank) (w : Nat) : Bool :=
  match b.map with
  | none => true
  | some m =>
    let used := (List.range 64).filter fun s => decide (segFirst w s < segFirst w (s + 1))
    let knots := (used.zip (used.drop 1)).all fun (s, t) =>
      let x := m.getD s { a0 := 0, a1 := 0, a2 := 0, a3 := 0 }
      let y := m.getD t { a0 := 0, a1 := 0, a2 := 0, a3 := 0 }
      decide ((256 * x.a0 + x.a1 + x.a2 + x.a3 - 256 * y.a0).natAbs ≤ 256)
    let up := b.increasing m w
    knots && (List.range (b.params.activeLast - b.params.activeFirst)).all fun i =>
      let p := 1024 * (b.params.activeFirst + i)
      if up then cdRises m w p (p + 1024) else cdRises m w (p + 1024) p

/-- R99: the columns a lane produces, those for a gang neighbour included (R398), do not outnumber the camera's pixels. -/
def CorrBank.columnsOk (b : CorrBank) (l w overlap : Nat) (g : Geometry) : Bool :=
  let extra := if l = 0 ∧ overlap ≠ 0 then ((b.gangColumns w overlap g).filter fun x => decide (x < 0)).length else 0
  decide ((b.columns l w g).length + extra ≤ w)

/-- One output pixel (R98, R99); the two taps nearest xc are those beside it, whatever the phase is rounded to. DEDUCED: log entry 52. -/
def CorrBank.pixel (b : CorrBank) (full : Nat) (xs : List Nat) (y3 : List Int) (xc : Int) : Option Nat :=
  let (i, phi) := tapPhase xc
  let (w0, w1, w2, w3) := weights b.params.linear phi
  let taps : List (Int × Int) := [(i - 1, w0), (i, w1), (i + 1, w2), (i + 2, w3)]
  if taps.any (fun x => x.2 != 0 && b.unreplaceable x.1.toNat) then none
  else
    let saturated (u : Int) : Bool := xs.getD u.toNat 0 == full && !isDefect (b.entry u.toNat).2
    if b.params.saturatePropagate && (saturated (xc / 1024) || saturated (xc / 1024 + 1)) then some 4095
    else
      let v := asr (taps.foldl (fun s x => s + x.2 * y3.getD x.1.toNat 0) 0 + 8192) 14
      some (clampI 0 4095 (asr (v + 8) 4)).toNat

/-! ### The camera line of a stitched line (R49, R50, R103) -/

/-- The buffered line whose MD lies nearest a target, the older where two are equally near. DEDUCED: log entry 54. -/
def nearestMd (xs : List CamLine) (md : Int) : Option CamLine :=
  xs.foldl (fun best x => match best with
    | none => some x
    | some y => if ((x.md : Int) - md).natAbs < ((y.md : Int) - md).natAbs then some x else some y) none

/-- The camera line of a lane for stitched line n (R49, R50); none where there is none or it is not in the buffer.
DEDUCED: log entries 35 and 54. -/
def cameraLine (c : Chip) (x : Settings) (l n : Nat) : Option CamLine :=
  let d := x.delay l
  let lane := vget c.lane l
  let crossing := match vget x.delayFrom l with
    | some n0 => decide (n < n0 + d) && decide (n0 ≤ n)
    | none => false
  if crossing then
    nearestMd (lane.buffer.take 64).reverse ((((tagOf c n).map (·.md)).getD 0 : Int) - vget x.geo.viewOffset l)
  else if n < d then none else lane.buffer.find? fun y => y.number == n - d

/-- R50: stitched line n stands in the transition of a mapped lane whose delay changed. DEDUCED: log entries 35 and 54. -/
def inTransition (c : Chip) (x : Settings) (n : Nat) : Bool :=
  (mappedLanes c).any fun l => match vget x.delayFrom l with
    | some n0 => decide (n0 ≤ n) && decide (n < n0 + x.delay l)
    | none => false

/-! ### The correction of a line (R86, R89, R90, R103) -/

/-- δ of a lane after a line, and whether it was clamped (R89); a re-seed takes m as it is, and a line without m leaves δ unchanged (R90).
DEDUCED: log entry 53. -/
def nextDelta (b : CorrBank) (xs : List Nat) (reseeds : Bool) (delta : Int) : Int × Bool :=
  if !b.tracks then (0, false)
  else match b.obMean xs, reseeds with
    | none, true => (0, false)
    | some m, true => (m, false)
    | none, false => (delta, false)
    | some m, false =>
      let raw := deltaStep b.params.obTauLog2 delta m
      let new := clampI (-(b.params.obDriftLimit : Int)) b.params.obDriftLimit raw
      (new, new != raw)

/-- What an engine makes of one camera line: x of step 1, y3 of step 5, the columns of the web grid from the first one on, those for
the gang neighbour, and the lane state after the line, its counts apart. -/
structure EngineLine where
  xs : List Nat
  y3 : List Int
  lamp : Option Rat
  first : Nat
  pixels : List (Option Nat)
  state : Corr
  /-- The camera line's first correction, which forms δ (R90). -/
  fresh : Bool
  held : Bool
  clamped : Bool
  obClamped : Bool

/-- The whole path of R86: the camera line of lane l for stitched line n, under the settings of that line, from a lane state. The
working engine starts from the lane's own, the spare that shadows it from its copy (R101); both read the same tables (R139). -/
def engineLine (c : Chip) (l n : Nat) (x : Settings) (line : CamLine) (st : Corr) : EngineLine :=
  let broken := ((vget c.corr l).broken.filter fun y => decide (c.now < y.2)).map (·.1)
  let b := { (vget x.banks l) with broken := broken ++ line.lost }
  let p := vget c.port (((vget c.lane l).port).getD 0)
  let xs := unpack p line.pixels
  let fresh := (st.lastLine.map fun j => decide (j < line.number)).getD true
  let reseeds := fresh && st.reseed.any fun n0 => decide (n0 ≤ n)
  let delta : Int := if !b.tracks || reseeds then 0 else st.delta
  let at_ := ((tagOf c line.number).map fun t => t.timeS * 1000000000 + t.timeNs).getD (sunNs c)
  let lamp := if b.params.flickerEnable then lampAt c st b at_ else none
  let (f, held, clamped) := flickerOf b st.flickerGain lamp
  let y3 := b.step5 p.fullScale f xs (b.step4 (b.step2 delta xs))
  let cols := b.columns l p.width x.geo
  let pixels : List (Option Nat) := match spanOf cols, b.map with
    | some (lo, hi), some m => (List.range (hi + 1 - lo)).map fun i =>
        if cols.contains (lo + i) then (b.xc l m p.width x.geo (lo + i)).bind (b.pixel p.fullScale xs y3) else none
    | _, _ => []
  let (new, limited) := nextDelta b xs reseeds st.delta
  let st := if b.params.flickerEnable then { st with flickerGain := f } else st
  { xs, y3, lamp, first := cols.headD 0, pixels, fresh, held, clamped, obClamped := fresh && limited
    state := if fresh then { st with delta := new, reseed := st.reseed.filter fun n0 => !decide (n0 ≤ n), lastLine := some line.number } else st }

/-- A running calibration captures a line of one of its lanes: raw in a flat-field phase (R105, R106), corrected, and the lines of the
band after the two passes, in a geometry calibration (R109, R110). -/
def captureLine (l : Nat) (line : CamLine) (e : EngineLine) (c : Chip) : Chip :=
  match c.cal.run with
  | some r =>
    let span := 2 * 2 ^ rd r.request (if r.kind = 0 then 3 else 2) 1
    if bit (rd r.request 0 2) l ∧ r.first ≤ line.number ∧ (line.number < r.first + span ∨ (r.kind = 1 ∧ rd r.request 16 4 ≠ 0)) then
      let x : CalLine := { number := line.number, md := line.md, pixels := if r.kind = 0 then e.xs else e.y3.map Int.toNat, lamp := e.lamp }
      { c with cal := { c.cal with run := some { r with captured := vmod r.captured l (x :: ·) } } }
    else c
  | none => c

/-- An output line as it enters the CRC of R137: grey in bits [11:0], the valid bit in bit 15. -/
def crcPixels (xs : List (Option Nat)) : List Byte := xs.flatMap fun x => le 2 ((x.map (· + 0x8000)).getD 0)

/-- The CRC registers of the block of a line, after the line's pixels from the working engine and from the spare (R137). -/
def blockCrc (n : Nat) (working spare : List (Option Nat)) (bs : List (Nat × Nat × Nat)) : List (Nat × Nat × Nat) :=
  let k := n / 256 * 256
  let old := ((bs.find? fun b => b.1 == k).map (·.2)).getD (0xFFFFFFFF, 0xFFFFFFFF)
  (k, crc32Step old.1 (crcPixels working), crc32Step old.2 (crcPixels spare)) :: bs.filter fun b => b.1 != k

/-- The spare processes the line too while it shadows the lane, with its copy of the lane state (R101, R136, R137). -/
def shadowLine (l n : Nat) (x : Settings) (line : CamLine) (before : Corr) (working : List (Option Nat)) (c : Chip) : Chip :=
  match c.engines.shadow with
  | some (k, first) =>
    if k ≠ l ∨ n < first ∨ first + 2 ^ 20 ≤ n then c
    else
      let e := engineLine c l n x line (c.engines.copy.getD before)
      { c with engines := { c.engines with copy := some e.state, blocks := blockCrc n working e.pixels c.engines.blocks } }
  | none => c

/-- Lane L0 sends its samples for the tending-side neighbour, and those at the start of its grid, over the gang link, or the other way
round the ring (R398, R402). -/
def exportSamples (n : Nat) (x : Settings) (line : CamLine) (e : EngineLine) (c : Chip) : Chip :=
  let broken := ((vget c.corr 0).broken.filter fun y => decide (c.now < y.2)).map (·.1)
  let b := { (vget x.banks 0) with broken := broken ++ line.lost }
  let p := vget c.port (((vget c.lane 0).port).getD 0)
  let ov := exportOverlap c
  match b.map, c.gang.portBelow with
  | some m, some port =>
    if ov = 0 || !c.gang.hasBelow then c
    else
      let ks := b.gangColumns p.width ov x.geo
      emit (.sarec port 1 (le 8 n ++ leS 4 x.geo.column0 ++ le 4 x.geo.cdPitch ++ (List.range (ov + 8)).flatMap fun (i : Nat) =>
        let col : Int := (i : Int) - ov
        le 2 (match if ks.contains col then (b.xc 0 m p.width x.geo col).bind (b.pixel p.fullScale e.xs e.y3) else none with
          | some v => v + 0x8000
          | none => 0))) c
  | _, _ => c

/-- The lane's counts after a line (R89, R93, R94) and its total of lines corrected. -/
def countLine (l : Nat) (e : EngineLine) (c : Chip) : Chip :=
  let x := vget c.corr l
  let (holds, c) := satAdd 0x0402 12 l 32 x.flickerHolds (b2n e.held) c
  let (clamps, c) := satAdd 0x0402 16 l 32 x.flickerClamped (b2n e.clamped) c
  let (ob, c) := satAdd 0x0402 8 l 32 x.obClamped (b2n e.obClamped) c
  let (count, c) := satAdd 0x0D03 (88 + 8 * l) l 64 (vget c.life.totals.lines l) 1 c
  { c with
    corr := vmod c.corr l fun x => { x with flickerHolds := holds, flickerClamped := clamps, obClamped := ob }
    life := { c.life with totals := { c.life.totals with lines := vset c.life.totals.lines l count } } }

/-- The contribution of a lane to stitched line n, from a camera line (R86, R103). -/
def correctLine (l n : Nat) (x : Settings) (line : CamLine) (c : Chip) : Chip :=
  let before := vget c.corr l
  let e := engineLine c l n x line before
  let c := shadowLine l n x line before e.pixels c
  let c := if e.fresh then captureLine l line e c else c
  let c := countLine l e { c with corr := vset c.corr l e.state }
  let c := if l = 0 then exportSamples n x line e c else c
  { c with perg := { c.perg with contributions := vmod c.perg.contributions l fun ks =>
      (({ number := n, first := e.first, pixels := e.pixels } : Contribution) :: ks).take 128 } }

/-- Whether a lane has made, or given up, its contribution to a line. -/
def contributed (c : Chip) (l n : Nat) : Bool :=
  (vget c.perg.contributions l).any (fun k => k.number == n) || c.perg.expired.contains (l, n)

/-- LANE_LINE_CORRECTION: the engine bound to a mapped lane makes its contribution to stitched line n, once, where it has a
camera line for it. -/
def laneCorrects (l n : Nat) (c : Chip) : Chip :=
  if !pipelineRuns c || !laneMapped c l || (vget c.engines.binding l).isNone || bit c.engines.withheld l || contributed c l n || decide (n < c.perg.next)
    || decide (c.trig.number ≤ n) then c
  else
    let x := settingsAt c n
    match cameraLine c x l n with
    | some line => correctLine l n x line c
    | none => c

def execLaneLineCorrection (t : Nat) (lane : Fin 16) (n : Nat) (s : State) : Host.Outcome State Fault Refusal :=
  .next (s.run t fun _ c => laneCorrects lane n c)

/-! ### PIPE.SET_CORRECTION (R114, R115, R102) -/

/-- Lane parameters of item 0; `p` starts after `transaction_id`. -/
def laneParamsOf (p : List Byte) : LaneParams :=
  let f := rd p 15 1
  { activeFirst := rd p 4 2, activeLast := rd p 6 2, obFirst := rd p 8 2, obCount := rd p 10 2, obTauLog2 := rd p 12 1,
    lampChannel := rd p 13 1, linear := rd p 14 1 == 1, saturatePropagate := bit f 0, obEnable := bit f 1, flickerEnable := bit f 2,
    obDriftLimit := rd p 16 2, lampRef := rdS p 20 4, exposureMidNs := rdS p 24 4 }

/-- n table entries from an offset of a request. -/
def tableOf (p : List Byte) (off n : Nat) : List (Int × Nat) :=
  (List.range n).map fun i => (rdS p (off + 4 * i) 2, rd p (off + 4 * i + 2) 2)

/-- Table entries as bytes. -/
def tableBytes (xs : List (Int × Nat)) : List Byte := xs.flatMap fun e => leS 2 e.1 ++ le 2 e.2

/-- The 64 segments from an offset of a request. -/
def segmentsOf (p : List Byte) (off : Nat) : List Segment :=
  (List.range 64).map fun s =>
    { a0 := rdS p (off + 16 * s) 4, a1 := rdS p (off + 16 * s + 4) 4, a2 := rdS p (off + 16 * s + 8) 4, a3 := rdS p (off + 16 * s + 12) 4 }

/-- Segments as bytes. -/
def segmentBytes (xs : List Segment) : List Byte := xs.flatMap fun g => leS 4 g.a0 ++ leS 4 g.a1 ++ leS 4 g.a2 ++ leS 4 g.a3

/-- A table with new entries from a pixel on; pixels between hold offset 0 and gain 1. DESIGN CHOICE: log entry 50. -/
def putTable (t : List (Int × Nat)) (first : Nat) (new : List (Int × Nat)) : List (Int × Nat) :=
  (List.range (max t.length (first + new.length))).map fun i =>
    if first ≤ i ∧ i < first + new.length then new.getD (i - first) (0, 0x4000) else t.getD i (0, 0x4000)

/-- The entry's lane bank after it (R102): item 0, 1, 2, or the copied data of a flat-field result, item 3. -/
def CorrBank.edit (b : CorrBank) (p : List Byte) : CorrBank :=
  match rd p 0 1 with
  | 0 => { b with params := laneParamsOf p }
  | 1 => { b with table := putTable b.table (rd p 4 2) (tableOf p 12 (rd p 6 2)) }
  | 2 => { b with map := some (segmentsOf p 4) }
  | _ => { b with
      table := putTable b.table 0 (tableOf p 8 ((p.length - 8) / 4))
      params := if rd p 2 1 = 1 then { b.params with lampRef := rdS p 4 4 } else b.params }

/-- What R90 watches: the offsets and the optical-black settings. DEDUCED: log entry 53. -/
def CorrBank.obPart (b : CorrBank) (pixels : Nat) : List Int × Nat × Nat × Nat × Bool × Nat :=
  ((List.range pixels).map (fun u => (b.entry u).1), b.params.obFirst, b.params.obCount, b.params.obTauLog2, b.params.obEnable, b.params.obDriftLimit)

/-- Taints the measurement windows of the seams of a lane (R128). DESIGN CHOICE: log entry 62. -/
def taintSeams (f : Nat → Bool) (n0 : Nat) (c : Chip) : Chip :=
  { c with seam := vmapIdx (fun k x => if f k then { x with taints := n0 :: x.taints } else x) c.seam }

/-- Taints the measurement windows of the gang seam (R128). DESIGN CHOICE: log entry 62. -/
def taintGang (n0 : Nat) (c : Chip) : Chip := modGang (fun g => { g with seam := { g.seam with taints := n0 :: g.seam.taints } }) c

/-- The lane state after new offsets or optical-black settings: a re-seed at N0 (R90). -/
def Corr.reseedAt (n0 : Nat) (x : Corr) : Corr := { x with reseed := x.reseed ++ [n0] }

/-- An entry of PIPE.SET_CORRECTION takes effect at N0; a spare that shadows the lane re-seeds its copy of the lane state too (R101). -/
def correctionApply (n0 : Nat) (p : List Byte) (c : Chip) : Chip :=
  let l := rd p 1 1
  let old := (vget c.corr l).bank
  let new := old.edit p
  let pixels := max new.table.length old.table.length
  let seed (x : Corr) : Corr := if new.obPart pixels = old.obPart pixels then x else x.reseedAt n0
  let shadowed := (c.engines.shadow.map fun y => y.1 == l).getD false
  let c := { c with
    corr := vmod c.corr l fun x => seed { x with bank := new }
    engines := { c.engines with copy := if shadowed then c.engines.copy.map seed else c.engines.copy } }
  let c := taintSeams (fun k => k == l || k + 1 == l) n0 c
  if (mappedLanes c).getLast? = some l then taintGang n0 c else c

/-- R115 for an entry, judged on the device as the whole transaction leaves it. The rules on what a lane's parameters and map make together
are judged where the entry's setting is the one in force, with the map at fault where the transaction sets it (`mapSet`; R97, R151).
DEDUCED: log entry 125. -/
def correctionValid (inForce mapSet : Bool) (p : List Byte) (c : Chip) : Bool :=
  let l := rd p 1 1
  let b := (vget c.corr l).bank
  let w := laneWidth c l
  let mapped := laneMapped c l
  let x := laneParamsOf p
  let ranges := match rd p 0 1 with
    | 0 =>
      decide (x.activeFirst < x.activeLast) && decide (x.obCount ≤ 256) &&
      (x.obCount == 0 || decide (x.obFirst + x.obCount ≤ x.activeFirst) || decide (x.activeLast < x.obFirst)) && decide (x.obTauLog2 ≤ 10) &&
      (decide (x.lampChannel ≤ 7) || x.lampChannel == 0xFF) && decide (x.obDriftLimit ≤ 8191) && decide (0 < x.lampRef) &&
      decide (x.exposureMidNs.natAbs ≤ 1000000) && (!mapped || (decide (x.activeLast < w) && decide (x.obFirst + x.obCount ≤ w)))
    | 1 => decide (1 ≤ rd p 6 2) && decide (rd p 6 2 ≤ 1000) && decide (rd p 4 2 + rd p 6 2 ≤ 16384)
    | _ => true
  decide (l < 16) && ranges &&
  (!inForce || rd p 0 1 != 0 || !b.params.flickerEnable || (decide (b.params.lampChannel < 8) && (vget c.aux.ch b.params.lampChannel).enable)) &&
  (!inForce || !(rd p 0 1 == 2 || (rd p 0 1 == 0 && !mapSet)) || !mapped || (b.mapOk w && b.columnsOk l w (exportOverlap c) c.trig.geo))

/-- The entries a calibration result stages for the lanes of a mask (R113, R114). DEDUCED: log entry 57. -/
def calEntries (c : Chip) (r : CalResult) (mask bytes : Nat) : List Entry :=
  let lanes := r.lanes.filter fun x => bit mask x.lane
  let es : List Entry := if r.kind = 0 then
      lanes.map fun x => { code := 0x0500, payload := le 1 3 ++ le 1 x.lane ++ le 1 (b2n x.lampRef.isSome) ++ [0] ++ leS 4 (x.lampRef.getD 0) ++ tableBytes x.table }
    else
      lanes.map (fun x => ({ code := 0x0500, payload := le 1 2 ++ le 1 x.lane ++ [0, 0] ++ segmentBytes x.segments } : Entry)) ++
      [{ code := 0x0304, payload := le 4 r.cdPitch ++ leS 4 r.column0 ++ le 4 r.columnCount ++
          (List.range 16).flatMap fun l => le 4 (((if r.measuresOffsets then lanes.find? fun x => x.lane == l else none).map (·.viewOffset)).getD
            (vget c.trig.geo.viewOffset l)) }]
  es.mapIdx fun i e => { e with counted := some (if i = 0 then bytes else 0) }

/-- PIPE.SET_CORRECTION (R114); a flat-field result that ended with its DARK phase is not staged. DEDUCED: log entry 57. DESIGN CHOICE: log
entry 256. -/
def pipeSetCorrection (_ : Env) (j : Job) (c : Chip) : Reply :=
  let p := j.payload
  let item := rd p 4 1
  let id := rd p 0 4
  let q := p.drop 4
  let result := c.cal.results.find? fun r => r.id == rd p 8 4
  let mask := rd p 12 2
  let own : List Check := match item with
    | 0 => [lenIs 32 j, reserved p 6 2, inRange p 18 1 0 1, param 19 (rd p 19 1 < 8), reserved p 22 2]
    | 1 => [lenOk (p.length == 16 + 4 * rd p 10 2), reserved p 6 2, reserved p 12 4]
    | 2 => [lenIs 1032 j, reserved p 6 2]
    | 3 => [lenIs 16 j, reserved p 6 2, reserved p 14 2]
    | _ => [lenOk (8 ≤ p.length), param 4 false]
  let known : List Check := if item = 3 then
      [param 12 (match result with
        | some r => (setBits 16 mask).all fun l => r.lanes.any fun x => x.lane == l
        | none => true)] else []
  let after : List Check := if item = 3 then
      [ownRule stNotFound result.isSome, stateRule c ((result.map fun r => r.status == stOk && r.runState == 2).getD true)] else []
  let es : List Entry := match item, result with
    | 3, some r => calEntries c r mask 12
    | _, _ => [{ code := 0x0500, payload := q }]
  checked (own ++ known ++ after ++ stagingChecks c id es es.length) c
    (reply stOk (modTx id (fun x => { x with entries := x.entries ++ es }) c))

def execPipeSetCorrection (t : Nat) (mb : Fin 8) (s : State) : Host.Outcome State Fault Refusal :=
  .next (s.command 0x0500 t mb pipeSetCorrection)

end Sys2Proof.Machine
end

