-- ==== Sys2Proof/Machine/Calibration.lean ====
section
/-! DEFINITION. Flat-field and geometry calibration (chapter 4), and the loss of a link, which stops one. -/
namespace Sys2Proof.Machine

/-! ### Figures -/

/-- Median of a list: the middle value, or the mean of the middle two. DEDUCED: log entry 55. -/
def median (xs : List Rat) : Rat :=
  let ys := sortBy (fun x y => decide (x ≤ y)) xs
  let n := ys.length
  if n = 0 then 0 else if n % 2 = 1 then ys.getD (n / 2) 0 else (ys.getD (n / 2 - 1) 0 + ys.getD (n / 2) 0) / 2

/-- Sum of a list. -/
def ratSum (xs : List Rat) : Rat := xs.foldl (· + ·) 0

/-- Mean of a list, 0 where it is empty. -/
def ratMean (xs : List Rat) : Rat := if xs.isEmpty then 0 else ratSum xs / xs.length

/-- Population variance. DEDUCED: log entry 55. -/
def ratVar (xs : List Rat) : Rat :=
  let m := ratMean xs
  ratMean (xs.map fun x => (x - m) * (x - m))

/-- Greatest value of a list, 0 where it is empty. -/
def ratMax (xs : List Rat) : Rat := xs.foldl max 0

/-- A rational rounded down to a Nat. -/
def ratFloorNat (x : Rat) : Nat := x.floor.toNat

/-! ### Flat field (R105 to R107) -/

/-- Settings of a flat-field request (R116). -/
structure FlatCfg where
  mask : Nat
  bright : Bool
  linesLog2 : Nat
  resultId : Nat
  target : Nat
  hot : Nat
  noise : Nat
  weakPermille : Nat
  maxRun : Nat
  darkRepeat : Nat
  defectPpm : Nat
  prnuPpm : Nat
  repeatPpm : Nat
  timeoutS : Nat

/-- The request of CAL.FLAT_FIELD. -/
def flatCfgOf (p : List Byte) : FlatCfg :=
  { mask := rd p 0 2, bright := rd p 2 1 == 1, linesLog2 := rd p 3 1, resultId := rd p 4 4, target := rd p 8 2, hot := rd p 10 2,
    noise := rd p 12 2, weakPermille := rd p 14 2, maxRun := rd p 16 1, darkRepeat := rd p 18 2, defectPpm := rd p 20 4,
    prnuPpm := rd p 24 4, repeatPpm := rd p 28 4, timeoutS := rd p 32 2 }

/-- Lines of one half, or one pass, of a capture. -/
def CalRun.half (r : CalRun) : Nat := 2 ^ rd r.request (if r.kind = 0 then 3 else 2) 1

/-- Lines of the first and of the second half, or pass, of a capture, oldest first. -/
def halves (r : CalRun) (l : Nat) : List CalLine × List CalLine :=
  let ls := (vget r.captured l).reverse
  let mid := r.first + r.half
  (ls.filter fun x => decide (x.number < mid), ls.filter fun x => decide (mid ≤ x.number) && decide (x.number < mid + r.half))

/-- An optical-black pixel of a lane. -/
def LaneParams.isOb (p : LaneParams) (u : Nat) : Bool := decide (p.obFirst ≤ u) && decide (u < p.obFirst + p.obCount)

/-- 4·x of one pixel over lines. -/
def fourX (ls : List CalLine) (u : Nat) : List Rat := ls.map fun x => 4 * (x.pixels.getD u 0 : Rat)

/-- Rounded means of a pixel over the two halves differ by this much (R105 step 4). -/
def darkDeviation (a b : List CalLine) (u : Nat) : Nat := (ratRound (ratMean (fourX a u)) - ratRound (ratMean (fourX b u))).natAbs

/-- Defect code of a pixel among those marked (R107). DEDUCED: log entry 55. -/
def defectCode (b : LaneParams) (marked : Nat → Bool) (u : Nat) : Nat :=
  let good (v : Nat) : Bool := !marked v && decide (b.activeFirst ≤ v) && decide (v ≤ b.activeLast)
  let left := (List.range 8).any fun d => decide (d + 1 ≤ u) && good (u - (d + 1))
  let right := (List.range 8).any fun d => good (u + d + 1)
  match left, right with
  | true, false => 0xFFFE
  | false, true => 0xFFFF
  | _, _ => 0xFFFD

/-- A pixel with no good neighbour within 8 (R111 bit 2). -/
def lonely (b : LaneParams) (marked : Nat → Bool) (u : Nat) : Bool :=
  let good (v : Nat) : Bool := !marked v && decide (b.activeFirst ≤ v) && decide (v ≤ b.activeLast)
  !((List.range 8).any fun d => (decide (d + 1 ≤ u) && good (u - (d + 1))) || good (u + d + 1))

/-- Longest run of marked pixels in the active range. -/
def longestRun (b : LaneParams) (marked : Nat → Bool) : Nat :=
  (((List.range (b.activeLast + 1 - b.activeFirst)).foldl (fun (best, cur) i =>
    let cur := if marked (b.activeFirst + i) then cur + 1 else 0
    (max best cur, cur)) ((0, 0) : Nat × Nat))).1

/-- Pixels of the active range that satisfy a test. -/
def activePixels (b : LaneParams) (f : Nat → Bool) : List Nat :=
  ((List.range (b.activeLast + 1 - b.activeFirst)).map (b.activeFirst + ·)).filter f

/-- A count stays within parts per million of a range. -/
def withinPpm (n ppm range : Nat) : Bool := decide (n * 1000000 ≤ ppm * range)

/-- Verdict bit 10: more than 1 % of a half is lost. -/
def lostTooMany (n half : Nat) : Bool := decide (half < 100 * (half - n))

/-- Bits 1 and 2 of R111. -/
def defectBits (k : FlatCfg) (b : LaneParams) (marked : Nat → Bool) : List Bool :=
  let bad := activePixels b marked
  [!withinPpm bad.length k.defectPpm (b.activeLast + 1 - b.activeFirst), decide (k.maxRun < longestRun b marked) || bad.any (lonely b marked)]

/-- The end of the DARK phase for one lane (R105). DEDUCED: log entry 55. -/
def darkLane (c : Chip) (r : CalRun) (l : Nat) : CalLane :=
  let k := flatCfgOf r.request
  let b := (vget c.corr l).bank
  let w := laneWidth c l
  let (h1, h2) := halves r l
  let ls := h1 ++ h2
  let us := List.range w
  let d := us.map fun u => ratMean (fourX ls u)
  let med := median d
  let hot (u : Nat) : Bool := decide ((k.hot : Rat) < d.getD u 0 - med)
  let noisy (u : Nat) : Bool := decide (((k.noise * k.noise : Nat) : Rat) < ratVar (fourX ls u))
  let marked (u : Nat) : Bool := hot u || noisy u
  let offsets := d.map fun x => clampI (-32768) 32767 (ratRound x)
  let dev := maxOf (us.map (darkDeviation h1 h2))
  let bad := (activePixels b.params marked).length
  { lane := l, dark := offsets,
    table := offsets.mapIdx fun u o => (o, if marked u then defectCode b.params marked u else (b.entry u).2)
    defects := (us.filter marked).map fun u => (u, defectCode b.params marked u, if hot u then 0 else 1)
    figures := [dev, 0, 0, bad, longestRun b.params marked, 0, ratRound med, 0]
    verdict := packBits ([decide (k.darkRepeat < dev)] ++ defectBits k b.params marked ++ List.replicate 7 false ++
      [lostTooMany h1.length r.half || lostTooMany h2.length r.half]) }

/-- δ of each line of a capture, formed with k = 0 from new offsets (R106): the δ of one line comes from the line before. -/
def brightDeltas (b : CorrBank) (ls : List CalLine) : List Int :=
  (ls.foldl (fun (out, delta) x =>
    let m := if b.tracks then (b.obMean x.pixels).getD delta else 0
    (out ++ [delta], clampI (-(b.params.obDriftLimit : Int)) b.params.obDriftLimit m)) (([] : List Int), (0 : Int))).1

/-- Weighted mean b(u) over lines with their δ (R106 step 1). -/
def brightMean (o : Int) (ref : Option Rat) (ls : List (CalLine × Int)) (u : Nat) : Rat :=
  ratMean (ls.map fun (x, delta) =>
    let y : Rat := ((4 * (x.pixels.getD u 0 : Int) - o - delta : Int) : Rat)
    match ref, x.lamp with
    | some r, some m => y * r / m
    | _, _ => y)

/-- The corrected pixels y3 of a captured line under new tables: steps 2 to 5 of R86 with the line's δ, the flicker gain held until the
lamp gives a value (R106 step 7). -/
def underTables (b : CorrBank) (full : Nat) (ls : List (CalLine × Int)) : List (List Int) :=
  (ls.foldl (fun (out, held) (x, delta) =>
    let f := (flickerOf b held x.lamp).1
    (out ++ [b.step5 full f x.pixels (b.step4 (b.step2 delta x.pixels))], f)) (([] : List (List Int)), 0x4000)).1

/-- The end of the BRIGHT phase for one lane (R106, R107). DEDUCED: log entry 55. DESIGN CHOICE: log entry 256. -/
def brightLane (c : Chip) (r : CalRun) (x : CalLane) : CalLane :=
  let k := flatCfgOf r.request
  let l := x.lane
  let mark (u : Nat) : Option Nat := (x.defects.find? fun e => e.1 == u).map (·.2.1)
  let bank := { (vget c.corr l).bank with table := x.dark.mapIdx fun u o => (o, (mark u).getD 0x4000) }
  let p := vget c.port (((vget c.lane l).port).getD 0)
  let w := laneWidth c l
  let (h1, h2) := halves r l
  let ls := h1 ++ h2
  let deltas := brightDeltas bank ls
  let all := ls.zip deltas
  let first := all.take h1.length
  let second := all.drop h1.length
  let lamps := ls.filterMap (·.lamp)
  let ref : Option Rat := if bank.params.flickerEnable && !lamps.isEmpty then some (ratMean lamps) else none
  let us := List.range w
  let o (u : Nat) : Int := x.dark.getD u 0
  let b := us.map fun u => brightMean (o u) ref all u
  let gainOf (v : Rat) : Int := if v ≤ 0 then 0x10000 else ratRound (16384 * 16 * (k.target : Rat) / v)
  let inLine (u : Nat) : Bool := !bank.params.isOb u
  let wasDark (u : Nat) : Bool := (mark u).isSome
  let med65 (u : Nat) : Rat := median (((List.range 65).filterMap fun i => if u + i < 32 then none else some (u + i - 32)).filter (fun v => decide (v < w) && inLine v) |>.map fun v => b.getD v 0)
  let weak (u : Nat) : Bool := inLine u && (let m := med65 u
    let d := b.getD u 0 - m
    decide ((k.weakPermille : Rat) / 1000 * m < (if d < 0 then -d else d)))
  let sat (u : Nat) : Bool := inLine u && decide ((95 : Rat) / 100 * p.fullScale < ratMean (fourX ls u) / 4)
  let outOf (u : Nat) : Bool := inLine u && (decide (b.getD u 0 ≤ 0) || decide (0xFFFC < gainOf (b.getD u 0)))
  let marked (u : Nat) : Bool := wasDark u || weak u || sat u || outOf u
  let good := activePixels bank.params fun u => !marked u
  let g (u : Nat) : Int := gainOf (b.getD u 0)
  let gainDev := ratMax (good.map fun u =>
    let d := gainOf (brightMean (o u) ref first u) - gainOf (brightMean (o u) ref second u)
    if g u = 0 then 0 else 1000000 * (d.natAbs : Rat) / (g u : Rat))
  let table := x.dark.mapIdx fun u v => (v, if marked u then defectCode bank.params marked u else if bank.params.isOb u then 0x4000 else (g u).toNat)
  let new := { bank with table, params := { bank.params with lampRef := (ref.map ratRound).getD bank.params.lampRef } }
  let lines := underTables new p.fullScale second
  let levels := good.map fun u => ratMean (lines.map fun y => (y.getD u 0 : Rat))
  let mean := ratMean levels
  let prnu : Option Rat := if mean ≤ 0 then none else some (1000000000000 * ratVar levels / (mean * mean))
  let bad := (activePixels bank.params marked).length
  let range := bank.params.activeLast + 1 - bank.params.activeFirst
  { x with
    table
    defects := (us.filter marked).map fun u => (u, defectCode bank.params marked u,
      ((x.defects.find? fun e => e.1 == u).map (·.2.2)).getD (if weak u then 2 else if sat u then 3 else 4))
    lampRef := ref.map ratRound
    figures := [x.figures.getD 0 0, ratFloorNat gainDev, (prnu.map fun v => isqrt (ratFloorNat v)).getD 0xFFFFFFFF, bad,
      longestRun bank.params marked, (ref.map ratRound).getD bank.params.lampRef, x.figures.getD 6 0, ratRound (median (good.map fun u => b.getD u 0))]
    verdict := packBits ([bit x.verdict 0 || decide ((k.repeatPpm : Rat) < gainDev)] ++ defectBits k bank.params marked ++
      [(prnu.map fun v => decide (((k.prnuPpm * k.prnuPpm : Nat) : Rat) < v)).getD true,
       !withinPpm (activePixels bank.params sat).length k.defectPpm range] ++ List.replicate 5 false ++
      [bit x.verdict 10 || lostTooMany h1.length r.half || lostTooMany h2.length r.half]) }

/-! ### Geometry (R109, R110) -/

/-- Settings of a geometry request (R117). -/
structure GeoCfg where
  mask : Nat
  linesLog2 : Nat
  degree : Nat
  edgeCount : Nat
  cdPitch : Nat
  column0 : Int
  bandLength : Nat
  skewPpm : Int
  rmsLimit : Nat
  maxLimit : Nat
  tolerance : Nat
  timeoutS : Nat

/-- The request of CAL.GEOMETRY. -/
def geoCfgOf (p : List Byte) : GeoCfg :=
  { mask := rd p 0 2, linesLog2 := rd p 2 1, degree := rd p 3 1, edgeCount := rd p 4 2, cdPitch := rd p 8 4, column0 := rdS p 12 4,
    bandLength := rd p 16 4, skewPpm := rdS p 20 4, rmsLimit := rd p 24 2, maxLimit := rd p 26 2, tolerance := rd p 28 2,
    timeoutS := rd p 30 2 }

/-- The listed edges. -/
def edgesOf (p : List Byte) : List Int := (List.range (rd p 4 2)).map fun i => rdS p (160 + 4 * i) 4

/-- Nominal CD of a camera position in 1/256 pixel (R108). -/
def nominalCd (p : List Byte) (l : Nat) (pos : Int) : Rat :=
  (rdS p (32 + 8 * l) 4 : Rat) + (rdS p (36 + 8 * l) 4 : Rat) * pos / 65536

/-- Local spacing at listed edge i: the lesser of the gaps beside it. -/
def localSpacing (edges : List Int) (i : Nat) : Int :=
  let x := edges.getD i 0
  let gaps := (if 0 < i then [x - edges.getD (i - 1) 0] else []) ++ (if i + 1 < edges.length then [edges.getD (i + 1) 0 - x] else [])
  gaps.foldl min (gaps.headD 0)

/-- The listed edge an edge at a position matches; none where it is discarded (R109 step 2). -/
def matchEdge (p : List Byte) (edges : List Int) (l : Nat) (pos : Int) : Option (Rat × Int) :=
  let nom := nominalCd p l pos
  let dist (i : Nat) : Rat := let d := (edges.getD i 0 : Rat) - nom
    if d < 0 then -d else d
  match (List.range edges.length).foldl (fun best i => match best with
      | none => some i
      | some k => if dist i < dist k then some i else some k) none with
  | none => none
  | some i => if dist i * 4 ≤ localSpacing edges i then some ((pos : Rat) / 256, edges.getD i 0) else none

/-- A polynomial at x, lowest coefficient first. -/
def polyAt (k : List Rat) (x : Rat) : Rat := k.foldr (fun a acc => a + x * acc) 0

/-- Its derivative at x. -/
def polySlope (k : List Rat) (x : Rat) : Rat := polyAt ((k.mapIdx fun i a => (i : Rat) * a).drop 1) x

/-- One elimination step: the first row with a leading entry clears that entry from the others. -/
def eliminate (rows : List (List Rat)) : Option (List Rat × List (List Rat)) :=
  match rows.find? fun r => r.headD 0 != 0 with
  | none => none
  | some r =>
    let lead := r.headD 1
    let unit := r.map (· / lead)
    some (unit, (rows.filter (· != r)).map fun q => ((q.zip unit).map fun (a, b) => a - q.headD 0 * b).drop 1)

/-- Solves a square system given as augmented rows, in n unknowns; missing pivots give 0. -/
def solveLinear : Nat → List (List Rat) → List Rat
  | 0, _ => []
  | n + 1, rows =>
    match eliminate rows with
    | none => 0 :: solveLinear n (rows.map (·.drop 1))
    | some (unit, rest) =>
      let xs := solveLinear n rest
      let tail := unit.drop 1
      (tail.getLastD 0 - ratSum ((tail.dropLast.zip xs).map fun (a, x) => a * x)) :: xs

/-- Least-squares polynomial of a degree through (position, CD) pairs (R109 step 3). DESIGN CHOICE: log entry 56. -/
def leastSquares (degree : Nat) (pairs : List (Rat × Int)) : List Rat :=
  let moment (n : Nat) : Rat := ratSum (pairs.map fun x => x.1 ^ n)
  solveLinear (degree + 1) ((List.range (degree + 1)).map fun i =>
    (List.range (degree + 1)).map (fun k => moment (i + k)) ++ [ratSum (pairs.map fun x => x.1 ^ i * x.2)])

/-- An open error of a tabulated value, at most 1 wu, in wu; none up to degree 3, where the segments are the polynomial itself. DESIGN
CHOICE: log entry 56. -/
def tabulationError (k : List Rat) (calibration l i : Nat) : Rat :=
  if k.length ≤ 4 then 0 else ((Config.tabulationError calibration l i % 513 - 256 : Int) : Rat) / 256

/-- CD in wu at the first pixel of segment s, as its a0 holds it: the segments on both sides of a knot share it (R96). DESIGN CHOICE: log
entry 56. -/
def knotCd (k : List Rat) (w calibration l s : Nat) : Int :=
  ratRound (polyAt k (segFirst w s) + tabulationError k calibration l (3 * s))

/-- The polynomial tabulated as 64 segments (R109 step 4): the cubic with the fit's values and slopes at both ends of each
segment, which is the polynomial itself up to degree 3; above, each value and slope has an open error of at most 1 wu. The segments agree
at the knots as R96 has it. DESIGN CHOICE: log entry 56. -/
def tabulate (k : List Rat) (w calibration l : Nat) : List Segment :=
  (List.range 64).map fun s =>
    let us := segFirst w s
    let len : Rat := max 1 (segFirst w (s + 1) - us)
    let y0 := knotCd k w calibration l s
    let rise := knotCd k w calibration l (s + 1) - y0
    let d0 := polySlope k us * len + tabulationError k calibration l (3 * s + 1)
    let d1 := polySlope k (us + len) * len + tabulationError k calibration l (3 * s + 2)
    let a1 := ratRound (256 * d0)
    let a2 := ratRound (256 * (3 * (rise : Rat) - 2 * d0 - d1))
    { a0 := y0, a1, a2, a3 := 256 * rise - a1 - a2 }

/-- CD of a map at a position, in wu. -/
def cdRat (m : List Segment) (w p : Nat) : Rat :=
  let (n, d) := cdAt m w p
  (n : Rat) / (256 * d : Int)

/-- Largest difference of two maps at the columns of a lane, in wu rounded up (R109). -/
def mapDeviation (a b : List Segment) (bank : CorrBank) (w : Nat) (cols : List Nat) (g : Geometry) : Nat :=
  let diff (col : Nat) : Rat :=
    match { bank with map := some b }.position b w (g.column0 + col * g.cdPitch) with
    | some p => let d := cdRat a w p - cdRat b w p
      if d < 0 then -d else d
    | none => 0
  (ratMax (cols.map diff)).ceil.toNat

/-- Where a sampled level crosses a threshold, by linear interpolation between adjacent samples (R109 step 1, R110). -/
def crossingsOf (level : Rat) (xs : List (Rat × Rat)) : List Rat :=
  (xs.zip (xs.drop 1)).filterMap fun (a, b) =>
    if decide (a.2 < level) = decide (b.2 < level) then none else some (a.1 + (level - a.2) / (b.2 - a.2) * (b.1 - a.1))

/-- The 50 % level of a list: halfway between its least and greatest value. DESIGN CHOICE: log entry 56. -/
def halfLevel (xs : List Rat) : Rat := (xs.foldl min (xs.headD 0) + xs.foldl max (xs.headD 0)) / 2

/-- The edges of the averaged line of a pass, in 1/256 pixel: the 50 % crossings between adjacent corrected camera pixels of the active
range (R109 step 1). DESIGN CHOICE: log entry 56. -/
def edgesIn (b : LaneParams) (ls : List CalLine) : List Int :=
  let us := activePixels b fun _ => true
  let ys := us.map fun u => ratMean (ls.map fun x => (x.pixels.getD u 0 : Rat))
  (crossingsOf (halfLevel ys) (us.zip ys |>.map fun (u, y) => ((u : Rat), y))).map fun p => ratRound (256 * p)

/-- MD of the band's two edges at a lane's view line: the first two 50 % crossings of the mean level of its lines after the two passes
(R110). DESIGN CHOICE: log entry 56. -/
def bandEdges (c : Chip) (r : CalRun) (l : Nat) : List Rat :=
  let us := activePixels (vget c.corr l).bank.params fun _ => true
  let ls := (vget r.captured l).reverse.filter fun x => decide (r.first + 2 * r.half ≤ x.number)
  let ys := ls.map fun x => ratMean (us.map fun u => (x.pixels.getD u 0 : Rat))
  (crossingsOf (halfLevel ys) ((ls.map fun x => (x.md : Rat)).zip ys)).take 2

/-- Crossing MD of band edge e of a lane, corrected for the angle of the target (R110). -/
def crossing (c : Chip) (r : CalRun) (l : Nat) (centre : Rat) (e : Nat) : Rat :=
  (bandEdges c r l).getD e 0 - centre * rdS r.request 20 4 / 1000000

/-- The result of a geometry calibration for one lane, its neighbours and delays apart (R109, R110, R111). The view offset is R110's
difference from the least MD of any lane, which is 0 for the lane that the band reaches first, although R14 and R49 give offset 0 to
the most downstream view line. DESIGN CHOICE: log entry 56. -/
def geoLane (c : Chip) (r : CalRun) (l : Nat) : CalLane :=
  let p := r.request
  let k := geoCfgOf p
  let w := laneWidth c l
  let g : Geometry := { cdPitch := k.cdPitch, column0 := k.column0, columnCount := 262144, viewOffset := c.trig.geo.viewOffset }
  let bank := (vget c.corr l).bank
  let edges := edgesOf p
  let (h1, h2) := halves r l
  let pairs (ls : List CalLine) : List (Rat × Int) := (edgesIn bank.params ls).filterMap (matchEdge p edges l)
  let p1 := pairs h1
  let p2 := pairs h2
  let fit (ps : List (Rat × Int)) : List Rat := leastSquares (min k.degree (ps.length / 4)) ps
  let f2 := fit p2
  let m1 := tabulate (fit p1) w (2 * r.resultId) l
  let m2 := tabulate f2 w (2 * r.resultId + 1) l
  let res := p2.map fun (u, cd) => (cd : Rat) - polyAt f2 u
  let rms := isqrt (ratFloorNat (ratMean (res.map fun e => e * e)))
  let rmsBad := decide (((k.rmsLimit * k.rmsLimit : Nat) : Rat) < ratMean (res.map fun e => e * e))
  let largest := ratMax (res.map fun e => if e < 0 then -e else e)
  let b2 := { bank with map := some m2 }
  let cols := b2.columns l w g
  let mapDev := mapDeviation m1 m2 bank w cols g
  let centre (l : Nat) : Rat := nominalCd p l (128 * (laneWidth c l : Int))
  let lanes := (setBits 16 k.mask)
  let base (e : Nat) : Rat := (lanes.map fun i => crossing c r i (centre i) e).foldl min (crossing c r l (centre l) e)
  let off (e : Nat) : Rat := crossing c r l (centre l) e - base e
  let lengthErr := let d := crossing c r l (centre l) 1 - crossing c r l (centre l) 0 - k.bandLength
    if d < 0 then -d else d
  let offDev := let d := off 1 - off 0
    if d < 0 then -d else d
  let offBad := k.bandLength != 0 && (decide ((k.tolerance : Rat) < offDev) || decide ((k.tolerance : Rat) < lengthErr))
  let view := if k.bandLength = 0 then 0 else (ratRound ((off 0 + off 1) / 2)).toNat
  { lane := l, segments := m2, viewOffset := view,
    figures := [p2.length, rms, ratFloorNat largest, mapDev, ratFloorNat offDev, view, 0, cols.length]
    verdict := packBits [decide (k.tolerance < mapDev) || offBad, false, false, false, false, decide (p2.length < 8),
      rmsBad || decide ((k.maxLimit : Rat) < largest), false, !b2.mapOk w || decide (w < cols.length), false,
      lostTooMany h1.length r.half || lostTooMany h2.length r.half] }

/-- The bank a lane would have: the calibrated map, or the one in force. -/
def calibratedBank (c : Chip) (lanes : List CalLane) (l : Nat) : CorrBank :=
  let b := (vget c.corr l).bank
  match lanes.find? fun x => x.lane == l with
  | some x => { b with map := some x.segments }
  | none => b

/-- Bits 7 and 9 of R111, and the overlap figure: what depends on the other lanes. -/
def geoNeighbours (c : Chip) (k : GeoCfg) (lanes : List CalLane) (x : CalLane) : CalLane :=
  let g : Geometry := { cdPitch := k.cdPitch, column0 := k.column0, columnCount := 262144, viewOffset := c.trig.geo.viewOffset }
  let span (l : Nat) : Option (Nat × Nat) := if l < 16 ∧ laneMapped c l then spanOf ((calibratedBank c lanes l).columns l (laneWidth c l) g) else none
  let overlap (a b : Nat) : Nat := match span a, span b with
    | some (a0, a1), some (b0, b1) => min a1 b1 + 1 - max a0 b0
    | _, _ => 0
  let l := x.lane
  let short := (laneMapped c (l + 1) && l < 15 && decide (overlap l (l + 1) < 64)) || (decide (0 < l) && laneMapped c (l - 1) && decide (overlap (l - 1) l < 64))
  let delay := if c.trig.pitchNum = 0 then 0 else (2 * (x.viewOffset * c.trig.pitchDen) + c.trig.pitchNum) / (2 * c.trig.pitchNum)
  { x with
    figures := x.figures.set 6 (overlap l (l + 1))
    verdict := x.verdict + (if short then 128 else 0) + (if 48 < delay then 512 else 0) }

/-- Columns needed to reach the largest CD that a lane produces (R110). -/
def columnsNeeded (c : Chip) (k : GeoCfg) (lanes : List CalLane) : Nat :=
  let g : Geometry := { cdPitch := k.cdPitch, column0 := k.column0, columnCount := 262144, viewOffset := c.trig.geo.viewOffset }
  maxOf ((mappedLanes c).map fun l => ((spanOf ((calibratedBank c lanes l).columns l (laneWidth c l) g)).map (·.2 + 1)).getD 0)

/-! ### Running, ending and reading a calibration (R111, R112, R116 to R119) -/

/-- A result: a held one, or that of the run, discarded before its end. -/
def resultOf (c : Chip) (id : Nat) : Option CalResult := (c.cal.results.find? fun r => r.id == id).or (c.cal.orphan.filter fun r => r.id == id)

/-- Changes a result. -/
def modResult (id : Nat) (f : CalResult → CalResult) (c : Chip) : Chip :=
  let g (r : CalResult) : CalResult := if r.id = id then f r else r
  { c with cal := { c.cal with results := c.cal.results.map g, orphan := c.cal.orphan.map g } }

/-- Discards a result: the slot is free at once, and a run under way ends with its event and nothing held (R118). DEDUCED: log
entry 58. -/
def discardResult (r : CalResult) (c : Chip) : Chip :=
  let running := (c.cal.run.map fun x => x.resultId == r.id).getD false
  { c with cal := { c.cal with results := c.cal.results.filter (·.id != r.id), orphan := if running then some r else c.cal.orphan } }

/-- The run is over. -/
def runOver (c : Chip) : Chip := { c with cal := { c.cal with run := none, orphan := none } }

/-- EV_CAL_DONE (R119). -/
def calDone (id kind phase status verdict : Nat) (c : Chip) : Chip :=
  raise 0x0400 1 0x7F (le 4 id ++ le 1 kind ++ le 1 phase ++ le 2 status ++ le 4 verdict) c

/-- Final status of a verdict (R111). -/
def calStatus (verdict : Nat) : Nat := if verdict = 0 then stOk else if bit verdict 0 then stCalUnstable else stAborted

/-- The bits set in any verdict of a list. -/
def verdictOf (lanes : List CalLane) : Nat := lanes.foldl (fun v x => Nat.lor v x.verdict) 0

/-- Ends the running phase with a status and a verdict (R104, R111). DEDUCED: log entry 58. -/
def calEnd (status verdict : Nat) (c : Chip) : Chip :=
  match c.cal.run with
  | none => c
  | some r =>
    let c := modResult r.resultId (fun x => { x with runState := 2, status, verdict := Nat.lor x.verdict verdict }) c
    calDone r.resultId r.kind r.phase status (((resultOf c r.resultId).map (·.verdict)).getD verdict) (runOver c)

/-- The run is stopped: CALIBRATE is left, or a mapped port goes DOWN (R111 bit 11). DEDUCED: log entry 58. -/
def calStop (c : Chip) : Chip :=
  match c.cal.run with
  | none => c
  | some r =>
    let v := ((resultOf c r.resultId).map (·.verdict)).getD 0
    calEnd (if bit v 0 then stCalUnstable else stAborted) 2048 c

/-- Lane l still has a line of the capture to correct: one awaited from its port, or one in its buffer whose stitched line is to come
(R103, R105). DEDUCED: log entry 58. -/
def captureOwed (c : Chip) (r : CalRun) (l : Nat) : Bool :=
  let last := r.first + 2 * r.half
  (match (vget c.lane l).port with
   | some n => (vget c.port n).outstanding.any fun o => decide (o.number < last)
   | none => false) ||
  ((vget c.lane l).buffer.any fun y =>
    let n := y.number + (settingsAt c y.number).delay l
    decide (r.first ≤ y.number) && decide (y.number < last) && decide (c.perg.next ≤ n) && !contributed c l n &&
    (vget c.engines.binding l).isSome && !bit c.engines.withheld l)

/-- The phase has captured what it needs: every trigger of it has been issued, and every line of it corrected or lost; the band of a
geometry target has crossed every lane. DEDUCED: log entry 58. -/
def calComplete (c : Chip) (r : CalRun) : Bool :=
  let lanes := setBits 16 (rd r.request 0 2)
  decide (r.first + 2 * r.half ≤ c.trig.number) && lanes.all (fun l => !captureOwed c r l) &&
  (r.kind == 0 || rd r.request 16 4 == 0 || lanes.all fun l => decide ((bandEdges c r l).length = 2))

/-- CAL_PHASE_DONE: the result of the phase, with its verdict (R105 to R111). A BRIGHT phase on fewer lanes than the DARK one leaves the
others with their DARK tables. DESIGN CHOICE: log entry 256. -/
def calPhaseDone (c : Chip) : Chip :=
  match c.cal.run with
  | none => c
  | some r =>
    if !calComplete c r then c
    else
      let lanes := setBits 16 (rd r.request 0 2)
      let old := ((resultOf c r.resultId).map (·.lanes)).getD []
      let k := geoCfgOf r.request
      let new : List CalLane :=
        if r.kind = 1 then
          (let xs := lanes.map (geoLane c r)
           xs.map (geoNeighbours c k xs))
        else if r.phase = 0 then lanes.map (darkLane c r)
        else old.map fun x => if lanes.contains x.lane then brightLane c r x else x
      let v := verdictOf new
      let st := calStatus v
      let c := modResult r.resultId (fun x => { x with
        lanes := new, verdict := v, status := st, runState := if r.kind = 0 ∧ r.phase = 0 ∧ st = stOk then 1 else 2,
        columnCount := if r.kind = 1 then columnsNeeded c k new else x.columnCount }) c
      calDone r.resultId r.kind r.phase st v (runOver c)

def execCalPhaseDone (t : Nat) (s : State) : Host.Outcome State Fault Refusal := .next (s.run t fun _ c => calPhaseDone c)

/-- CAL_TIMEOUT (R104). DEDUCED: log entry 58. -/
def execCalTimeout (t : Nat) (s : State) : Host.Outcome State Fault Refusal :=
  .next (s.run t fun _ c => match c.cal.run with
    | some r => if r.deadline ≤ c.now then calEnd stTimeout 0 c else c
    | none => c)

/-- A calibration of any kind is running (R112, R383, R484). -/
def calibrating (c : Chip) : Bool := c.cal.run.isSome || c.aux.run.isSome || (c.cal.links.map (·.running)).getD false

/-- Every lane of a mask is mapped. -/
def lanesMapped (c : Chip) (mask : Nat) : Bool := (setBits 16 mask).all (laneMapped c)

/-- Starts a phase. -/
def startRun (id kind phase timeoutS : Nat) (p : List Byte) (c : Chip) : Chip :=
  { c with cal := { c.cal with run := some {
      resultId := id, kind, phase, request := p, deadline := c.now + timeoutS * 1000000000, first := c.trig.number } } }

/-- CAL.FLAT_FIELD (R116). -/
def calFlatField (_ : Env) (j : Job) (c : Chip) : Reply :=
  let p := j.payload
  let k := flatCfgOf p
  let held := c.cal.results.find? fun r => r.id == k.resultId
  checked
    [lenIs 36 j, param 0 (k.mask != 0 && lanesMapped c k.mask), inRange p 2 1 0 1, inRange p 3 1 8 15, param 4 (k.bright || k.resultId == 0),
     inRange p 8 2 256 4000, inRange p 14 2 10 900, inRange p 16 1 1 8, reserved p 17 1, inRange p 18 2 1 1024, inRange p 32 2 1 3600,
     reserved p 34 2, stateRule c (mode c == 5), ownRule stBusy (!calibrating c), ownRule stNoSpace (k.bright || decide (c.cal.results.length < 8)),
     ownRule stNotFound (!k.bright || held.isSome),
     stateRule c (!k.bright || (held.map fun r => r.kind == 0 && r.runState == 1 && (setBits 16 k.mask).all fun l => bit r.laneMask l).getD true)] c
    (let id := if k.bright then k.resultId else c.cal.nextId
     let c := if k.bright then modResult id (fun r => { r with runState := 0, status := stPending }) c
       else { c with cal := { c.cal with
         nextId := if c.cal.nextId = 0xFFFFFFFF then 1 else c.cal.nextId + 1
         results := c.cal.results ++ [{ id, kind := 0, runState := 0, laneMask := k.mask }] } }
     { status := stPending, body := le 4 id, chip := startRun id 0 (b2n k.bright) k.timeoutS p c })

def execCalFlatField (t : Nat) (mb : Fin 8) (s : State) : Host.Outcome State Fault Refusal :=
  .next (s.command 0x0400 t mb calFlatField)

/-- The listed edges rise strictly. -/
def strictlyRising (xs : List Int) : Bool := (xs.zip (xs.drop 1)).all fun (a, b) => decide (a < b)

/-- CAL.GEOMETRY (R117). -/
def calGeometry (_ : Env) (j : Job) (c : Chip) : Reply :=
  let p := j.payload
  let k := geoCfgOf p
  checked
    [lenOk (p.length == 160 + 4 * k.edgeCount), param 0 (k.mask != 0 && lanesMapped c k.mask), inRange p 2 1 4 12, inRange p 3 1 1 7,
     inRange p 4 2 8 960, reserved p 6 2, inRange p 8 4 16 65535, inRange p 30 2 1 3600, param 160 (strictlyRising (edgesOf p)),
     stateRule c (mode c == 5), ownRule stBusy (!calibrating c), ownRule stNoSpace (decide (c.cal.results.length < 8))] c
    (let id := c.cal.nextId
     let c := { c with cal := { c.cal with
       nextId := if id = 0xFFFFFFFF then 1 else id + 1
       results := c.cal.results ++ [{ id, kind := 1, runState := 0, laneMask := k.mask, cdPitch := k.cdPitch, column0 := k.column0, measuresOffsets := k.bandLength != 0 }] } }
     { status := stPending, body := le 4 id, chip := startRun id 1 0 k.timeoutS p c })

def execCalGeometry (t : Nat) (mb : Fin 8) (s : State) : Host.Outcome State Fault Refusal :=
  .next (s.command 0x0401 t mb calGeometry)

/-- Response of sections 0 and 1; only section 1 has the lane's figures. -/
def calSummary (r : CalResult) (x : Option CalLane) : List Byte :=
  le 1 r.kind ++ le 1 r.runState ++ le 2 r.status ++ le 4 r.verdict ++ le 2 r.laneMask ++ zeros 6 ++
  (match x with
   | none => []
   | some y => (List.range 8).flatMap (fun i => leS 4 (y.figures.getD i 0)) ++ le 4 y.verdict)

/-- Response of section 5, the live lane state. -/
def calLive (c : Chip) (l : Nat) : List Byte :=
  let x := vget c.corr l
  le 1 x.bankNumber ++ le 1 (b2n (targetHeld c (0x0500, l) 0)) ++ le 2 (if x.bank.params.flickerEnable then x.flickerGain else 0x4000) ++ leS 4 x.delta ++ le 4 x.obClamped ++
  le 4 x.flickerHolds ++ le 4 x.flickerClamped ++ le 4 ((List.range x.bank.table.length).filter x.bank.unreplaceable).length

/-- CAL.GET_RESULT (R118). -/
def calGetResult (_ : Env) (j : Job) (c : Chip) : Reply :=
  let p := j.payload
  let section_ := rd p 4 1
  let l := rd p 5 1
  let first := rd p 6 2
  let r := c.cal.results.find? fun r => r.id == rd p 0 4
  let x := r.bind fun r => r.lanes.find? fun x => x.lane == l
  checked
    [lenIs 12 j, inRange p 4 1 0 5, inRange p 5 1 0 15, param 6 (section_ != 2 || decide (first < 16384)), inRange p 8 1 0 1, reserved p 9 3,
     ownRule stNotFound (section_ == 5 || r.isSome)] c
    (match section_, r with
     | 5, _ => replyBody (calLive c l) c
     | _, none => reply stNotFound c
     | n, some r =>
       let y : CalLane := x.getD { lane := l }
       let body := match n with
         | 0 => calSummary r none
         | 1 => calSummary r (some y)
         | 2 => tableBytes ((List.range (min 1000 (16384 - first))).map fun i => y.table.getD (first + i) (0, 0x4000))
         | 3 => segmentBytes (fitSegments y.segments)
         | _ => (y.defects.take 1000).flatMap fun e => le 2 e.1 ++ le 1 (e.2.1 % 256) ++ le 1 e.2.2
       replyBody body (if bit (rd p 8 1) 0 then discardResult r c else c))
where
  /-- 64 segments, missing ones zero. -/
  fitSegments (xs : List Segment) : List Segment := (List.range 64).map fun s => xs.getD s { a0 := 0, a1 := 0, a2 := 0, a3 := 0 }

def execCalGetResult (t : Nat) (mb : Fin 8) (error : Option ReadError) (s : State) : Host.Outcome State Fault Refusal :=
  .next (s.command 0x0402 t mb (withArea error calGetResult))

/-! ### LINK_LOST (R71, R111) -/

/-- A link is lost; where the port of a mapped lane goes DOWN, a running calibration stops. -/
def linkGone (n link : Nat) (c : Chip) : Chip :=
  let was := (vget c.port n).state
  let c := calLinkSeen n link (fun x => { x with verdict := setBit x.verdict 4 true }) (linkLost n link c)
  if was != .down && (vget c.port n).state == .down && (laneOf c n).isSome then calStop c else c

def execLinkLost (t : Nat) (port : Fin 16) (link : Fin 4) (s : State) : Host.Outcome State Fault Refusal :=
  .next (s.run t fun _ c => linkGone port link c)

/-! ### Link calibration (R484) -/

/-- A port that a link calibration can measure. -/
def Port.measurable (x : Port) : Bool := x.state == .ready || x.state == .streaming

/-- Verdict bit 4 on every entry of a port that is neither READY nor STREAMING: its links in use, or its master link where it has
none. DEDUCED: log entry 59. -/
def LinksRun.judgePorts (c : Chip) (r : LinksRun) : LinksRun :=
  { r with links := r.links.mapIdx fun i x =>
      let p := vget c.port (i / 4)
      if bit r.portMask (i / 4) && !p.measurable && decide (i % 4 < max 1 p.links) then { x with verdict := setBit x.verdict 4 true } else x }

/-- The verdict of a measured link: repeat, eye width, code errors, CRC errors, and what the run has noted (R484, R69). -/
def LinkCal.judged (r : LinksRun) (x : LinkCal) : LinkCal :=
  { x with verdict := Nat.lor x.verdict (packBits [decide (x.eyeMin + r.tolerance < x.eyeMax),
      decide (x.eyeMin < eyeThreshold x.speed + r.margin), x.codeErrors != 0, x.crcErrors != 0]) }

/-- The OR of all entries, and the bit of a run that was stopped. -/
def LinksRun.verdictAll (r : LinksRun) : Nat := r.links.foldl (fun v x => Nat.lor v x.verdict) r.verdict

/-- A link calibration ends: EV_CAL_DONE with `result_id` 0 and kind 3. -/
def calLinksEnd (r : LinksRun) (c : Chip) : Chip :=
  let v := r.verdictAll
  let r := { r with running := false, status := calStatus v }
  calDone 0 3 0 r.status v { c with cal := { c.cal with links := some r } }

/-- The run is stopped as CALIBRATE is left (R112, R536). DEDUCED: log entry 59. -/
def calLinksStop (c : Chip) : Chip :=
  match c.cal.links with
  | some r => if r.running then calLinksEnd { r with verdict := 2048 } c else c
  | none => c

/-- CAL_LINKS_DONE: the run reaches `duration_s`; `heights` holds the eye heights measured, entry 4 × n + m for Pn.m.
DEDUCED: log entry 59. -/
def calLinksDone (heights : List Nat) (c : Chip) : Chip :=
  match c.cal.links with
  | some r =>
    if !r.running || decide (c.now < r.startedAt + r.durationS * 1000000000) then c
    else
      let r := r.judgePorts c
      let one (i : Nat) (x : LinkCal) : LinkCal :=
        let p := vget c.port (i / 4)
        if bit r.portMask (i / 4) && decide (i % 4 < p.links) then ({ x with eyeHeightMv := heights.getD i 0 } : LinkCal).judged r else x
      calLinksEnd { r with links := r.links.mapIdx one } c
  | none => c

def execCalLinksDone (t : Nat) (heights : List Nat) (s : State) : Host.Outcome State Fault Refusal :=
  .next (s.run t fun _ c => calLinksDone heights c)

/-- An entry of the response. -/
def linkCalEntry (x : LinkCal) : List Byte :=
  le 1 x.verdict ++ le 1 x.speed ++ le 2 x.eyeMin ++ le 2 x.eyeMax ++ le 2 x.eyeHeightMv ++ le 4 x.codeErrors ++ le 4 x.crcErrors

/-- The response of action 1: summary and 64 entries. -/
def linksBody (r : LinksRun) : List Byte :=
  le 2 r.status ++ le 1 (if r.running then 0 else 2) ++ [0] ++ le 4 r.verdictAll ++ le 4 r.durationS ++ zeros 4 ++ r.links.flatMap linkCalEntry

/-- A run that starts: every link in use of the ports named. -/
def linksStart (p : List Byte) (c : Chip) : Chip :=
  let r : LinksRun := {
    portMask := rd p 0 2, durationS := rd p 2 2, margin := rd p 4 1, tolerance := rd p 5 1, startedAt := c.now
    links := (List.range 64).map fun i =>
      let x := vget c.port (i / 4)
      if bit (rd p 0 2) (i / 4) && decide (i % 4 < x.links) then { speed := x.speed } else {} }
  { c with cal := { c.cal with links := some (r.judgePorts c) } }

/-- CAL.LINKS: action 0 in CALIBRATE, one calibration at a time (R112). DEDUCED: log entry 59. -/
def calLinks (_ : Env) (j : Job) (c : Chip) : Reply :=
  let p := j.payload
  let start := rd p 6 1 == 0
  checked
    ([lenIs 8 j, inRange p 2 2 1 3600, inRange p 4 1 0 64, inRange p 5 1 1 64, inRange p 6 1 0 1, reserved p 7 1] ++
     (if start then [stateRule c (mode c == 5), ownRule stBusy (!calibrating c)] else [ownRule stNotFound c.cal.links.isSome])) c
    (if start then reply stPending (linksStart p c)
     else replyBody ((c.cal.links.map linksBody).getD []) c)

def execCalLinks (t : Nat) (mb : Fin 8) (s : State) : Host.Outcome State Fault Refusal := .next (s.command 0x0403 t mb calLinks)

end Sys2Proof.Machine
end

