-- ==== Sys2Proof/Machine/Stitch.lean ====
section
/-! DEFINITION. The Pergola of chapter 5: seams, the assembly of a stitched line, seam tracking, and PIPE.SET_STITCH. -/
namespace Sys2Proof.Machine

/-! ### Seams and zones (R120, R121, R398) -/

/-- A seam as a line sees it: its lanes (16 stands for lane L0 of the drive-side gang neighbour), its settings, its overlap
and its zone as (first column, width). -/
structure SeamView where
  left : Nat
  right : Nat
  seam : Seam
  overlap : Option (Nat × Nat)
  zone : Option (Nat × Nat)

/-- The zone of a seam in an overlap; none where no zone meets R120 (R120, R121). -/
def zoneOf (s : Seam) (overlap : Nat × Nat) : Option (Nat × Nat) :=
  let (a, b) := overlap
  let w := b + 1 - a
  if w < 64 then none
  else if s.zoneFirst = 0xFFFFFFFF then
    let zw := if s.zoneWidth = 0 then min 64 ((w - 16) / 2 * 2) else s.zoneWidth
    let zf := a + (w - zw) / 2
    if zw < 2 ∨ w < zw ∨ zf < a + 8 ∨ b < zf + zw + 7 then none else some (zf, zw)
  else
    let zf := s.zoneFirst
    let zw := if s.zoneWidth = 0 then min 64 ((b - 7 - zf) / 2 * 2) else s.zoneWidth
    if zw < 2 ∨ zf < a + 8 ∨ b < zf + zw + 7 then none else some (zf, zw)

/-- The columns two spans share. -/
def overlapOf (x y : Option (Nat × Nat)) : Option (Nat × Nat) :=
  match x, y with
  | some (a, b), some (a', b') => if max a a' ≤ min b b' then some (max a a', min b b') else none
  | _, _ => none

/-- The grid the drive-side neighbour has told for line n does not begin where this device's ends, or has another pitch: their boundary
is open for that line (R395). A neighbour that has told no grid agrees. DEDUCED: log entry 168. -/
def openAbove (c : Chip) (n : Nat) : Bool :=
  let g := (settingsAt c n).geo
  match c.gang.gridsAbove.find? fun y => decide (y.1 ≤ n) with
  | some (_, column0, pitch) => pitch != g.cdPitch || column0 != g.column0 + (g.columnCount * g.cdPitch : Nat)
  | none => false

/-- The same for the grid of the tending-side neighbour (R395). -/
def openBelow (c : Chip) (n : Nat) : Bool :=
  let g := (settingsAt c n).geo
  match c.gang.gridsBelow.find? fun y => decide (y.1 ≤ n) with
  | some (_, column0, pitch, count) => pitch != g.cdPitch || g.column0 != column0 + (count * pitch : Nat)
  | none => false

/-- The member at the next higher position is reachable and its grid continues this device's at line n (R395, R398, R403). -/
def gangAbove (c : Chip) (n : Nat) : Bool := c.gang.hasAbove && !openAbove c n

/-- The member at the next lower position is reachable and its grid leads up to this device's at line n. -/
def gangBelow (c : Chip) (n : Nat) : Bool := c.gang.hasBelow && !openBelow c n

/-- The seams between mapped lanes under given settings. -/
def laneSeams (c : Chip) (x : Settings) : List SeamView :=
  ((List.range 15).filter fun k => laneMapped c k && laneMapped c (k + 1)).map fun k =>
    let s := vget x.seams k
    let ov := overlapOf (vget x.banks k).span (vget x.banks (k + 1)).span
    { left := k, right := k + 1, seam := s, overlap := ov, zone := ov.bind (zoneOf s) }

/-- The gang seam, whose zone ends at the last column (R398). DEDUCED: log entry 60. -/
def gangSeam (c : Chip) (x : Settings) (n : Nat) : List SeamView :=
  if !gangAbove c n then [] else
    match (mappedLanes c).getLast? with
    | none => []
    | some l =>
      let count := x.geo.columnCount
      let w := if c.gang.seam.zoneWidth = 0 then 64 else c.gang.seam.zoneWidth
      [{ left := l, right := 16, seam := c.gang.seam, overlap := some (count - c.gang.cfg.overlap, count - 1)
         zone := if w ≤ count then some (count - w, w) else none }]

/-- Every seam of line n. -/
def seamViews (c : Chip) (x : Settings) (n : Nat) : List SeamView := laneSeams c x ++ gangSeam c x n

/-! ### Samples and columns (R122 to R125, R597) -/

/-- A sample of a lane's contribution to a line; lane 16 reads what the gang neighbour sent (R398). -/
def sampleAt (c : Chip) (columnCount lane : Nat) (col line : Int) : Option Nat :=
  if line < 0 then none
  else if lane = 16 then
    let i := col - columnCount + c.gang.cfg.overlap
    if i < 0 then none else ((c.gang.samples.find? fun x => (x.1 : Int) == line).bind fun x => x.2.getD i.toNat none)
  else
    match (vget c.perg.contributions lane).find? fun k => (k.number : Int) == line with
    | none => none
    | some k => if col < k.first then none else k.pixels.getD (col - k.first).toNat none

/-- A column from a sample in place and its substitute (R124, R125). -/
def pickSample (first second : Option Nat) (lane1 lane2 : Nat) : Pix :=
  match first, second with
  | some v, _ => { grey := v, valid := true, owner := lane1 }
  | none, some v => { grey := v, valid := true, owner := lane2 }
  | none, none => { grey := 0, valid := false, owner := lane1 }

/-- A column inside the zone of a seam (R122). -/
def zoneColumn (c : Chip) (n count : Nat) (v : SeamView) (zf zw : Nat) (col : Nat) : Pix :=
  let dc := v.seam.dc
  let dm := v.seam.dm
  let ramp : Int := (((col - zf) * 2 + 1) * 128 / zw : Nat)
  let dl := asr (ramp * dc + 128) 8
  let ml := asr (ramp * dm + 128) 8
  let left := sampleAt c count v.left (col - dl) (n - ml)
  let right := sampleAt c count v.right (col + dc - dl) (n + dm - ml)
  if v.seam.hard then
    let cut := if v.seam.cutOffset = 0xFFFF then zw / 2 else v.seam.cutOffset
    if col < zf + cut then pickSample left right v.left v.right else pickSample right left v.right v.left
  else
    let near := if ramp < 128 then pickSample left right v.left v.right else pickSample right left v.right v.left
    match left, right with
    | some a, some b => { near with grey := (asr ((256 - ramp) * a + ramp * b + 128) 8).toNat }
    | _, _ => near

/-- A column of the overlap on the left or on the right of the zone: the lane in place, else the other lane's sample of the
same spot (R123, R124). -/
def sideColumn (c : Chip) (n count : Nat) (v : SeamView) (onLeft : Bool) (col : Nat) : Pix :=
  let dc := v.seam.dc
  let dm := v.seam.dm
  if onLeft then pickSample (sampleAt c count v.left col n) (sampleAt c count v.right (col + dc) (n + dm)) v.left v.right
  else pickSample (sampleAt c count v.right col n) (sampleAt c count v.left (col - dc) (n - dm)) v.right v.left

/-- First column at which the right lane takes over: the end of the zone, or the middle of an overlap without one (R597). -/
def SeamView.rightFrom (v : SeamView) : Nat :=
  match v.zone, v.overlap with
  | some (zf, zw), _ => zf + zw
  | none, some (a, b) => a + (b - a) / 2 + 1
  | none, none => 0

/-- A column of a seam's overlap. -/
def seamColumn (c : Chip) (n count : Nat) (v : SeamView) (col : Nat) : Pix :=
  match v.zone with
  | some (zf, zw) =>
    if col < zf then sideColumn c n count v true col else if col < zf + zw then zoneColumn c n count v zf zw col else sideColumn c n count v false col
  | none => sideColumn c n count v (decide (col < v.rightFrom)) col

/-- Whether a column lies in a seam's overlap. -/
def SeamView.holds (v : SeamView) (col : Nat) : Bool :=
  match v.overlap with
  | some (a, b) => decide (a ≤ col) && decide (col ≤ b)
  | none => false

/-- The seam a column belongs to: the first one that holds it, passed over where the column lies right of its zone and the
next seam holds it too. DEDUCED: log entry 60. -/
def seamFor (col : Nat) : List SeamView → Option SeamView
  | [] => none
  | v :: vs =>
    if v.holds col then (if v.rightFrom ≤ col && vs.any (fun u => u.holds col) then seamFor col vs else some v) else seamFor col vs

/-- One stitched column (R123): its seam's, or that of the one lane that produces it. DEDUCED: log entry 60. -/
def stitchColumn (c : Chip) (x : Settings) (views : List SeamView) (n col : Nat) : Pix :=
  let count := x.geo.columnCount
  match seamFor col views with
  | some v => seamColumn c n count v col
  | none =>
    match (mappedLanes c).find? fun l => match (vget x.banks l).span with
        | some (a, b) => decide (a ≤ col) && decide (col ≤ b)
        | none => false with
    | some l => pickSample (sampleAt c count l col n) none l l
    | none => {}

/-! ### Assembly (R133, R135) -/

/-- A seam: 0 to 14, or 15 for the gang seam. -/
def getSeam (c : Chip) (k : Nat) : Seam := if k = 15 then c.gang.seam else vget c.seam k

/-- Changes a seam. -/
def modSeam (k : Nat) (f : Seam → Seam) (c : Chip) : Chip :=
  if k = 15 then { c with gang := { c.gang with seam := f c.gang.seam } } else { c with seam := vmod c.seam k f }

/-- Takes the positions of a list that satisfy a test. -/
def Seam.takePositions (s : Seam) (due : Int × Int × Nat × Bool → Bool) : Seam :=
  match (s.next.filter due).getLast? with
  | none => s
  | some (dc, dm, _) => { s with dc, dm, next := s.next.filter fun y => !due y }

/-- The Pergola reaches an entry at stitched line N0 (R150, R309): the measured positions due before it have been taken, the later ones
are dropped, the weak count restarts, and the seam is HELD no longer. -/
def Seam.reach (s : Seam) (n0 : Nat) : Seam :=
  let s := s.takePositions fun y => decide (y.2.2.1 < n0)
  { s with next := s.next.filter (fun y => !y.2.2.2), weakCount := 0, held := false, appliedAt := n0 }

/-- Takes the entries and the positions that are due by a stitched line (R130, R150). -/
def Seam.settle (s : Seam) (n : Nat) : Seam :=
  let s := { (s.applies.filter (decide <| · ≤ n)).foldl Seam.reach s with applies := s.applies.filter fun m => decide (n < m) }
  s.takePositions fun y => decide (y.2.2.1 ≤ n)

/-- Takes the due positions of every seam. -/
def settleSeams (n : Nat) (c : Chip) : Chip :=
  { c with seam := vmapIdx (fun _ s => s.settle n) c.seam, gang := { c.gang with seam := c.gang.seam.settle n } }

/-- The camera line a lane owes to stitched line m was lost, or never existed (R66). -/
def lineMissing (c : Chip) (l m : Nat) : Bool :=
  let x := settingsAt c m
  let d := x.delay l
  let lane := vget c.lane l
  (vget x.banks l).map.isNone || decide (m < d) || lane.lost.contains (m - d) ||
  (match lane.port with
   | some n => [PortState.down, .fault].contains (vget c.port n).state && (cameraLine c x l m).isNone
   | none => true)

/-- Lane l needs no further wait for stitched line m: its contribution has come, was given up, or will not come.
DESIGN CHOICE: log entry 66. -/
def settled (c : Chip) (l m : Nat) : Bool :=
  contributed c l m || (vget c.engines.binding l).isNone || bit c.engines.withheld l || lineMissing c l m ||
  (decide (c.trig.number ≤ m) && !triggering c)

/-- The gang neighbour's samples for a line have come, where the gang seam is stitched. -/
def gangSettled (c : Chip) (m : Nat) : Bool :=
  !gangAbove c m || c.gang.samples.any (fun x => x.1 == m) || (decide (c.trig.number ≤ m) && !triggering c)

/-- The Pergola can assemble its next line: the line was triggered, and every lane is settled for it and the four lines after
it (R122, R133, R135). DESIGN CHOICE: log entry 66. -/
def canAssemble (c : Chip) : Bool :=
  let n := c.perg.next
  pipelineRuns c && decide (n < c.trig.number) &&
  (List.range 5).all fun i => (mappedLanes c).all (fun l => settled c l (n + i)) && gangSettled c (n + i)

/-- A lane has no camera line corrected for stitched line n: it is without valid input (the coverage-reduced flag of R52, R66,
R135). DEDUCED: log entry 247. -/
def laneAbsent (c : Chip) (n l : Nat) : Bool := !((vget c.perg.contributions l).any fun k => k.number == n)

/-- Stitched line n carries a contribution of the engine that took a lane over (R140). -/
def carriesNew (c : Chip) (n : Nat) (y : Nat × Nat) : Bool := decide (y.2 ≤ n) && !laneAbsent c n y.1

/-- The tag of stitched line n: the leader's unchanged where another member issued the trigger (R396), else the trigger's with the flags of
the line (R14, R52). -/
def stitchedTag (c : Chip) (x : Settings) (n : Nat) : Tag :=
  let t := (tagOf c n).getD { (default : Tag) with number := n }
  if c.trig.leaderTags.contains n then t
  else Tag.withFlags t (packBits [inTransition c x n, false, (mappedLanes c).any (laneAbsent c n), c.perg.takeoverAt.any (carriesNew c n)])

/-- The sums of a candidate after one pair (R126). -/
def SeamSum.add (s : SeamSum) (l r : Nat) : SeamSum :=
  { n := s.n + 1, l := s.l + l, ll := s.ll + l * l, r := s.r + r, rr := s.rr + r * r, lr := s.lr + l * r }

/-- The candidates in order: dm ascending, then dc ascending. -/
def seamCandidates : List (Int × Int) := (List.range 9).flatMap fun (i : Nat) => (List.range 17).map fun (j : Nat) => ((j : Int) - 8, (i : Int) - 4)

/-- Line n falls in a measurement window of a seam (R127). DESIGN CHOICE: log entry 62. -/
def Seam.inWindow (s : Seam) (n : Nat) : Bool := decide (1024 - 2 ^ s.corrLinesLog2 ≤ n % 1024)

/-- The sums of a seam after line n, under the settings of that line (R126). -/
def accumulate (c : Chip) (count n : Nat) (v : SeamView) (s : Seam) : Seam :=
  match v.zone with
  | none => s
  | some (zf, zw) =>
    if !v.seam.track || !v.seam.inWindow n then s
    else
      let start := n % 1024 == 1024 - 2 ^ v.seam.corrLinesLog2
      let old := if start || s.sums.isEmpty then List.replicate 153 {} else s.sums
      let sums := (seamCandidates.zip old).map fun ((dc, dm), sum) =>
        (List.range zw).foldl (fun sum i =>
          match sampleAt c count v.left ((zf + i : Nat) : Int) n, sampleAt c count v.right ((zf + i : Nat) + dc) (n + dm) with
          | some l, some r => sum.add l r
          | _, _ => sum) sum
      { s with sums, possible := (if start then 0 else s.possible) + zw }

/-- The seams of a line at their present positions. -/
def lineViews (c : Chip) (x : Settings) (n : Nat) : List SeamView :=
  (seamViews c x n).map fun v =>
    let s := getSeam c (if v.right = 16 then 15 else v.left)
    { v with seam := { v.seam with dc := s.dc, dm := s.dm } }

/-- Assembles the next stitched line. -/
def assembleLine (c : Chip) : Chip :=
  if !canAssemble c then c
  else
    let n := c.perg.next
    let c := settleSeams n c
    let x := settingsAt c n
    let count := x.geo.columnCount
    let views := lineViews c x n
    let line : Stitched := { tag := stitchedTag c x n, columns := (List.range count).map (stitchColumn c x views n) }
    let c := views.foldl (fun c v => modSeam (if v.right = 16 then 15 else v.left) (accumulate c count n v) c) c
    let c := { c with
      life := { c.life with linesLastS := c.life.linesLastS + 1 }
      perg := { c.perg with
      next := n + 1, out := c.perg.out ++ [line], recent := (line :: c.perg.recent).take 2048
      takeoverAt := c.perg.takeoverAt.filter fun y => !carriesNew c n y
      expired := c.perg.expired.filter fun x => decide (n < x.2) } }
    vcamEmit line c

/-- PERGOLA_WAIT_EXPIRY: the lane's oldest contribution still awaited is given up, and its `lines_lost` increments (R135).
DESIGN CHOICE: log entry 66. -/
def waitExpires (l : Nat) (c : Chip) : Chip :=
  match ((List.range 5).map (c.perg.next + ·)).find? fun m => decide (m < c.trig.number) && !settled c l m with
  | none => c
  | some m =>
    if !laneMapped c l then c
    else
      let (k, c) := satAdd 0x0206 (32 * l + 16) l 32 (vget c.lane l).linesLost 1 c
      { modLane l (fun x => { x with linesLost := k }) c with perg := { c.perg with expired := c.perg.expired ++ [(l, m)] } }

def execPergolaWaitExpiry (t : Nat) (lane : Fin 16) (s : State) : Host.Outcome State Fault Refusal :=
  .next (s.run t fun _ c => waitExpires lane c)

/-! ### Measurement (R127 to R132) -/

/-- ρ of a candidate as its numerator and the square of its denominator; none where it has none (R127). DEDUCED: log entry 61. -/
def SeamSum.rho (s : SeamSum) : Option (Int × Int) :=
  let n : Int := s.n
  let vl : Int := n * s.ll - s.l * s.l
  let vr : Int := n * s.rr - s.r * s.r
  if s.n = 0 ∨ vl ≤ 0 ∨ vr ≤ 0 then none else some (n * s.lr - s.l * s.r, vl * vr)

/-- Whether one ρ is below another. -/
def rhoLt (a b : Int × Int) : Bool :=
  if a.1 < 0 then (if b.1 < 0 then decide (b.1 * b.1 * a.2 < a.1 * a.1 * b.2) else true)
  else if b.1 ≤ 0 then false else decide (a.1 * a.1 * b.2 < b.1 * b.1 * a.2)

/-- Whether x ≤ ±√q, the sign as `neg` says. -/
def leRoot (x q : Rat) (neg : Bool) : Bool := if neg then decide (x ≤ 0) && decide (q ≤ x * x) else decide (x ≤ 0) || decide (x * x ≤ q)

/-- Whether ±√q ≤ x. -/
def rootLe (x q : Rat) (neg : Bool) : Bool := if neg then decide (0 ≤ x) || decide (x * x ≤ q) else decide (0 ≤ x) && decide (q ≤ x * x)

/-- Whether ρ1 − ρ2 is at least r ≥ 0, in exact arithmetic; a ρ is its numerator and the square of its denominator. -/
def rhoAhead (a b : Int × Int) (r : Rat) : Bool :=
  let sq (x : Int × Int) : Rat := ((x.1 * x.1 : Int) : Rat) / (x.2 : Rat)
  let x := sq a
  let y := sq b
  let p := x + r * r - y
  let left := rootLe (-r) x (decide (0 < a.1))      -- r ≤ ρ1, as −ρ1 ≤ −r
  if left then (if b.1 ≤ 0 then true else rootLe p (4 * r * r * x) (decide (a.1 < 0)))
  else if 0 ≤ b.1 then false else leRoot p (4 * r * r * x) (decide (a.1 < 0))

/-- floor(32 768 · clamp(ρ1 − ρ2, 0, 1)), at most 32 767 (R127). -/
def confidenceOf (a : Int × Int) (b : Option (Int × Int)) : Nat :=
  bisect (fun k => rhoAhead a (b.getD (0, 1)) ((k : Rat) / 32768)) 15 0

/-- The peak among candidates: the largest ρ; of equals the one nearest the present position, then the first in order.
DEDUCED: log entry 61. -/
def peakOf (dc dm : Int) (cs : List ((Int × Int) × (Int × Int))) : Option ((Int × Int) × (Int × Int)) :=
  let dist (p : Int × Int) : Nat := (p.1 - dc).natAbs + (p.2 - dm).natAbs
  cs.foldl (fun best x => match best with
    | none => some x
    | some y => if rhoLt y.2 x.2 then some x else if rhoLt x.2 y.2 then some y else if dist x.1 < dist y.1 then some x else some y) none

/-- What a window measured: peak and confidence (R127). DEDUCED: log entry 61. -/
def Seam.measure (s : Seam) (dc dm : Int) : Option (Int × Int) × Nat :=
  let cs := ((seamCandidates.zip s.sums).filterMap fun (p, x) => x.rho.map fun r => (p, r))
  match peakOf dc dm cs with
  | none => (none, 0)
  | some (p, r1) =>
    let others := cs.filter fun y => 1 < (y.1.1 - p.1).natAbs || 1 < (y.1.2 - p.2).natAbs
    let z := s.sums.getD 76 {}
    let flat (sum sq : Nat) : Bool := decide ((z.n : Int) * sq - sum * sum < (s.textureMin * s.textureMin * z.n * z.n : Nat))
    (some p, if flat z.l z.ll || flat z.r z.rr then 0 else confidenceOf r1 ((peakOf dc dm others).map (·.2)))

/-- The position a seam has at stitched line n, as far as it is known. -/
def Seam.positionAt (s : Seam) (n : Nat) : Int × Int :=
  (((s.next.filter fun y => decide (y.2.2.1 ≤ n)).getLast?).map fun y => (y.1, y.2.1)).getD (s.dc, s.dm)

/-- EV_SEAM_LOST (R154, R398): with the position in force on entry to HELD, and the new one on return. -/
def seamLost (k state nm : Nat) (c : Chip) : Chip :=
  let s := getSeam c k
  let id := if k = 15 then 0x10 + c.gang.cfg.position else k
  let (dc, dm) := s.positionAt (nm + 64 * state)
  raise 0x0502 2 id (le 1 id ++ le 1 state ++ le 2 s.confidence ++ leS 1 dc ++ leS 1 dm ++ le 6 nm) c

/-- A good measurement under settings `z` (R129, R132). -/
def goodMeasurement (k nm conf : Nat) (pc pm dc dm : Int) (z : Seam) (c : Chip) : Chip :=
  let s := getSeam c k
  let step (now want : Int) (lim : Nat) : Int := now + clampI (-(lim : Int)) lim (want - now)
  let c := modSeam k (fun s => { s with
    confidence := conf, weakCount := 0, held := false, next := s.next ++ [(step dc pc z.maxStepCd, step dm pm z.maxStepMd, nm + 64, true)] }) c
  if s.held then seamLost k 1 nm c else c

/-- A weak measurement (R129, R132). -/
def weakMeasurement (k nm conf : Nat) (c : Chip) : Chip :=
  let s := getSeam c k
  let holds := decide (15 ≤ s.weakCount) && !s.held
  let (h, c) := satAdd 0x0705 (16 + 16 * k + 12) k 32 s.heldEntries (b2n holds) c
  let c := modSeam k (fun s => { s with confidence := conf, weakCount := satU 8 (s.weakCount + 1), held := s.held || holds, heldEntries := h }) c
  if holds then seamLost k 0 nm c else c

/-- Settings of a seam for a stitched line. -/
def seamSettings (c : Chip) (k n : Nat) : Seam := if k = 15 then c.gang.seam else vget (settingsAt c n).seams k

/-- SEAM_MEASUREMENT: the window that has just ended, under the settings of its last line (R127 to R132). One of a window that ended
before an entry which the Pergola has reached since is recorded and moves nothing (R150). DESIGN CHOICE: log entry 62. -/
def seamMeasure (k : Nat) (c : Chip) : Chip :=
  let s := getSeam c k
  let nm := c.perg.next / 1024 * 1024 - 1
  let z := seamSettings c k nm
  if s.sums.isEmpty || c.perg.next < 1024 || (c.perg.next % 1024 != 0 && z.inWindow c.perg.next) || !z.track then c
  else
    let (dc, dm) := s.positionAt nm
    let (peak, conf) := { s with textureMin := z.textureMin }.measure dc dm
    let clear (s : Seam) : Seam := { s with sums := [], possible := 0, taints := s.taints.filter fun m => decide (nm < m) }
    let bad := decide (2 * (s.sums.getD 76 {}).n < s.possible) || s.taints.any fun m => decide (nm + 1 ≤ m + 2 ^ z.corrLinesLog2) && decide (m ≤ nm)
    if bad then modSeam k clear c
    else
      let (m, c) := satAdd 0x0705 (16 + 16 * k + 8) k 32 s.measurements 1 c
      let c := modSeam k (fun s => { clear s with measurements := m }) c
      if nm < s.appliedAt then modSeam k (fun s => { s with confidence := conf }) c
      else match peak with
      | none => weakMeasurement k nm conf c
      | some (pc, pm) =>
        if conf < z.confThreshold || pc.natAbs == 8 || pm.natAbs == 4 then weakMeasurement k nm conf c else goodMeasurement k nm conf pc pm dc dm z c

def execSeamMeasurement (t : Nat) (seam : Fin 16) (s : State) : Host.Outcome State Fault Refusal :=
  .next (s.run t fun _ c => seamMeasure seam c)

/-- SEAM_POSITION_APPLY: the position that is due at the next stitched line (R130). -/
def execSeamPositionApply (t : Nat) (seam : Fin 16) (s : State) : Host.Outcome State Fault Refusal :=
  .next (s.run t fun _ c => modSeam seam (fun s => s.settle c.perg.next) c)

/-! ### PIPE.SET_STITCH (R149 to R152) -/

/-- The seam with the settings of an entry; `p` starts after `transaction_id`. -/
def Seam.edit (s : Seam) (p : List Byte) : Seam :=
  { s with
    hard := rd p 1 1 == 1, track := bit (rd p 2 1) 0, zoneFirst := rd p 4 4, zoneWidth := rd p 8 2, cutOffset := rd p 10 2,
    confThreshold := rd p 12 2, textureMin := rd p 14 2, corrLinesLog2 := rd p 16 1, maxStepCd := rd p 17 1, maxStepMd := rd p 18 1 }

/-- An entry of PIPE.SET_STITCH takes effect at stitched line N0: the settings are those of the lines from N0 on, and what it does to
the position and to the weak count waits until the Pergola reaches N0 (R150, R309). -/
def stitchApply (n0 : Nat) (p : List Byte) (c : Chip) : Chip :=
  modSeam (rd p 0 1) (fun s =>
    let s := { s.edit p with
      taints := n0 :: s.taints, applies := s.applies ++ [n0]
      next := if bit (rd p 2 1) 1 then s.next ++ [(rdS p 19 1, rdS p 20 1, n0, false)] else s.next }
    if n0 ≤ c.perg.next then s.settle n0 else s) c

/-- The seams between two mapped lanes that both produce columns have a zone (R151); `f` selects the seams judged. -/
def seamsOk (f : Nat → Bool) (c : Chip) : Bool :=
  (laneSeams c (settingsOf c)).all fun v =>
    !f v.left || (vget c.corr v.left).bank.span.isNone || (vget c.corr v.right).bank.span.isNone || v.zone.isSome

/-- R151 for an entry, judged on the device as the whole transaction leaves it; the zone is judged where the entry's setting is the one in
force (R303). -/
def stitchValid (inForce : Bool) (p : List Byte) (c : Chip) : Bool :=
  let k := rd p 0 1
  let s := vget c.seam k
  let zw := rd p 8 2
  let cut := rd p 10 2
  decide (k < 15) && (zw == 0 || (decide (2 ≤ zw) && decide (zw ≤ 256) && zw % 2 == 0)) && decide (rd p 12 2 ≤ 32767) && decide (rd p 14 2 ≤ 4095) &&
  decide (6 ≤ rd p 16 1) && decide (rd p 16 1 ≤ 10) && decide (1 ≤ rd p 17 1) && decide (rd p 17 1 ≤ 8) && decide (1 ≤ rd p 18 1) && decide (rd p 18 1 ≤ 4) &&
  decide ((rdS p 19 1).natAbs ≤ 8) && decide ((rdS p 20 1).natAbs ≤ 4) &&
  laneMapped c k && laneMapped c (k + 1) &&
  (!inForce || match overlapOf (vget c.corr k).bank.span (vget c.corr (k + 1)).bank.span with
   | none => false
   | some ov => match zoneOf s ov with
     | none => false
     | some (_, w) => cut == 0xFFFF || decide (cut < w))

/-- PIPE.SET_STITCH (R149). -/
def pipeSetStitch (_ : Env) (j : Job) (c : Chip) : Reply :=
  let p := j.payload
  stage 0x0501 [lenIs 28 j, inRange p 5 1 0 1, param 6 (rd p 6 1 < 4), reserved p 7 1, reserved p 25 3] j c

def execPipeSetStitch (t : Nat) (mb : Fin 8) (s : State) : Host.Outcome State Fault Refusal :=
  .next (s.command 0x0501 t mb pipeSetStitch)

/-- A seam between two mapped lanes has no zone (R597). -/
def seamZoneless (c : Chip) (k : Nat) : Bool := (laneSeams c (settingsOf c)).any fun v => v.left == k && v.zone.isNone

/-- A seam that has lost its zone tracks no more: it is FIXED, and no longer HELD (R597). DEDUCED: log entry 63. -/
def releaseSeams (c : Chip) : Chip :=
  { c with seam := vmapIdx (fun k s => if seamZoneless c k then { s with weakCount := 0, held := false } else s) c.seam }

/-- State of a seam (R131). DEDUCED: log entry 63. -/
def seamState (c : Chip) (k : Nat) : Nat :=
  let s := vget c.seam k
  if !laneMapped c k || !laneMapped c (k + 1) then 0
  else if !s.track || seamZoneless c k then 1 else if s.held then 3 else 2

/-- The seam record (R153). -/
def seamRecord (c : Chip) (k : Nat) : List Byte :=
  let s := vget c.seam k
  let st := seamState c k
  le 1 k ++ le 1 st ++ leS 1 s.dc ++ leS 1 s.dm ++ le 2 (if seamZoneless c k then 0 else s.confidence) ++ le 1 s.weakCount ++ [0] ++
  le 4 s.measurements ++ le 4 s.heldEntries

end Sys2Proof.Machine
end

