-- ==== Sys2Proof/Machine/Spare.lean ====
section
/-! DEFINITION. The spare engine of chapter 5: shadowing, takeover, self-test and retirement. -/
namespace Sys2Proof.Machine

/-- Changes the engines. -/
def modEngines (f : Engines → Engines) (c : Chip) : Chip := { c with engines := f c.engines }

/-- A lane the spare can shadow: mapped, its port up, an engine bound and delivering (R136). -/
def shadowable (c : Chip) (l : Nat) : Bool :=
  match (vget c.lane l).port with
  | some n => !([PortState.down, .fault].contains (vget c.port n).state) && (vget c.engines.binding l).isSome && !bit c.engines.withheld l
  | none => false

/-- The lane after a given one in ascending order, the lowest after the highest (R136). -/
def nextShadowLane (c : Chip) (last : Option Nat) : Option Nat :=
  let ls := (List.range 16).filter (shadowable c)
  match last with
  | none => ls.head?
  | some k => (ls.find? fun l => decide (k < l)).or ls.head?

/-- A replay job runs on the spare (R148). -/
def replaying (c : Chip) : Bool := c.orangery.jobs.any fun x => x.replay && x.running

/-- The present shadow period ends before its time; it restarts in full on the same lane (R136, R148). -/
def interruptShadow (c : Chip) : Chip :=
  match c.engines.shadow with
  | none => c
  | some (l, _) => modEngines (fun e => { e with shadow := none, copy := none, blocks := [], interrupted := some l }) c

/-- First stitched line that the lane has still to contribute to; lines whose camera line is lost are passed over. -/
def firstOwed (c : Chip) (l : Nat) : Nat :=
  c.perg.next + (((List.range 128).find? fun i => !contributed c l (c.perg.next + i) && !lineMissing c l (c.perg.next + i)).getD 0)

/-- SHADOW_PERIOD_START: at the block boundary that the lane comes to next, where the spare is free: the period before has covered its
2^20 lines (R136). DEDUCED: log entry 64. -/
def shadowStart (c : Chip) : Chip :=
  let e := c.engines
  let ended := match e.shadow with
    | none => true
    | some (l, n) => decide (n + 2 ^ 20 ≤ firstOwed c l)
  let lane := match e.interrupted.filter (shadowable c) with
    | some l => some l
    | none => nextShadowLane c e.lastLane
  if e.spare.isNone || !ended || !triggering c || replaying c then c
  else match lane with
    | none => c
    | some l =>
      modEngines (fun e => { e with
        shadow := some (l, 256 * ((firstOwed c l + 255) / 256)), lastLane := some l, interrupted := none, copy := none, blocks := []
        confirming := e.confirming && e.interrupted == some l }) c

def execShadowPeriodStart (t : Nat) (s : State) : Host.Outcome State Fault Refusal :=
  .next (s.run t fun _ c => shadowStart c)

/-- EV_ENGINE_TAKEOVER (R154); a retirement is recorded with its time even where the event is masked (R145). The lane of an engine bound
to none is a free value. DESIGN CHOICE: log entry 257. -/
def takeoverEvent (lane out new cause number : Nat) (c : Chip) : Chip :=
  let (v, c) := if lane = 0xFF then freeNat c else (lane, c)
  let lane := v % 256
  let payload := le 1 lane ++ le 1 out ++ le 1 new ++ le 1 cause ++ le 8 number
  let sev := if cause = 5 then 3 else 2
  let (s, n) := clock c
  let c := if cause = 5 && !eventEnabled c 0x0500 3 then
      journalEvent { code := 0x0500, severity := 3, source := lane % 128 + 128, sequence := 0, timeS := s, timeNs := n, payload } c
    else c
  raiseWith (decide (4 ≤ cause)) 0x0500 sev lane payload c

/-- The lane's lines are withheld for want of a spare (R146). DEDUCED: log entry 65. -/
def withhold (l : Nat) (c : Chip) : Chip := modEngines (fun e => { e with withheld := setBit e.withheld l true }) c

/-- A takeover of a lane (R140, R144 to R148): cause 0 internal fault, 1 shadow mismatch, 2 confirmation mismatch. DEDUCED: log entry 64. -/
def takeover (l cause number : Nat) (c : Chip) : Chip :=
  match c.engines.spare, vget c.engines.binding l with
  | some new, some out =>
    let ended := c.engines.shadow.map (·.1)
    let c := modEngines (fun e => { e with
      binding := vset e.binding l (some new), spare := none, testing := e.testing ++ [{ engine := out, lane := l, cause }], shadow := none, copy := none, blocks := []
      withheld := setBit e.withheld l false, confirming := false, interrupted := if cause = 0 then (ended.or e.interrupted) else some l }) c
    let (n, c) := satAdd 0x0D03 (64 + out) out 8 (vget c.life.totals.takeovers out) 1 c
    let c := { c with
      orangery := { c.orangery with jobs := c.orangery.jobs.map fun x => if x.replay && x.running then { x with preempted := true } else x }
      perg := { c.perg with takeoverAt := (l, number) :: c.perg.takeoverAt.filter fun y => y.1 != l }
      life := { c.life with totals := { c.life.totals with takeovers := vset c.life.totals.takeovers out n } } }
    takeoverEvent l out new cause number c
  | _, _ => withhold l c

/-- The shadowed lane has processed every line of a block that can still come (R137). -/
def blockProcessed (c : Chip) (l block : Nat) : Bool :=
  (List.range 256).all fun i => decide (block + i < c.perg.next) || contributed c l (block + i) ||
    (decide (block + i < c.trig.number) && lineMissing c l (block + i))

/-- SHADOW_BLOCK_COMPARE (R137, R138): a block of the period that both engines have processed whole; `upset` is what a fault changed in
the two CRCs, 0 where there was none. DEDUCED: log entry 64. -/
def blockCompare (block upset : Nat) (c : Chip) : Chip :=
  match c.engines.shadow, c.engines.spare with
  | some (l, first), some sp =>
    let (working, spare) := ((c.engines.blocks.find? fun b => b.1 == block).map (·.2)).getD (0xFFFFFFFF, 0xFFFFFFFF)
    if block % 256 ≠ 0 ∨ block < first ∨ first + 2 ^ 20 ≤ block ∨ !blockProcessed c l block then c
    else
      let c := modEngines (fun e => { e with blocks := e.blocks.filter fun b => b.1 != block }) c
      if Nat.xor working (upset % 2 ^ 32) = spare then modEngines (fun e => { e with mismatched := setBit e.mismatched l false }) c
      else
        let cause := if c.engines.confirming then 2 else 1
        let work := (vget c.engines.binding l).getD 0xFF
        let again := bit c.engines.mismatched l
        let c := raise 0x0501 2 l (le 1 l ++ le 1 work ++ le 1 sp ++ [0] ++ le 8 block) (takeover l cause c.perg.next c)
        modEngines (fun e => { e with
          mismatched := setBit e.mismatched l true
          testing := e.testing.map fun x => if x.lane = l ∧ again then { x with cause := 2 } else x }) c
  | _, _ => c

def execShadowBlockCompare (t block upset : Nat) (s : State) : Host.Outcome State Fault Refusal :=
  .next (s.run t fun _ c => blockCompare block upset c)

/-- The lane an engine is bound to. -/
def engineLane (c : Chip) (e : Nat) : Option Nat := (List.range 16).find? fun l => vget c.engines.binding l == some e

/-- ENGINE_FAULT (R138, R147): a working engine's lane is taken over; a fault of the spare itself takes it out. DEDUCED: log entry 65. -/
def engineFault (e : Nat) (c : Chip) : Chip :=
  if c.engines.spare = some e then
    let c := modEngines (fun x => { x with spare := none, testing := x.testing ++ [{ engine := e, lane := 0xFF, cause := 3 }] }) (interruptShadow c)
    { c with orangery := { c.orangery with jobs := c.orangery.jobs.map fun x => if x.replay && x.running then { x with preempted := true } else x } }
  else match engineLane c e with
    | none => c
    | some l => if bit c.engines.withheld l then c else takeover l 0 (firstOwed c l) c

/-- The engines that report a fault in one line time: the spare first, then the working engines in the order of their lanes, so that the
lowest lane takes the spare (R147). -/
def enginesFault (es : List Nat) (c : Chip) : Chip :=
  let order := (es.filter fun e => c.engines.spare == some e) ++ ((List.range 16).filterMap fun l => (vget c.engines.binding l).filter es.contains)
  order.foldl (fun c e => engineFault e c) c

def execEngineFault (t : Nat) (engines : List (Fin 17)) (s : State) : Host.Outcome State Fault Refusal :=
  .next (s.run t fun _ c => enginesFault (engines.map Fin.val) c)

/-- An engine becomes spare again; a lane whose lines are withheld takes it at once (R146). DEDUCED: log entry 65. -/
def newSpare (e : Nat) (c : Chip) : Chip :=
  let c := modEngines (fun x => { x with spare := some e }) c
  match (List.range 16).find? fun l => bit c.engines.withheld l && (vget c.engines.binding l).isSome with
  | some l => takeover l 0 (firstOwed c l) c
  | none => c

/-- ENGINE_SELF_TEST_DONE: the fate of an engine taken out (R144, R145). DEDUCED: log entry 65. -/
def selfTestDone (e : Nat) (passed : Bool) (c : Chip) : Chip :=
  match c.engines.testing.find? fun x => x.engine == e with
  | none => c
  | some x =>
    let c := modEngines (fun y => { y with testing := y.testing.filter fun z => z.engine != e }) c
    if passed ∧ x.cause ≠ 2 then
      let c := takeoverEvent x.lane e 0xFF 4 c.trig.number c
      let c := if x.cause = 1 then modEngines (fun y => { y with confirming := true, interrupted := some x.lane }) c else c
      newSpare e c
    else takeoverEvent x.lane e 0xFF 5 c.trig.number (modEngines (fun y => { y with retired := setBit y.retired e true }) c)

def execEngineSelfTestDone (t : Nat) (engine : Fin 17) (passed : Bool) (s : State) : Host.Outcome State Fault Refusal :=
  .next (s.run t fun _ c => selfTestDone engine passed c)

/-- The binding made at an entry to CONFIGURE from STANDBY, from the engines that failed their self-test (R8, R145); an interrupted shadow
period still restarts on its lane (R136). DEDUCED: log entry 65. -/
def bindEngines (failed : Nat) (c : Chip) : Chip :=
  let bad := (List.range 16).filter (bit failed)
  let e16 := !bit failed 16
  let binding : Vector (Option Nat) 16 := vmapIdx (fun l (_ : Option Nat) =>
    if !bit failed l then some l else if e16 && bad.head? == some l then some 16 else none) c.engines.binding
  let c := modEngines (fun e => { binding, spare := if bad.isEmpty && e16 then some 16 else none, retired := failed % 2 ^ 17,
                                   interrupted := e.interrupted, lastLane := e.lastLane }) c
  (setBits 17 failed).foldl (fun c e => takeoverEvent (if e = 16 then 0xFF else e) e 0xFF 5 c.trig.number c) c

end Sys2Proof.Machine
end

