-- ==== Sys2Proof/Machine/Rows.lean ====
section
/-! DEFINITION. The output rows of the preview streams (R263 to R265): how a line whose mask is final enters them. -/
namespace Sys2Proof.Machine

/-- Output pixels of a row. -/
def ViewCfg.width (v : ViewCfg) : Nat := v.columnCount / max 1 v.cdDecimation

/-- Bytes of a padded row (R266). -/
def ViewCfg.pitch (v : ViewCfg) : Nat := ceilDiv v.width 32 * 32

/-- Header and padded planes of a whole frame (R266). -/
def ViewCfg.frameBytes (v : ViewCfg) : Nat := 64 + v.pitch * v.frameHeight * (1 + b2n v.overlay)

/-- An output pixel from the valid pixels of its block (R263). -/
def reduceBlock (method : Nat) (gs : List Nat) : Nat :=
  match gs with
  | [] => 0
  | g :: rest =>
    let v := match method with
      | 0 => (gs.foldl (· + ·) 0 + gs.length / 2) / gs.length
      | 1 => rest.foldl min g
      | 2 => rest.foldl max g
      | _ => g
    min 255 ((v + 8) / 16)

/-- Columns of output pixel j of a line. -/
def ViewCfg.block {α : Type} (v : ViewCfg) (j : Nat) (xs : List α) : List α := (xs.drop (v.firstColumn + j * v.cdDecimation)).take v.cdDecimation

/-- The box outline passes through output pixel j of row r (R264). -/
def onOutline (v : ViewCfg) (b : ViewBox) (r j : Nat) : Bool :=
  let d := max 1 v.cdDecimation
  let m := max 1 v.mdDecimation
  let lo := v.firstColumn + j * d
  let hi := lo + d - 1
  let top := decide (b.first / m = r) || decide (b.last / m = r)
  let within := decide (b.first / m ≤ r) && decide (r ≤ b.last / m)
  let side (c : Nat) : Bool := decide (lo ≤ c) && decide (c ≤ hi)
  (top && decide (b.cMin ≤ hi) && decide (lo ≤ b.cMax)) || (within && (side b.cMin || side b.cMax))

/-- Draws a box into the overlay of a row. -/
def Row.draw (v : ViewCfg) (b : ViewBox) (x : Row) : Row :=
  { x with overlay := x.overlay.mapIdx fun j o => if onOutline v b x.r j then o % 2 + 2 + 4 * min b.cls 63 else o }

/-- The output row of the lines given, newest first (R263, R264). In a subsampled row the block is its first line alone.
DEDUCED: log entry 111. -/
def formRow (v : ViewCfg) (boxes : List ViewBox) (r : Nat) (lines : List MaskLine) : Row :=
  let ls := lines.reverse
  let used := if v.method = 3 then ls.take 1 else ls
  let flags := ls.foldl (fun f m => Nat.lor f m.line.tag.flags) 0
  let newest := ((lines.head?).map (·.line.tag)).getD default
  let row : Row := {
    r
    grey := (List.range v.width).map fun j => reduceBlock v.method (used.flatMap fun m => ((v.block j m.line.columns).filter (·.valid)).map (·.grey))
    overlay := if !v.overlay then [] else (List.range v.width).map fun j =>
      b2n (ls.any fun m => (v.block j m.mask).any fun k => Nat.land k v.overlayPlanes != 0)
    newestTrigger := newest.number, newestMd := newest.md, coverageReduced := bit flags 2, timeDegraded := bit flags 6 }
  boxes.foldl (fun x b => x.draw v b) row

/-- The lines of the row under way become a row of the frame buffer, which keeps the newest 2 × `frame_height` (R265). -/
def View.closeRow (v : View) : View :=
  match v.current with
  | [] => v
  | m :: _ =>
    let r := m.line.tag.number / max 1 v.cfg.mdDecimation
    { v with
      rows := (formRow v.cfg v.boxes r v.current :: v.rows).take (2 * v.cfg.frameHeight), current := []
      boxes := v.boxes.filter fun b => decide (r < b.last / max 1 v.cfg.mdDecimation) }

/-- A line whose mask is final enters a started stream. -/
def View.line (m : MaskLine) (v : View) : View :=
  if !v.started then v
  else
    let d := max 1 v.cfg.mdDecimation
    let n := m.line.tag.number
    let other := match v.current with
      | x :: _ => x.line.tag.number / d != n / d
      | [] => false
    let v := if other then v.closeRow else v
    let v := { v with current := m :: v.current }
    if n % d + 1 = d then v.closeRow else v

/-- Bytes of the row that a line has ended in a stream, where it has. -/
def View.rowBytes (before after : View) : Nat :=
  if (after.rows.head?).map (·.r) = (before.rows.head?).map (·.r) then 0 else after.cfg.pitch * (1 + b2n after.cfg.overlay)

/-- A line enters every stream; the rows it ends enter the Belvedere's pool on their way to DRAM (R265, R416). -/
def viewLine (m : MaskLine) (c : Chip) : Chip :=
  let formed := c.view.toList.foldl (fun n v => n + v.rowBytes (v.line m)) 0
  let c := { c with view := vmapIdx (fun _ v => v.line m) c.view }
  if formed = 0 then c else belvedereFill (min belvedereSize (c.dram.belvedereUsed + formed)) c

end Sys2Proof.Machine
end

