-- ==== Sys2Proof/Machine/Detect.lean ====
section
/-! DEFINITION. DET of chapter 6: the reference model, thresholds, filters, morphology, the streak detector, the plane mask and
its delay, and the three staged commands. -/
namespace Sys2Proof.Machine

/-! ### The deviation of a pixel (R155 to R157) -/

/-- half(n) of R158. -/
def half (n : Nat) : Int := if n = 0 then 0 else 2 ^ (n - 1)

/-- mean16 of an entry (R156). -/
def ModelEntry.mean16 (m : ModelEntry) : Int := asr (m.mean + 128) 8

/-- sigma16 of an entry (R156). -/
def ModelEntry.sigma16 (m : ModelEntry) (sigmaMin : Nat) : Nat := max (isqrt (16 * m.var)) sigmaMin

/-- z of a deviation (R156). -/
def zOf (e : Int) (sigma : Nat) : Int := clampI (-32768) 32767 (divAway (256 * e) sigma)

/-- Updates after which a column is ready (R157). -/
def Reference.readyAt (r : Reference) : Nat := if r.readyUpdates = 0 then min (2 ^ r.tauLog2) 4096 else r.readyUpdates

/-- Largest k with 2^k ≤ n, for n below 2^17. -/
def log2Nat (n : Nat) : Nat := ((List.range 17).filter fun k => decide (2 ^ k ≤ n)).getLastD 0

/-- An entry after an update with a pixel and its deviation, and whether `var` was clamped at its top (R158). DEDUCED: log entry 74. -/
def ModelEntry.update (m : ModelEntry) (r : Reference) (x : Nat) (e : Int) : ModelEntry × Bool :=
  if m.n = 0 then ({ mean := 4096 * x, var := r.sigmaInit * r.sigmaInit / 16, n := 1 }, false)
  else
    let ke := if m.n = 65535 then r.tauLog2 else min r.tauLog2 (log2Nat (m.n + 1))
    let mean := (m.mean : Int) + asr (4096 * (x : Int) - m.mean + half ke) ke
    let var := (m.var : Int) + asr (e * e / 16 - m.var + half ke) ke
    ({ mean := mean.toNat, var := (clampI 0 (2 ^ 24 - 1) var).toNat, n := min (m.n + 1) 65535 }, decide ((2 ^ 24 - 1 : Int) < var))

/-! ### Thresholds and verdicts (R164, R170 to R172) -/

/-- Settings of the band of a column. -/
def bandOf (x : Settings) (col : Nat) : Band := ((x.bands.find? fun b => b.1 == (x.firstColumn + col) / 256).map (·.2)).getD {}

/-- t[i] of a band (R164). -/
def Band.threshold (b : Band) (sigma i : Nat) : Int :=
  clampI (16 * (b.floor.getD i 0 : Int)) (16 * (b.ceiling.getD i 0 : Int)) (asr ((b.mult.getD i 0 : Int) * sigma + 128) 8)

/-- Threshold comparison i (R164). -/
def Band.compare (b : Band) (sigma : Nat) (e : Int) (i : Nat) : Bool :=
  if i < 2 then decide (e ≤ -b.threshold sigma i) else decide (b.threshold sigma i ≤ e)

/-- A value against a level under a polarity: 1 dark, 2 light, 3 both (R172). -/
def polarityHit (polarity level : Nat) (v : Int) : Bool :=
  (bit polarity 0 && decide (v ≤ -(level : Int))) || (bit polarity 1 && decide ((level : Int) ≤ v))

/-- Whether line n falls under the present streak verdicts (R171). -/
def Det.verdictsApply (d : Det) (n : Nat) : Bool := !d.stat.isEmpty && decide (n ≤ d.verdictUntil)

/-! ### One line (R156 to R163, R169, R178) -/

/-- What DET forms of a column: the entry's column, x (none where the pixel, or its pair, is invalid), e0, e, readiness, σ. -/
structure Cell1 where
  key : Nat
  x : Option Nat
  e0 : Int
  e : Int
  ready : Bool
  sigma : Nat

/-- x of a column, or of its pair at level 3 (R178). DEDUCED: log entry 71. -/
def pixelOf (line : Stitched) (paired : Bool) (col : Nat) : Option Nat :=
  let at_ (i : Nat) : Option Nat := (line.columns[i]?).bind fun p => if p.valid then some p.grey else none
  if paired then
    match at_ (col / 2 * 2), at_ (col / 2 * 2 + 1) with
    | some a, some b => some ((a + b) / 2)
    | some a, none => some a
    | none, b => b
  else at_ col

/-- The cell of a column. DEDUCED: log entries 71 and 74. -/
def Det.cell (d : Det) (r : Reference) (line : Stitched) (paired : Bool) (p : Int) (col : Nat) : Cell1 :=
  let key := if paired then col / 2 * 2 else col
  let m := d.model.getD key {}
  let x := pixelOf line paired col
  let e0 := 16 * ((x.getD 0 : Nat) : Int) - m.mean16
  { key, x, e0, e := e0 - p, ready := decide (r.readyAt ≤ m.n), sigma := m.sigma16 r.sigmaMin }

/-- Resets of the model that are due (R163). -/
def Det.takeResets (d : Det) (n : Nat) : Det :=
  let due := d.resets.filter fun y => decide (y.1 ≤ n)
  { d with
    model := due.foldl (fun m y => m.take y.2.1) d.model
    profile := if due.any (·.2.2) then 0 else d.profile
    resets := d.resets.filter fun y => !decide (y.1 ≤ n) }

/-- On release of level 3, entry 2i + 1 takes a copy of entry 2i (R178). DEDUCED: log entry 71. -/
def Det.unpair (d : Det) : Det :=
  { d with model := (List.range ((d.model.length + 1) / 2 * 2)).map fun i => d.model.getD (i / 2 * 2) {} }

/-- Bits of the threshold and streak planes of a column, or of its pair: none where it is invalid or not ready (R157, R172). DEDUCED:
log entry 70. -/
def rawBits (d : Det) (x : Settings) (n : Nat) (k : Cell1) : Nat :=
  let b := bandOf x k.key
  packBits (x.planes.toList.map fun q =>
    k.x.isSome && k.ready &&
    (if 1 ≤ q.source ∧ q.source ≤ 4 then b.compare k.sigma k.e (q.source - 1)
     else q.source == 8 && d.verdictsApply n && polarityHit q.polarity q.level (d.stat.getD k.key 0)))

/-- Accumulator of the streak detector after a line. -/
def accumulateZ (acc z : List Int) (clip : Nat) : List Int := z.mapIdx fun i v => acc.getD i 0 + clampI (-(clip : Int)) clip v

/-- Log2 of the group width (R170). -/
def groupLog2 (g : Nat) : Nat := if g = 16 then 4 else if g = 4 then 2 else 0

/-- s of R170 per column. -/
def streakStat (s : Streak) (acc : List Int) : List Int :=
  let w := s.group
  let sh := (s.windowLog2 + groupLog2 w) / 2
  acc.mapIdx fun c v =>
    let sum := if w = 1 then v else (List.range w).foldl (fun t i => if c + i < w / 2 then t else t + acc.getD (c + i - w / 2) 0) 0
    asr (sum + half sh) sh

/-- Which accumulator is due for evaluation after line n: A, B or none (R169). -/
def streakDue (s : Streak) (n : Nat) : Option Bool :=
  if !s.on then none
  else if n % 2 ^ s.windowLog2 = 2 ^ s.windowLog2 - 1 then some true
  else if n % 2 ^ s.windowLog2 = 2 ^ s.windowLog2 / 2 - 1 then some false else none

/-- Columns with a verdict under some streak plane (R170, R183). -/
def verdictColumns (x : Settings) (stat : List Int) : Nat :=
  (stat.filter fun v => x.planes.toList.any fun q => q.source == 8 && polarityHit 3 q.level v).length

/-- The evaluation and the clearing of the accumulator whose window has ended with the last line; nothing where none is due
(R169 to R171). DEDUCED: log entry 73. -/
def Det.evaluate (d : Det) (x : Settings) : Det :=
  match d.due with
  | none => d
  | some isA =>
    let l := 2 ^ d.lastStreak.windowLog2
    let acc := if isA then d.accA else d.accB
    let run := if isA then d.runA else d.runB
    let d := { (if isA then { d with accA := [], runA := 0 } else { d with accB := [], runB := 0 } : Det) with due := none }
    if run < l then d
    else
      let stat := streakStat d.lastStreak acc
      { d with
        stat, verdictUntil := d.last.getD 0 + l / 2, streakEvaluations := d.streakEvaluations + 1, streakColumns := verdictColumns x stat }

/-- Offsets of a centred span of odd size. -/
def spanOffsets (w : Nat) : List Int := (List.range w).map fun (i : Nat) => (i : Int) - ((w - 1) / 2 : Nat)

/-- Erosion of a bit field with a w × h element. -/
def erode (w h : Nat) (f : Int → Int → Bool) (n c : Int) : Bool := (spanOffsets h).all fun i => (spanOffsets w).all fun j => f (n + i) (c + j)

/-- Dilation of a bit field with a w × h element. -/
def dilate (w h : Nat) (f : Int → Int → Bool) (n c : Int) : Bool := (spanOffsets h).any fun i => (spanOffsets w).any fun j => f (n + i) (c + j)

/-- A plane's morphology (R168): pixels that `ok` rules out, those outside the line and invalid ones, read 0 in both passes. -/
def morph (q : Plane) (ok f : Int → Int → Bool) (n c : Int) : Bool :=
  let w := (q.morphW + 1) / 2
  let h := (q.morphH + 1) / 2
  let clip (g : Int → Int → Bool) (n c : Int) : Bool := ok n c && g n c
  match q.morphOp with
  | 1 => dilate w h (clip (erode w h f)) n c
  | 2 => erode w h (clip (dilate w h f)) n c
  | 3 => dilate q.morphW q.morphH f n c
  | _ => f n c

/-- A plane whose bit is final before the model update (R159). -/
def Plane.final (q : Plane) : Bool := q.source == 0 || (1 ≤ q.source && q.source ≤ 4 && q.morphOp == 0) || q.source == 8

/-- Whether a plane freezes the model at a column of the line being taken: its bit there is final (R159), and set as the mask sets it, so
not where the pixel is invalid or the column not ready (R157), and at level 3 for the pair (R178). Morphology of a streak plane counts
along the line only, since the lines beside it are not final yet. DEDUCED: log entry 73. -/
def freezes (x : Settings) (cells : List Cell1) (raw : List Nat) (valid : Nat → Bool) (p col : Nat) : Bool :=
  let q := vget x.planes p
  let cell (c : Int) (test : Cell1 → Bool) : Bool := decide (0 ≤ c) && ((cells[c.toNat]?).map test).getD false
  let f (_ c : Int) : Bool := decide (0 ≤ c) && bit (raw.getD c.toNat 0) p
  let inLine (_ c : Int) : Bool := cell c fun k => k.x.isSome
  valid col && cell col (fun k => k.x.isSome && k.ready) && bit (bandOf x col).planeEnable p &&
  (if q.source = 8 ∧ q.morphOp ≠ 0 then morph { q with morphH := 1 } inLine f 0 (((cells[col]?).map (·.key)).getD col : Nat)
   else bit (raw.getD col 0) p)

/-- One line through DET: comparison, freezing, the update of model, profile and accumulators (R156 to R163, R169, R178).
`compare`: planes are formed, as in every inspecting mode; `update`: the model follows. DEDUCED: log entry 73. -/
def Det.process (d : Det) (x : Settings) (compare update paired : Bool) (line : Stitched) : Det :=
  let n := line.tag.number
  let r := x.reference
  let d := (d.evaluate x).takeResets n
  let d := if d.paired && !paired then d.unpair else d
  let p := if r.mdProfile then d.profile else 0
  let d := { d with profile := p, paired, last := some n }
  let cells := (List.range line.columns.length).map (d.cell r line paired p)
  let valid (col : Nat) : Bool := ((line.columns[col]?).map (·.valid)).getD false
  let raw := cells.map fun k => if compare then rawBits d x n k else 0
  let z := cells.map fun k => if compare && k.x.isSome && k.ready then zOf k.e k.sigma else 0
  let hits := (List.range cells.length).map fun col => (setBits 8 r.freezeMask).any fun p => (vget x.planes p).final && freezes x cells raw valid p col
  let g := r.freezeGuardCd
  let frozen (col : Nat) : Bool := (List.range (2 * g + 1)).any fun i => decide (g ≤ col + i) && hits.getD (col + i - g) false
  let nValid := ((List.range line.columns.length).filter valid).length
  let nFrozen := ((List.range line.columns.length).filter fun col => valid col && frozen col).length
  let whole := decide (r.freezeLinePermille * nValid < nFrozen * 1000)
  let d :=
    if !update then d
    else if whole then { d with frozenLines := d.frozenLines + 1 }
    else
      let open_ (col : Nat) : Bool := !frozen col && !(paired && frozen (if col % 2 = 0 then col + 1 else col - 1))
      let used := (cells.zip (List.range cells.length)).filter fun (k, col) => k.key == col && k.x.isSome && open_ col
      let ready := used.filter fun (k, _) => k.ready
      let new := (List.range (max d.model.length cells.length)).map fun col =>
        match used.find? fun u => u.2 == col with
        | some (k, _) => (d.model.getD col {}).update r (k.x.getD 0) k.e
        | none => (d.model.getD col {}, false)
      let prof := if !r.mdProfile || ready.isEmpty then p else
        let m := r.mdTauLog2
        let avg := divAway (ready.foldl (fun s u => s + u.1.e0) 0) ready.length
        clampI (-(r.mdProfileLimit : Int)) r.mdProfileLimit (p + asr (avg - p + half m) m)
      { d with model := new.map (·.1), varSaturations := d.varSaturations + (new.filter (·.2)).length, profile := prof }
  let d := if d.lastStreak = x.streak then d else { d with lastStreak := x.streak, accA := [], accB := [], runA := 0, runB := 0 }
  let d := if !compare then { d with accA := [], accB := [], runA := 0, runB := 0 }
    else if x.streak.on then { d with
      accA := accumulateZ d.accA z x.streak.clip, accB := accumulateZ d.accB z x.streak.clip, runA := d.runA + 1, runB := d.runB + 1
      due := streakDue x.streak n }
    else d
  let after := (List.range line.columns.length).map fun col => d.model.getD col {}
  { d with
    readyColumns := (after.filter fun m => decide (r.readyAt ≤ m.n)).length
    sigmaFloorColumns := (after.filter fun m => decide (isqrt (16 * m.var) ≤ r.sigmaMin)).length
    rows := ({ line, z, e := cells.map (·.e), compared := cells.map fun k => compare && k.x.isSome && k.ready, raw, paired, model := d.model } :: d.rows).take 32 }

/-! ### Filters, morphology and the mask (R166 to R168, R172, R175) -/

/-- The row of a line. -/
def rowOf (rows : List DetRow) (n : Int) : Option DetRow := rows.find? fun r => (r.line.tag.number : Int) == n

/-- z at a line and column; 0 outside the line and before the first line (R167). -/
def zAt (rows : List DetRow) (n col : Int) : Int :=
  if col < 0 then 0 else ((rowOf rows n).map fun r => r.z.getD col.toNat 0).getD 0

/-- The row sum of a separable filter at a line and column (R167). -/
def Filter.rowSum (f : Filter) (rows : List DetRow) (n col : Int) : Int :=
  clampI (-(2 ^ 23)) (2 ^ 23 - 1)
    (asr ((List.range f.width).foldl (fun s (j : Nat) => s + f.coeff.getD j 0 * zAt rows n (col + j - (f.width - 1) / 2)) 0 + half f.shiftH) f.shiftH)

/-- Output of a filter at a line and column (R167). -/
def Filter.output (f : Filter) (rows : List DetRow) (n col : Int) : Int :=
  let top := n - (f.height - 1) / 2
  if f.kind = 1 then
    clampI (-32768) 32767
      (asr ((List.range f.height).foldl (fun s (i : Nat) => s + f.coeff.getD (f.width + i) 0 * f.rowSum rows (top + i) col) 0 + half f.shiftV) f.shiftV)
  else
    clampI (-32768) 32767
      (asr ((List.range f.height).foldl (fun s (i : Nat) => (List.range f.width).foldl (fun s (j : Nat) =>
        s + f.coeff.getD (i * f.width + j) 0 * zAt rows (top + i) (col + j - (f.width - 1) / 2)) s) 0 + half f.shiftH) f.shiftH)

/-- The column whose bits a column takes: its own, or the first of its pair at level 3 (R178). -/
def DetRow.key (r : DetRow) (col : Nat) : Nat := if r.paired then col / 2 * 2 else col

/-- A pixel of a row, or its pair, is valid. -/
def DetRow.ok (r : DetRow) (col : Nat) : Bool := (pixelOf r.line r.paired col).isSome

/-- The raw bit of a plane at a line and column, before morphology; `at_` gives the settings of a line. -/
def planeRaw (at_ : Nat → Settings) (rows : List DetRow) (p : Nat) (n col : Int) : Bool :=
  if col < 0 then false
  else match rowOf rows n with
    | none => false
    | some row =>
      let x := at_ row.line.tag.number
      let q := vget x.planes p
      if 5 ≤ q.source ∧ q.source ≤ 7 then
        let f := vget x.filters (q.source - 5)
        f.kind != 0 && row.compared.getD col.toNat false && polarityHit q.polarity q.level (f.output rows n (row.key col.toNat))
      else bit (row.raw.getD col.toNat 0) p

/-- A pixel that morphology reads: inside the line, and valid; a line that DET no longer holds is clipped by its columns alone. -/
def morphReads (rows : List DetRow) (count : Nat) (n c : Int) : Bool :=
  decide (0 ≤ c) && decide (c < count) && ((rowOf rows n).map fun r => r.ok c.toNat).getD true

/-- The plane mask of a line (R172): nothing at an invalid pixel, nor in a column that is not ready (R157); at level 3 the two columns of
a pair take the pair's bits (R178). -/
def maskOf (at_ : Nat → Settings) (rows : List DetRow) (row : DetRow) : List Nat :=
  let n := row.line.tag.number
  let x := at_ n
  let ok := morphReads rows row.line.columns.length
  row.line.columns.mapIdx fun col px =>
    if !px.valid || !row.compared.getD col false then 0
    else Nat.land (bandOf x col).planeEnable
      (packBits ((List.range 8).map fun p => morph (vget x.planes p) ok (planeRaw at_ rows p) n (row.key col)))

/-- Largest height over the filters in use, or 1. DEDUCED: log entry 72. -/
def maxHeight (fs : Vector Filter 3) : Nat := max 1 (maxOf ((fs.toList.filter fun f => f.kind != 0).map (·.height)))

/-- Largest span height over the planes with morphology, or 1. DEDUCED: log entry 72. -/
def maxMorph (ps : Vector Plane 8) : Nat := max 1 (maxOf ((ps.toList.filter fun q => q.morphOp != 0 && q.source != 0).map (·.morphH)))

/-- F of the present configuration (R175). DEDUCED: log entry 72. -/
def filterDelay (c : Chip) : Nat := (maxHeight c.det.filters - 1) / 2 + (maxMorph c.det.planes - 1) / 2

/-- Takes F into Fd: raised at once, never lowered outside a mode entry (R176). DEDUCED: log entry 75. -/
def raiseFd (c : Chip) : Chip := { c with det := { c.det with fd := max c.det.fd (filterDelay c) } }

/-- The mask line of stitched line m, if DET owes it. -/
def dueMask (c : Chip) (m : Nat) : Option MaskLine :=
  if (c.det.delivered.map fun k => decide (m ≤ k)).getD false then none
  else (rowOf c.det.rows m).map fun row => { line := row.line, mask := maskOf (settingsAt c) c.det.rows row, model := row.model }

/-- Delivers a mask line to the Carry network; the previews take the line, whose mask is now final (R265). -/
def deliverMask (m : Nat) (c : Chip) : Chip :=
  match dueMask c m with
  | some x => viewLine x { c with det := { c.det with out := c.det.out ++ [x], delivered := some m } }
  | none => c

/-- Takes a new DET into the device, its saturating counters through R549. -/
def takeDet (new : Det) (c : Chip) : Chip :=
  let old := c.det
  let (a, c) := satAdd 0x0705 (256 + 8) 0 32 old.frozenLines (new.frozenLines - old.frozenLines) c
  let (b, c) := satAdd 0x0705 (256 + 20) 0 32 old.varSaturations (new.varSaturations - old.varSaturations) c
  let (k, c) := satAdd 0x0705 (256 + 24) 0 32 old.streakEvaluations (new.streakEvaluations - old.streakEvaluations) c
  { c with det := { new with frozenLines := a, varSaturations := b, streakEvaluations := k } }

/-- The next mask line still owed once no further line will come. -/
def lastMasks (c : Chip) : Option Nat :=
  (c.det.rows.reverse.map (·.line.tag.number)).find? fun n => (c.det.delivered.map fun k => decide (k < n)).getD true

/-- DETECTION_LINE: DET takes the oldest stitched line and delivers the mask that falls due with it (R162, R175); in RELAY the
line passes without detection (R535). Once the last triggered line has been taken, the masks still owed are delivered. -/
def detectLine (c : Chip) : Chip :=
  if !pipelineRuns c then c
  else match c.perg.out with
    | line :: rest =>
      let c := { c with perg := { c.perg with out := rest } }
      if c.modes.base = .relay then c
      else
        let n := line.tag.number
        let x := settingsAt c n
        let inspect := c.modes.base == .inspect
        let c := takeDet (c.det.process x inspect true (c.health.level == 3) line) c
        if x.fd ≤ n then deliverMask (n - x.fd) c else c
    | [] =>
      if !triggering c && c.perg.next == c.trig.number then
        (match lastMasks c with
         | some m => deliverMask m c
         | none => c)
      else c

def execDetectionLine (t : Nat) (s : State) : Host.Outcome State Fault Refusal :=
  .next (s.run t fun _ c => detectLine c)

/-- STREAK_EVALUATION: the accumulator whose window ended with the last line is evaluated and cleared (R169). -/
def evaluateStreaks (c : Chip) : Chip := takeDet (c.det.evaluate (settingsAt c (c.det.last.getD 0))) c

def execStreakEvaluation (t : Nat) (s : State) : Host.Outcome State Fault Refusal :=
  .next (s.run t fun _ c => evaluateStreaks c)

/-! ### The line store (R177) -/

/-- Bytes per column of the tile grey history (R212). -/
def TileCfg.historyBytes (t : TileCfg) : Nat := if t.deep then ceilDiv (3 * t.historyLines) 2 else t.historyLines

/-- Bytes per output column in use (R177). -/
def lineStoreBytes (c : Chip) : Nat :=
  2 * (maxHeight c.det.filters - 1) + max c.det.fd (filterDelay c) +
  ceilDiv (((c.det.planes.toList.filter fun q => q.morphOp != 0 && q.source != 0).map fun q => q.morphH - 1).foldl (· + ·) 0) 8 +
  (if c.det.streak.on then 8 else 0) + c.tiles.cfg.historyBytes

/-- R177: the whole store in bytes. -/
def lineStoreTotal (c : Chip) : Nat := lineStoreBytes c * c.trig.geo.columnCount

/-! ### Staged settings (R179 to R182) -/

/-- Settings of PIPE.SET_REFERENCE; `p` starts after `transaction_id`. -/
def referenceOf (p : List Byte) : Reference :=
  { tauLog2 := rd p 0 1, mdTauLog2 := rd p 1 1, mdProfile := bit (rd p 2 1) 1, freezeMask := rd p 3 1, freezeGuardCd := rd p 4 1,
    freezeLinePermille := rd p 6 2, sigmaMin := rd p 8 2, sigmaInit := rd p 10 2, mdProfileLimit := rd p 12 2, readyUpdates := rd p 14 2 }

/-- An entry of PIPE.SET_REFERENCE takes effect at N0 (R163). -/
def referenceApply (n0 : Nat) (p : List Byte) (c : Chip) : Chip :=
  { c with det := { c.det with
    reference := referenceOf p, resets := if bit (rd p 2 1) 0 then c.det.resets ++ [(n0, 0, true)] else c.det.resets } }

/-- `freeze_mask` names final planes only (R159). -/
def freezeOk (c : Chip) : Bool := (setBits 8 c.det.reference.freezeMask).all fun p => (vget c.det.planes p).final

/-- R182 for PIPE.SET_REFERENCE. -/
def referenceValid (p : List Byte) (c : Chip) : Bool :=
  let r := referenceOf p
  decide (4 ≤ r.tauLog2) && decide (r.tauLog2 ≤ 20) && decide (r.mdTauLog2 ≤ 12) && decide (r.freezeGuardCd ≤ 15) &&
  decide (1 ≤ r.freezeLinePermille) && decide (r.freezeLinePermille ≤ 1000) && decide (1 ≤ r.sigmaMin) && decide (r.sigmaMin ≤ 16383) &&
  decide (1 ≤ r.sigmaInit) && decide (r.sigmaInit ≤ 16383) && decide (r.mdProfileLimit ≤ 32767) && freezeOk c

/-- PIPE.SET_REFERENCE (R179). -/
def pipeSetReference (_ : Env) (j : Job) (c : Chip) : Reply :=
  stage 0x0502 [lenIs 24 j, param 6 (rd j.payload 6 1 < 4), reserved j.payload 9 1, reserved j.payload 20 4] j c

def execPipeSetReference (t : Nat) (mb : Fin 8) (s : State) : Host.Outcome State Fault Refusal :=
  .next (s.command 0x0502 t mb pipeSetReference)

/-- Four 16-bit fields. -/
def four (p : List Byte) (off : Nat) : List Nat := (List.range 4).map fun i => rd p (off + 2 * i) 2

/-- Thresholds of item 0 of PIPE.SET_DETECTION. -/
def bandSettings (p : List Byte) : Band := { mult := four p 8, floor := four p 16, ceiling := four p 24, planeEnable := rd p 32 1 }

/-- The plane of item 1. -/
def planeSettings (p : List Byte) : Plane :=
  { source := rd p 5 1, polarity := rd p 6 1, morphOp := rd p 7 1, morphW := rd p 8 1, morphH := rd p 9 1, level := rd p 10 2 }

/-- An entry of PIPE.SET_DETECTION takes effect. -/
def detectionApply (p : List Byte) (c : Chip) : Chip :=
  if rd p 0 1 = 0 then
    let first := rd p 4 2
    let n := rd p 6 2
    { c with det := { c.det with
      bands := ((List.range n).map fun i => (first + i, bandSettings p)) ++ c.det.bands.filter fun b => !(decide (first ≤ b.1) && decide (b.1 < first + n)) } }
  else { c with det := { c.det with planes := vset c.det.planes (rd p 4 1) (planeSettings p) } }

/-- R165 with the ranges of R180. -/
def Band.ok (b : Band) : Bool :=
  let m (i : Nat) : Nat := b.mult.getD i 0
  let f (i : Nat) : Nat := b.floor.getD i 0
  let k (i : Nat) : Nat := b.ceiling.getD i 0
  b.mult.all (fun v => decide (v ≤ 32767)) && b.floor.all (fun v => decide (v ≤ 4095)) && b.ceiling.all (fun v => decide (v ≤ 4095)) &&
  decide (m 1 ≤ m 0) && decide (f 1 ≤ f 0) && decide (k 1 ≤ k 0) && decide (m 2 ≤ m 3) && decide (f 2 ≤ f 3) && decide (k 2 ≤ k 3) &&
  (List.range 4).all fun i => decide (f i ≤ k i)

/-- Ranges of a plane definition (R168, R172, R180). -/
def Plane.ok (q : Plane) : Bool :=
  decide (q.source ≤ 8) && (if 5 ≤ q.source then decide (1 ≤ q.polarity) && decide (q.polarity ≤ 3) && decide (1 ≤ q.level) && decide (q.level ≤ 32767)
    else q.polarity == 0 && q.level == 0) &&
  (match q.morphOp with
   | 0 => true
   | 3 => [1, 3, 5].contains q.morphW && [1, 3, 5].contains q.morphH
   | _ => [1, 5].contains q.morphW && [1, 5].contains q.morphH)

/-- The unit a plane takes its source from is on (R182). -/
def planeFed (c : Chip) (q : Plane) : Bool :=
  if 5 ≤ q.source ∧ q.source ≤ 7 then (vget c.det.filters (q.source - 5)).kind != 0 else if q.source = 8 then c.det.streak.on else true

/-- R182 for PIPE.SET_DETECTION; `off` names the sources whose unit an entry of the transaction turns off: that entry is the one at
fault then. -/
def detectionValid (off : Nat → Bool) (p : List Byte) (c : Chip) : Bool :=
  if rd p 0 1 = 0 then
    let bands := if c.trig.geo.columnCount = 0 then 1024 else ceilDiv c.trig.geo.columnCount 256
    decide (rd p 4 2 ≤ 1023) && decide (1 ≤ rd p 6 2) && decide (rd p 6 2 ≤ 1024) && decide (rd p 4 2 + rd p 6 2 ≤ bands) && (bandSettings p).ok
  else
    let k := rd p 4 1
    let q := vget c.det.planes k
    decide (k ≤ 7) && (planeSettings p).ok && (!bit c.det.reference.freezeMask k || q.final) && (planeFed c q || off q.source)

/-- PIPE.SET_DETECTION (R180). -/
def pipeSetDetection (_ : Env) (j : Job) (c : Chip) : Reply :=
  let p := j.payload
  let own : List Check := match rd p 4 1 with
    | 0 => [lenIs 40 j, reserved p 5 3, reserved p 37 3]
    | 1 => [lenIs 20 j, reserved p 5 3, inRange p 9 1 0 8, inRange p 10 1 0 3, inRange p 11 1 0 3, reserved p 16 4]
    | _ => [lenOk (8 ≤ p.length), param 4 false]
  stage 0x0503 own j c

def execPipeSetDetection (t : Nat) (mb : Fin 8) (s : State) : Host.Outcome State Fault Refusal :=
  .next (s.command 0x0503 t mb pipeSetDetection)

/-- Coefficients that follow a filter request. -/
def coeffCount (kind w h : Nat) : Nat := if kind = 1 then w + h else if kind = 2 then w * h else 0

/-- The filter of a request; `p` starts after `transaction_id`. -/
def filterOf (p : List Byte) : Filter :=
  let n := coeffCount (rd p 1 1) (rd p 2 1) (rd p 3 1)
  { kind := rd p 1 1, width := rd p 2 1, height := rd p 3 1, shiftH := rd p 4 1, shiftV := rd p 5 1, coeff := (List.range n).map fun i => rdS p (8 + 2 * i) 2 }

/-- The streak settings of a request. -/
def streakOf (p : List Byte) : Streak := { on := rd p 1 1 == 1, windowLog2 := rd p 2 1, group := rd p 3 1, clip := rd p 6 2 }

/-- An entry of PIPE.SET_FILTERS takes effect; a streak detector turned off keeps its other settings. -/
def filtersApply (p : List Byte) (c : Chip) : Chip :=
  if rd p 0 1 = 3 then { c with det := { c.det with streak := if rd p 1 1 = 0 then { c.det.streak with on := false } else streakOf p } }
  else { c with det := { c.det with filters := vset c.det.filters (rd p 0 1) (if rd p 1 1 = 0 then {} else filterOf p) } }

/-- An odd size of at most m. -/
def oddUpTo (m w : Nat) : Bool := w % 2 == 1 && decide (w ≤ m)

/-- R166: what unit u has in the layout the kernels form breaks no rule: F1 and F2 are within theirs, and stay off beside a general F0 above
7 × 7. -/
def layoutOk (u : Nat) (c : Chip) : Bool :=
  let f (i : Nat) : Filter := vget c.det.filters i
  let big (x : Filter) : Bool := x.kind == 2 && (decide (7 < x.width) || decide (7 < x.height))
  match u with
  | 0 => !big (f 0) || ((f 1).kind == 0 && (f 2).kind == 0)
  | 1 => !big (f 1) && (!big (f 0) || (f 1).kind == 0)
  | _ => !big (f 2) && (f 2).kind != 1 && (!big (f 0) || (f 2).kind == 0)

/-- R182 for PIPE.SET_FILTERS; an entry that turns a unit off, or that has a part in a layout, is at fault where that setting is in force
after the transaction. -/
def filtersValid (inForce : Bool) (p : List Byte) (c : Chip) : Bool :=
  let u := rd p 0 1
  let kind := rd p 1 1
  let used := inForce && c.det.planes.toList.any fun q => if u = 3 then q.source == 8 else q.source == 5 + u
  if u = 3 then
    let s := streakOf p
    if kind = 0 then !used
    else [6, 8, 10, 12, 14, 16].contains s.windowLog2 && [1, 4, 16].contains s.group && decide (1 ≤ s.clip) && decide (s.clip ≤ 32767)
  else if kind = 0 then !used
  else
    let f := filterOf p
    (if kind = 1 then oddUpTo 15 f.width && oddUpTo 15 f.height else oddUpTo 9 f.width && oddUpTo 9 f.height) &&
    decide (f.shiftH ≤ 31) && decide (f.shiftV ≤ 31) && (!inForce || layoutOk u c)

/-- PIPE.SET_FILTERS (R181). -/
def pipeSetFilters (_ : Env) (j : Job) (c : Chip) : Reply :=
  let p := j.payload
  let u := rd p 4 1
  let kind := rd p 5 1
  let n := if u = 3 then 0 else coeffCount kind (rd p 6 1) (rd p 7 1)
  stage 0x0504
    ([lenOk (p.length == 12 + 2 * n), inRange p 4 1 0 3, param 5 (if u = 3 then kind < 2 else kind < 3)] ++
     (if u = 3 then [reserved p 8 1, reserved p 9 1] else [param 9 (kind == 1 || rd p 9 1 == 0), reserved p 10 2])) j c

def execPipeSetFilters (t : Nat) (mb : Fin 8) (s : State) : Host.Outcome State Fault Refusal :=
  .next (s.command 0x0504 t mb pipeSetFilters)

/-- The detection record (R183). DEDUCED: log entry 73. -/
def detectionRecord (c : Chip) : List Byte :=
  le 2 c.det.fd ++ le 2 (filterDelay c) ++ le 4 c.det.readyColumns ++ le 4 c.det.frozenLines ++ leS 2 c.det.profile ++
  le 2 (lineStoreBytes c) ++ le 4 c.det.sigmaFloorColumns ++ le 4 c.det.varSaturations ++ le 4 c.det.streakEvaluations ++ le 4 c.det.streakColumns

end Sys2Proof.Machine
end

