-- ==== Sys2Proof/Machine/Label.lean ====
section
/-! DEFINITION. The Carry network of chapter 7 (R184 to R196): runs, connectivity, merges, closure, segments, exhaustion and
overflow regions, and the merging of blobs across a gang boundary (R400, R406). -/
namespace Sys2Proof.Machine

/-! ### Sums of a blob (R196) -/

/-- Sum of f over a list. -/
def sumBy {α : Type} (f : α → Nat) (l : List α) : Nat := l.foldl (fun s x => s + f x) 0

/-- The flags of a line that a record reports (R198). -/
def Blob.tagFlags (b : Blob) (flags : Nat) : Blob :=
  { b with coverageReduced := b.coverageReduced || bit flags 2, timeDegraded := b.timeDegraded || bit flags 6, positionSuspect := b.positionSuspect || bit flags 0 }

/-- The blob when its next run, or its next sums, are its first on a line: sums cleared before start at that line. -/
def Blob.beginAt (b : Blob) (t : Tag) (lo hi : Nat) : Blob :=
  if b.area ≠ 0 then b
  else { b with nFirst := t.number, mdFirst := t.md, timeS := t.timeS, timeNs := t.timeNs, cMin := lo, cMax := hi, greyMin := 4095, greyMax := 0 }

/-- A blob with the pixels of a run added: `above` of them lie below a pixel of the blob, `edges` are the edge bits they set. -/
def Blob.addRun (b : Blob) (x : Stitched) (mask : List Nat) (lo hi above edges : Nat) : Blob :=
  let w := hi + 1 - lo
  let b := Blob.beginAt b x.tag lo hi
  let px := (x.columns.drop lo).take w
  let ms := (mask.drop lo).take w
  let cols := (List.range w).map (lo + ·)
  let l := x.tag.number - b.nFirst
  let sc := sumBy id cols
  Blob.tagFlags { b with
    area := b.area + w, sumC := b.sumC + sc, sumC2 := b.sumC2 + sumBy (fun k => k * k) cols, sumL := b.sumL + l * w
    sumL2 := b.sumL2 + l * l * w, sumCl := b.sumCl + l * sc, sumMd := b.sumMd + w * (x.tag.md - b.mdFirst)
    greyMin := px.foldl (fun m p => min m p.grey) b.greyMin, greyMax := px.foldl (fun m p => max m p.grey) b.greyMax
    greySum := b.greySum + sumBy (·.grey) px, planes := ms.foldl Nat.lor b.planes
    planeCount := vmapIdx (fun p k => k + sumBy (fun m => b2n (bit m p)) ms) b.planeCount
    perimeter := b.perimeter + 2 + 2 * w - 2 * above
    lanes := px.foldl (fun m p => if p.owner < 16 then setBit m p.owner true else m) b.lanes
    edges := Nat.lor b.edges edges, nLast := x.tag.number, mdLast := x.tag.md, speed := x.tag.speed, cMin := min b.cMin lo, cMax := max b.cMax hi } x.tag.flags

/-- The sums of a blob counted from an earlier first line: `d` lines and `e` wu earlier. -/
def Blob.rebase (b : Blob) (d e : Nat) : Blob :=
  { b with
    sumL := b.sumL + d * b.area, sumL2 := b.sumL2 + 2 * d * b.sumL + d * d * b.area, sumCl := b.sumCl + d * b.sumC
    sumMd := b.sumMd + e * b.area }

/-- The blob with its columns counted from `n` columns further to the left. -/
def Blob.shift (b : Blob) (n : Nat) : Blob :=
  { b with
    sumC := b.sumC + n * b.area, sumC2 := b.sumC2 + 2 * n * b.sumC + n * n * b.area, sumCl := b.sumCl + n * b.sumL
    cMin := b.cMin + n, cMax := b.cMax + n, chainColumn := b.chainColumn + n }

/-- Whether the chain of a blob began before that of another (R187). -/
def Blob.older (a b : Blob) : Bool := decide (a.chainLine < b.chainLine) || (a.chainLine == b.chainLine && decide (a.chainColumn ≤ b.chainColumn))

/-- Adds the sums of another blob (R187). -/
def Blob.plus (a b : Blob) : Blob :=
  if b.area = 0 then { a with nLast := max a.nLast b.nLast, mdLast := if a.nLast < b.nLast then b.mdLast else a.mdLast, speed := if a.nLast < b.nLast then b.speed else a.speed }
  else if a.area = 0 then
    { b with key := a.key, chainLine := a.chainLine, chainColumn := a.chainColumn, segment := a.segment, emitted := a.emitted, absorbed := a.absorbed,
             lanes := Nat.lor a.lanes b.lanes, edges := Nat.lor a.edges b.edges, exported := a.exported, imported := a.imported, lowFirst := a.lowFirst
             highFirst := a.highFirst, lowOpen := a.lowOpen, highOpen := a.highOpen }
  else
    let n := min a.nFirst b.nFirst
    let md := if b.nFirst < a.nFirst then b.mdFirst else a.mdFirst
    let x := Blob.rebase a (a.nFirst - n) (a.mdFirst - md)
    let y := Blob.rebase b (b.nFirst - n) (b.mdFirst - md)
    { a with
      area := x.area + y.area, sumC := x.sumC + y.sumC, sumC2 := x.sumC2 + y.sumC2, sumL := x.sumL + y.sumL, sumL2 := x.sumL2 + y.sumL2
      sumCl := x.sumCl + y.sumCl, sumMd := x.sumMd + y.sumMd, greyMin := min a.greyMin b.greyMin, greyMax := max a.greyMax b.greyMax
      greySum := a.greySum + b.greySum, planes := Nat.lor a.planes b.planes
      planeCount := vmapIdx (fun p k => k + vget b.planeCount p) a.planeCount, perimeter := a.perimeter + b.perimeter
      lanes := Nat.lor a.lanes b.lanes, edges := Nat.lor a.edges b.edges, nFirst := n, mdFirst := md
      timeS := if b.nFirst < a.nFirst then b.timeS else a.timeS, timeNs := if b.nFirst < a.nFirst then b.timeNs else a.timeNs
      nLast := max a.nLast b.nLast, mdLast := if a.nLast < b.nLast then b.mdLast else a.mdLast
      speed := if a.nLast < b.nLast then b.speed else a.speed, cMin := min a.cMin b.cMin, cMax := max a.cMax b.cMax, coverageReduced := a.coverageReduced || b.coverageReduced
      timeDegraded := a.timeDegraded || b.timeDegraded, positionSuspect := a.positionSuspect || b.positionSuspect }

/-- The survivor of a merge absorbs another blob (R187, R191). -/
def Blob.absorb (a b : Blob) : Blob :=
  let m := Blob.plus a b
  { m with
    absorbed := a.absorbed ++ b.absorbed ++ (if b.emitted || b.exported then [(b.chainLine, b.chainColumn, b.key)] else [])
    exported := a.exported || b.exported, imported := a.imported || b.imported
    lowFirst := match a.lowFirst, b.lowFirst with
      | some x, some y => some (min x y)
      | x, y => x.or y
    highFirst := match a.highFirst, b.highFirst with
      | some x, some y => some (min x y)
      | x, y => x.or y
    lowOpen := a.lowOpen || b.lowOpen, highOpen := a.highOpen.or b.highOpen }

/-- What is left of an open blob or region when a segment of it has been emitted (R190): a blob that touches an open boundary still
does (R406). DEDUCED: log entry 80. -/
def Blob.next (b : Blob) : Blob :=
  { key := b.key, chainLine := b.chainLine, chainColumn := b.chainColumn, segment := (b.segment + 1) % 65536, emitted := true
    nLast := b.nLast, mdLast := b.mdLast, speed := b.speed, imported := b.imported, lowFirst := b.lowFirst, highFirst := b.highFirst
    lowOpen := b.lowOpen, highOpen := b.highOpen }

/-! ### The label table -/

/-- Labels free: 65 536 less those of open blobs, a replay's among them, and of closed blobs not yet accepted (R188, R195). -/
def Carry.free (k : Carry) : Nat := 65536 - k.open_.length - k.replay.length - (k.closed.filter (·.holdsLabel)).length

/-- An open blob by its key. -/
def Carry.blob (k : Carry) (key : Nat) : Option Blob := k.open_.find? fun b => b.key == key

/-- Changes an open blob. -/
def Carry.mod (k : Carry) (key : Nat) (f : Blob → Blob) : Carry := { k with open_ := k.open_.map fun b => if b.key = key then f b else b }

/-- The runs of a line: first and last column of every maximal set of columns whose mask is not 0 (R184). -/
def runsOf : List Nat → Nat → Option Nat → List (Nat × Nat)
  | [], _, none => []
  | [], i, some a => [(a, i - 1)]
  | m :: ms, i, none => runsOf ms (i + 1) (if m = 0 then none else some i)
  | m :: ms, i, some a => if m = 0 then (a, i - 1) :: runsOf ms (i + 1) none else runsOf ms (i + 1) (some a)

/-- A line being labelled. -/
structure Labelling where
  carry : Carry
  /-- Runs of the line so far. -/
  runs : List Run := []
  /-- Labels of blobs absorbed on this line, freed at its end. -/
  absorbed : Nat := 0
  /-- Labels here of the gang neighbour's blobs. -/
  imports : List (Nat × Nat) := []
  importCount : Nat := 0
  /-- Free labels when this line began exhaustion. -/
  entered : Option Nat := none

/-- Labels free while a line is labelled. -/
def Labelling.free (x : Labelling) : Nat := x.carry.free - x.absorbed

/-- The owner of a run after blob `old` went into blob `new`. -/
def RunOwner.renamed (old new : Nat) : RunOwner → RunOwner
  | .blob k => .blob (if k = old then new else k)
  | r => r

/-- Merges two open blobs; the survivor's key (R187). -/
def Labelling.merge (x : Labelling) (k1 k2 : Nat) : Labelling × Nat :=
  match x.carry.blob k1, x.carry.blob k2 with
  | some a, some b =>
    if k1 = k2 then (x, k1)
    else
      let (s, g) := if Blob.older a b then (a, b) else (b, a)
      let rename := fun (r : Run) => { r with owner := r.owner.renamed g.key s.key }
      let c := { x.carry with open_ := (x.carry.open_.filter fun o => o.key != g.key).map (fun o => if o.key = s.key then Blob.absorb s g else o)
                              runs := x.carry.runs.map rename }
      ({ x with carry := c, runs := x.runs.map rename, absorbed := x.absorbed + 1
                imports := x.imports.map fun i => if i.2 = g.key then (i.1, s.key) else i }, s.key)
  | _, _ => (x, k1)

/-- The open blobs whose runs a run of the new line touches: 8-connectivity (R185). -/
def touched (k : Carry) (lo hi : Nat) : List Nat :=
  ((k.runs.filter fun r => decide (r.first ≤ hi + 1) && decide (lo ≤ r.last + 1)).filterMap fun r => match r.owner with
    | .blob key => if (k.blob key).isSome then some key else none
    | .region _ => none).eraseDups

/-- Pixels of a run that lie below a pixel of one blob, not counting segments already emitted. -/
def belowCount (k : Carry) (key lo hi : Nat) : Nat :=
  sumBy (fun r => if r.owner = .blob key ∧ !r.cut then min hi r.last + 1 - max lo r.first else 0) k.runs

/-- A column of a span, widened by one on each side, is invalid. -/
def invalidNear (valid : List Bool) (lo hi : Nat) : Bool := ((valid.drop (lo - 1)).take (hi + 2 - (lo - 1))).any (! ·)

/-- The new label of a blob that begins on a line. -/
def Labelling.fresh (x : Labelling) (n col : Nat) : Labelling × Nat :=
  let k := x.carry.nextKey
  ({ x with carry := { x.carry with nextKey := k + 1, open_ := x.carry.open_ ++ [{ key := k, chainLine := n, chainColumn := col }] } }, k)

/-- Changes the overflow region of a band, which begins on line n where the band has none (R192). -/
def Labelling.inRegion (x : Labelling) (band n col : Nat) (f : Blob → Blob) : Labelling :=
  let k := x.carry
  let k := if k.regions.any fun r => r.1 == band then k
    else { k with nextKey := k.nextKey + 1, regions := k.regions ++ [(band, { key := k.nextKey, chainLine := n, chainColumn := col })] }
  let k := { k with regions := k.regions.map fun r => if r.1 = band then (band, f r.2) else r }
  if k.exhausted then { x with carry := k } else { x with carry := { k with exhausted := true }, entered := x.entered.or (some x.free) }

/-- Where the boundaries of a member lie, and which of them are open (R395, R406). -/
structure Bounds where
  low : Bool
  high : Bool
  lowOpen : Bool
  highOpen : Bool
  position : Nat

/-- The boundaries of this device at line n. -/
def boundsOf (c : Chip) (n : Nat) : Bounds :=
  let on := c.gang.formed
  let p := c.gang.cfg.position
  let low := on && decide (0 < p)
  let high := on && decide (p + 1 < c.gang.cfg.size)
  { low, high, lowOpen := low && !gangBelow c n, highOpen := high && !gangAbove c n, position := p }

/-- What a run does to the boundary marks of its blob (R400, R406). -/
def Blob.atBounds (b : Blob) (g : Bounds) (count n lo hi : Nat) : Blob :=
  let b := if g.low && lo == 0 then
      let first := b.lowFirst.getD n
      { b with lowFirst := some first, lowOpen := b.lowOpen || g.lowOpen, exported := b.exported || !g.lowOpen }
    else b
  if g.high && hi + 1 == count then
    let first := b.highFirst.getD n
    { b with highFirst := some first, highOpen := if g.highOpen then b.highOpen.or (some (g.position, first)) else b.highOpen }
  else b

/-- Edge bits of a run (R196). -/
def edgeBits (g : Bounds) (valid before : List Bool) (count lo hi : Nat) : Nat :=
  packBits [lo == 0, hi + 1 == count, invalidNear valid lo hi || invalidNear before lo hi, (g.low && lo == 0) || (g.high && hi + 1 == count)]

/-- Labels one run (R187, R192). -/
def labelRun (g : Bounds) (line : Stitched) (mask : List Nat) (valid : List Bool) (x : Labelling) (lo hi : Nat) : Labelling :=
  let n := line.tag.number
  let count := line.columns.length
  let e := edgeBits g valid x.carry.lastValid count lo hi
  let add (k key : Nat) (c : Carry) : Carry :=
    let above := belowCount c key lo hi
    c.mod k fun b => Blob.atBounds (Blob.addRun b line mask lo hi above e) g count n lo hi
  match touched x.carry lo hi with
  | [] =>
    if x.carry.exhausted || decide (x.free < 256) then
      let band := lo / 4096
      let y := x.inRegion band n lo fun b => Blob.atBounds (Blob.addRun b line mask lo hi 0 e) { g with low := false, high := false } count n lo hi
      { y with runs := y.runs ++ [{ first := lo, last := hi, owner := .region band }] }
    else
      let (y, k) := x.fresh n lo
      { y with carry := add k k y.carry, runs := y.runs ++ [{ first := lo, last := hi, owner := .blob k }] }
  | key :: keys =>
    let (y, k) := keys.foldl (fun (y, k) j => y.merge k j) (x, key)
    { y with carry := add k k y.carry, runs := y.runs ++ [{ first := lo, last := hi, owner := .blob k }] }

/-! ### Blobs of the gang neighbour (R194, R400) -/

/-- Merges the sums the neighbour sent for one of its blobs, and its run in the neighbour's column 0. DESIGN CHOICE: log entry 82. -/
def importBlob (tag : Tag) (count : Nat) (x : Labelling) (e : Blob × Bool) : Labelling :=
  let (b, col0) := e
  let n := tag.number
  let sums := { (Blob.shift b count) with lanes := 0, edges := b.edges / 4 % 2 * 4 + 8, absorbed := [], nLast := n, mdLast := tag.md, speed := tag.speed }
  let known := (x.imports.find? fun i => i.1 == b.key).filter fun i => (x.carry.blob i.2).isSome
  match known, decide (x.free = 0) with
  | none, true => x.inRegion ((count - 1) / 4096) n (count - 1) fun r => { Blob.plus (Blob.beginAt r tag (count - 1) (count - 1)) sums with nLast := n, mdLast := tag.md }
  | _, _ =>
    let (x, k) := match known with
      | some i => (x, i.2)
      | none =>
        let (y, k) := x.fresh n count
        let y := { y with carry := y.carry.mod k fun o => { o with chainLine := b.chainLine, chainColumn := b.chainColumn + count } }
        ({ y with imports := y.imports ++ [(b.key, k)], importCount := y.importCount + 1 }, k)
    let x := { x with carry := x.carry.mod k fun o =>
      let o := Blob.plus o sums
      { o with imported := true, highFirst := some (o.highFirst.getD n), highOpen := o.highOpen.or b.highOpen } }
    let (x, k) := b.absorbed.foldl (fun (x, k) a => match x.imports.find? fun i => i.1 == a.2.2 with
      | some i => x.merge k i.2
      | none => (x, k)) (x, k)
    if !col0 then { x with runs := x.runs ++ [{ first := count + 2, last := count + 2, owner := .blob k }] }
    else
      let beside := (x.runs.filter fun r => r.last + 1 == count).filterMap fun r => match r.owner with
        | .blob j => some j
        | .region _ => none
      let shared := !beside.isEmpty
      let (x, k) := (touched x.carry count count ++ beside).foldl (fun (x, k) j => x.merge k j) (x, k)
      let x := if shared then { x with carry := x.carry.mod k fun o => { o with perimeter := o.perimeter - 2 } } else x
      { x with runs := x.runs ++ [{ first := count, last := count, owner := .blob k }] }

/-- A blob's sums and run as the tending-side neighbour takes them. DESIGN CHOICE: log entry 82. -/
def exchangeBytes (n : Nat) (col0 : Bool) (b : Blob) : List Byte :=
  le 8 n ++ le 4 b.key ++ le 1 (b2n col0) ++ le 1 b.absorbed.length ++ (b.absorbed.flatMap fun a => le 4 a.2.2) ++
  le 8 b.chainLine ++ le 4 b.chainColumn ++ le 5 b.area ++ le 8 b.nFirst ++ le 8 b.mdFirst ++ timeBytes b.timeS b.timeNs ++ le 8 b.sumC ++
  le 8 b.sumC2 ++ le 8 b.sumL ++ le 8 b.sumL2 ++ le 8 b.sumCl ++ le 8 b.sumMd ++ le 2 b.greyMin ++ le 2 b.greyMax ++ le 6 b.greySum ++
  le 1 b.planes ++ (b.planeCount.toList.flatMap fun k => le 5 k) ++ le 4 b.perimeter ++ le 1 b.edges ++ le 4 b.cMin ++ le 4 b.cMax ++
  le 1 (packBits [b.coverageReduced, b.timeDegraded, b.positionSuspect, b.highOpen.isSome]) ++ le 1 ((b.highOpen.map (·.1)).getD 0) ++
  le 8 ((b.highOpen.map (·.2)).getD 0)

/-! ### Closure (R188 to R193, R202, R406) -/

/-- The seam group ID of a blob that touches an open boundary; of two, the tending side's (R406). -/
def Blob.splitGroup (b : Blob) (position : Nat) : Option Nat :=
  if b.lowOpen then some ((position - 1) % 4 * 2 ^ 30 + b.lowFirst.getD b.nFirst % 2 ^ 30)
  else b.highOpen.map fun h => h.1 % 4 * 2 ^ 30 + h.2 % 2 ^ 30

/-- Closes a blob: it waits for the Abacus, unless it is too small to be reported, holds no pixel of its own any more, or its
sums have gone to the gang neighbour (R188, R202, R401). DEDUCED: log entry 80. -/
def Carry.close (k : Carry) (g : Bounds) (minArea : Nat) (partial_ : Bool) (b : Blob) : Carry × Nat :=
  let k := { k with open_ := k.open_.filter fun o => o.key != b.key }
  let split := Blob.splitGroup b g.position
  let part := partial_ || split.isSome
  if b.exported || b.area == 0 then (k, 0)
  else if !part && !b.emitted && decide (b.area < minArea) then (k, 1)
  else ({ k with closed := k.closed ++ [{ blob := b, partial_ := part, splitGroup := split }] }, 0)

/-- Counts blobs discarded as too small (R202). -/
def countSmall (n : Nat) (c : Chip) : Chip :=
  let (v, c) := satAdd 0x0705 40 0 32 c.records.smallDiscarded n c
  { c with records := { c.records with smallDiscarded := v } }

/-- EV_LABEL_SATURATED (R216). -/
def labelSaturated (state free n : Nat) (c : Chip) : Chip :=
  raise 0x0503 2 0x7F (le 1 state ++ [0] ++ le 4 free ++ le 6 n) c

/-- Blobs in the order in which they leave the label table: by leftmost column. DEDUCED: log entry 80. -/
def byColumn (bs : List Blob) : List Blob := sortBy (fun a b => decide (a.cMin ≤ b.cMin)) bs

/-- Closes several blobs. DEDUCED: log entry 80. -/
def closeBlobs (g : Bounds) (minArea : Nat) (partial_ : Bool) (bs : List Blob) (k : Carry) : Carry × Nat :=
  (byColumn bs).foldl (fun (k, d) b => let (k, x) := k.close g minArea partial_ b; (k, d + x)) (k, 0)

/-- Closes every region, with the last labelled line as its last line; each that holds a pixel leaves a dense-area record
(R193). DEDUCED: log entry 81. -/
def Carry.closeRegions (k : Carry) : Carry :=
  { k with
    exhausted := false, regions := []
    closed := k.closed ++ ((sortBy (fun a b => decide (a.1 ≤ b.1)) k.regions).filter fun r => r.2.area != 0).map fun r =>
      { blob := { r.2 with nLast := k.lastLine.getD r.2.nLast, mdLast := k.lastMd }, holdsLabel := false, dense := true } }

/-- Notes the depth of the closure FIFO. -/
def Carry.notePeaks (k : Carry) (free : Nat) : Carry :=
  { k with fifoPeak := max k.fifoPeak (min 4096 k.closed.length), minFree := min k.minFree free }

/-- Ends exhaustion: every region closes, and EV_LABEL_SATURATED with state 1 (R193). DEDUCED: log entry 81. -/
def endExhaustion (n : Nat) (c : Chip) : Chip :=
  if !c.carry.exhausted then c
  else
    let k := c.carry.closeRegions
    labelSaturated 1 k.free n { c with carry := k }

/-- Gives the blobs just closed the reference values of their centroid column, from the model entries of the line at which they close
(R218). DEDUCED: log entry 80. -/
def stampRefs (model : List ModelEntry) (r : Reference) (k : Carry) : Carry :=
  { k with closed := k.closed.map fun x =>
      if x.stamped then x
      else
        let col := if x.blob.area = 0 then 0 else (2 * x.blob.sumC + x.blob.area) / (2 * x.blob.area)
        let e := model.getD col {}
        { x with stamped := true, ref := if r.readyAt ≤ e.n then some (e.mean, e.sigma16 r.sigmaMin) else none } }

/-- Closes every open blob at its present last line as partial, and every region, under the settings of that line (R189, R309).
DEDUCED: log entry 81. -/
def closeAllBlobs (c : Chip) : Chip :=
  let x := settingsAt c (c.carry.lastLine.getD 0)
  let (k, d) := closeBlobs (boundsOf c (c.carry.lastLine.getD 0)) x.minArea true c.carry.open_ c.carry
  let c := countSmall d { c with carry := k }
  let c := endExhaustion (c.carry.lastLine.getD 0) c
  let k := stampRefs c.carry.model x.reference { c.carry with runs := [], lastLine := none, lastValid := [] }
  { c with carry := k.notePeaks k.free }

/-- The blobs that touch a boundary column close as partial and boundary-open when a gang joins (R407). -/
def closeBoundary (minArea n : Nat) (c : Chip) : Chip :=
  let g := boundsOf c n
  let mark (b : Blob) : Blob := { b with
    lowOpen := b.lowOpen || b.lowFirst.isSome, exported := false
    highOpen := b.highOpen.or (b.highFirst.map fun n => (g.position, n)) }
  let (k, d) := closeBlobs g minArea true ((c.carry.open_.filter fun b => b.lowFirst.isSome || b.highFirst.isSome).map mark) c.carry
  countSmall d { c with carry := k, gang := { c.gang with importKeys := [] } }

/-- Segments of the blobs and regions that have reached Ls lines (R190, R193), with the marks of an open boundary (R406). -/
def Carry.emitSegments (k : Carry) (g : Bounds) (n ls : Nat) : Carry :=
  let due (b : Blob) : Bool := b.area != 0 && !b.exported && decide (ls ≤ n + 1 - b.nFirst)
  let bs := byColumn (k.open_.filter due)
  let rs := (sortBy (fun a b => decide (a.1 ≤ b.1)) k.regions).filter fun r => due r.2
  { k with
    closed := k.closed ++ (bs.map fun b =>
        let split := Blob.splitGroup b g.position
        ({ blob := b, holdsLabel := false, continuation := true, partial_ := split.isSome, splitGroup := split } : Closed)) ++
      rs.map fun r => { blob := { r.2 with nLast := n, mdLast := k.lastMd }, holdsLabel := false, dense := true, continuation := true }
    open_ := k.open_.map fun b => if due b then Blob.next b else b
    regions := k.regions.map fun r => if due r.2 then (r.1, Blob.next r.2) else r
    runs := k.runs.map fun r => match r.owner with
      | .blob key => if bs.any fun b => b.key == key then { r with cut := true } else r
      | .region _ => r }

/-- The neighbour's side of a boundary: blobs exported or imported stop being so where the boundary is open (R406). -/
def Blob.atSplit (b : Blob) (g : Bounds) : Blob :=
  let b := if b.exported && g.lowOpen then { b with exported := false, lowOpen := true } else b
  if b.imported && g.highOpen then { b with imported := false, highOpen := b.highOpen.or (some (g.position, b.highFirst.getD b.nFirst)) } else b

/-- The blobs of the line before, seen from a new line: an invalid pixel beside one of their pixels (R196 bit 2). -/
def Carry.lookBelow (k : Carry) (valid : List Bool) : Carry :=
  k.runs.foldl (fun k r =>
    if r.cut || !invalidNear valid r.first r.last then k
    else match r.owner with
      | .blob key => k.mod key fun b => { b with edges := Nat.lor b.edges 4 }
      | .region band => { k with regions := k.regions.map fun x => if x.1 = band then (band, { x.2 with edges := Nat.lor x.2.edges 4 }) else x }) k

/-- Sends the sums of the exported blobs that have a run on the line, and clears them here (R400, R402). DESIGN CHOICE: log entry 82. -/
def exportBlobs (n : Nat) (c : Chip) : Chip :=
  let live := c.carry.open_.filter fun b => b.exported && b.nLast == n
  let col0 (b : Blob) : Bool := c.carry.runs.any fun r => r.first == 0 && r.owner == .blob b.key
  let c := live.foldl (fun c b => emit (.sarec (c.gang.portBelow.getD 0) 2 (exchangeBytes n (col0 b) b)) c) c
  { c with carry := { c.carry with open_ := c.carry.open_.map fun b => if b.exported && b.nLast == n then
      { key := b.key, chainLine := b.chainLine, chainColumn := b.chainColumn, exported := true, nLast := n, mdLast := b.mdLast, lowFirst := b.lowFirst,
        highFirst := b.highFirst, imported := b.imported } else b } }

/-- Labels one mask line under given settings (R184 to R194): the whole work of the Carry network on it. -/
def labelMask (x : Settings) (m : MaskLine) (c : Chip) : Chip :=
  let n := m.line.tag.number
  let g := boundsOf c n
  let grid := (x.geo.cdPitch, x.geo.column0, x.geo.columnCount)
  let c := if c.carry.lastLine.isSome && c.carry.grid != grid then closeAllBlobs c else c
  let c := if c.gang.state == .joined && n == c.gang.joinTrigger && c.gang.splits != 0 then closeBoundary x.minArea n c else c
  let c := if c.carry.exhausted && decide (1024 < c.carry.free) then endExhaustion n c else c
  let valid := m.line.columns.map (·.valid)
  let mask := m.mask.map fun v => Nat.land v x.planeSelect
  let k := { (c.carry.lookBelow valid) with open_ := (c.carry.lookBelow valid).open_.map fun b => Blob.atSplit b g }
  let start : Labelling := { carry := k, imports := c.gang.importKeys }
  let lb := (runsOf mask 0 none).foldl (fun y r => labelRun g m.line mask valid y r.1 r.2) start
  let sent := ((c.gang.exchange.find? fun e => e.1 == n).map (·.2)).getD []
  let lb := sent.foldl (importBlob m.line.tag m.line.columns.length) lb
  let freeNow := lb.free
  let live := lb.runs.filterMap fun r => match r.owner with
    | .blob key => some key
    | .region _ => none
  let gone := lb.carry.open_.filter fun b => !live.contains b.key
  let (k, d) := closeBlobs g x.minArea false gone lb.carry
  let k := { k with
    runs := lb.runs, lastLine := some n, lastMd := m.line.tag.md, grid, lastValid := valid, model := m.model
    regions := k.regions.map fun (r : Nat × Blob) => (r.1, Blob.tagFlags r.2 m.line.tag.flags) }
  let k := (k.emitSegments g n (2 ^ x.segmentLinesLog2)).notePeaks (min freeNow k.free)
  let (imports, c) := satAdd 0x0F01 28 0 32 c.gang.imports lb.importCount c
  let c := { c with
    carry := stampRefs m.model x.reference { k with freeAtLine := k.free }
    gang := { c.gang with imports, importKeys := lb.imports, exchange := c.gang.exchange.filter (fun e => decide (n < e.1)) } }
  let c := countSmall d c
  let c := match lb.entered with
    | some free =>
      let (v, c) := satAdd 0x0705 8 0 32 c.carry.exhaustionEntries 1 c
      labelSaturated 0 free n { c with carry := { c.carry with exhaustionEntries := v } }
    | none => c
  exportBlobs n c

/-- The Carry network takes the oldest mask line, once the drive-side neighbour has sent its part where the members exchange
runs (R184, R400). -/
def labelLine (c : Chip) : Chip :=
  match c.det.out with
  | [] => c
  | m :: rest =>
    let n := m.line.tag.number
    if !pipelineRuns c || (gangAbove c n && !c.gang.exchange.any fun e => e.1 == n) then c
    else pruneOlder (labelMask (settingsAt c n) m { c with det := { c.det with out := rest } })

end Sys2Proof.Machine
end

