-- ==== Sys2Proof/Machine/Records.lean ====
section
/-! DEFINITION. The defect record, the record queue and ring, and tiles (R196 to R214). -/
namespace Sys2Proof.Machine

/-! ### The record (R196 to R199) -/

/-- floor((2a + b) / 2b): a quotient, halves rounded up; 0 for b = 0. -/
def roundedQuot (a : Int) (b : Nat) : Int := if b = 0 then 0 else (2 * a + b) / (2 * b : Nat)

/-- The exact second moments (A·Σxy − Σx·Σy) / A² (R196). -/
def moment (area xy x y : Nat) : Rat := if area = 0 then 0 else (((area * xy : Nat) : Int) - (x * y : Nat) : Rat) / ((area * area : Nat) : Rat)

def Blob.mcc (b : Blob) : Rat := moment b.area b.sumC2 b.sumC b.sumC
def Blob.mll (b : Blob) : Rat := moment b.area b.sumL2 b.sumL b.sumL
def Blob.mcl (b : Blob) : Rat := moment b.area b.sumCl b.sumC b.sumL

/-- Coverage-reduced, as R198 bit 4 has it. -/
def Blob.reduced (b : Blob) : Bool := b.coverageReduced || bit b.edges 2

/-- Flags of a record but for late-mark and tile-late (R198). -/
def Closed.flags (k : Closed) (merged : Bool) : Nat :=
  let b := k.blob
  packBits [k.splitGroup.isSome, k.dense, k.continuation, k.partial_ && !k.dense, Blob.reduced b, false, b.replayed, false, b.timeDegraded, b.positionSuspect, merged]

/-- What a record holds beside the sums of its blob. -/
structure RecordInfo where
  id : Nat
  cls : Nat := 0
  confidence : Nat := 0
  flags : Nat
  tileRef : Nat := 0
  roll : Nat × Nat := (0, 0)
  chainId : Nat
  auxId : Nat := 0

/-- The 128 bytes of a record (R197), or of a dense-area record (R199). -/
def recordBytes (k : Closed) (g : Geometry) (r : RecordInfo) : List Byte :=
  let b := k.blob
  let cd (col : Nat) : Int := g.column0 + (col * g.cdPitch : Nat)
  let only (v : Nat) : Nat := if k.dense then 0 else v
  le 8 r.id ++ timeBytes b.timeS b.timeNs ++ le 1 r.cls ++ le 1 r.confidence ++ le 2 r.flags ++ le 2 (only b.lanes) ++ le 8 b.mdFirst ++
  le 6 (b.mdLast - b.mdFirst) ++ le 6 (only (roundedQuot b.sumMd b.area).toNat) ++ leS 4 (cd b.cMin) ++ leS 4 (cd b.cMax) ++
  (if k.dense then zeros 4 else leS 4 (g.column0 + roundedQuot (g.cdPitch * b.sumC : Nat) b.area)) ++
  le 2 (satU 16 (b.nLast - b.nFirst)) ++ le 2 b.segment ++ le 5 b.area ++ le 1 b.planes ++ le 1 (only b.edges) ++
  le 3 (only (b.greyMin + 4096 * b.greyMax)) ++ le 6 (only b.greySum) ++ le 4 (only (satU 32 b.perimeter)) ++
  le 4 (only (F32.round (Blob.mcc b)).bits) ++ le 4 (only (F32.round (Blob.mll b)).bits) ++ le 4 (only (F32.round (Blob.mcl b)).bits) ++
  (b.planeCount.toList.flatMap fun n => le 2 (satU 16 n)) ++ le 4 r.tileRef ++ le 4 r.roll.1 ++ le 4 r.roll.2 ++ le 4 r.chainId ++ le 4 r.auxId

/-- The 128 bytes of a gap record (R199): `r` is the first dropped record, with the largest MD of those dropped. DEDUCED: log entry 85. -/
def gapBytes (r : Rec) : List Byte :=
  le 8 r.id ++ (r.data.drop 8).take 10 ++ zeros 2 ++ le 2 128 ++ zeros 2 ++ le 8 r.mdFirst ++ le 6 (r.mdLast - r.mdFirst) ++ zeros 22 ++
  le 5 r.gap ++ zeros 63

/-! ### The queue and the ring (R203 to R206) -/

/-- Records the on-chip queue holds (R204). -/
abbrev recordQueueSize : Nat := 32768

/-- A record is dropped and counted in the pending gap record (R205). DEDUCED: log entry 85. -/
def dropRecord (r : Rec) (c : Chip) : Chip :=
  let (n, c) := satAdd 0x0705 24 0 32 c.records.droppedTotal 1 c
  let g := match c.records.gap with
    | none => { r with gap := 1, tile := 0 }
    | some g => { g with gap := g.gap + 1, mdLast := max g.mdLast r.mdLast }
  { c with records := { c.records with gap := some g, droppedTotal := n } }

/-- A record enters the queue, or is dropped (R205). -/
def pushRecord (r : Rec) (c : Chip) : Chip :=
  let q := c.records
  let c := { c with life := { c.life with recordsLastS := c.life.recordsLastS + 1 }, records := { q with emitted := wrapU 64 (q.emitted + 1) } }
  if recordQueueSize ≤ q.queue.length ∨ q.gap.isSome then dropRecord r c
  else { c with records := { c.records with queue := q.queue ++ [r], queuePeak := max q.queuePeak (q.queue.length + 1) } }

/-- The pending gap record takes a slot that is free (R205). DEDUCED: log entry 85. -/
def placeGap (c : Chip) : Chip :=
  match c.records.gap with
  | none => c
  | some g =>
    if recordQueueSize ≤ c.records.queue.length then c
    else
      let (n, c) := satAdd 0x0705 28 0 32 c.records.gapRecords 1 c
      { c with records := { c.records with gapRecords := n, gap := none, queue := c.records.queue ++ [{ g with data := gapBytes g }] } }

/-- The tile of a record still has to be written before it: one cut from the line store, its ring enabled (R209). DEDUCED: log entry 83. -/
def waitsForTile (c : Chip) (r : Rec) : Bool :=
  r.tile != 0 && c.tiles.ring.enabled && c.tiles.jobs.any fun j => j.ref == r.tile && !j.fromLookback

/-- RECORD_RING_WRITE: the oldest record goes to the host ring; EV_RECORDS_DROPPED where it is a gap record (R203 to R206). -/
def recordRingWrite (c : Chip) : Chip :=
  match c.records.queue with
  | [] => c
  | r :: rest =>
    if !c.records.ring.enabled || c.records.ring.full || !hostWrites c || waitsForTile c r then c
    else
      let c := placeGap { c with records := { c.records with queue := rest } }
      let (ring, c) := ringPut c.records.ring r.data c.records.queue.length c.records.droppedTotal c
      let c := { c with records := { c.records with ring } }
      if r.gap = 0 then c else raise 0x0504 3 0x7F (le 4 r.gap ++ le 8 r.id) c

def execRecordRingWrite (t : Nat) (s : State) : Host.Outcome State Fault Refusal :=
  .next (s.run t fun _ c => recordRingWrite c)

/-! ### Tiles (R207 to R210) -/

/-- The size of a tile: the least power of two from `tile_min` to `tile_max` that holds E, else `tile_max` (R207); true where it
is too small. -/
def tileSize (t : TileCfg) (e : Nat) : Nat × Bool :=
  match ([16, 32, 64, 128, 256, 512].filter fun s => decide (t.tileMin ≤ s) && decide (s ≤ t.tileMax) && decide (e ≤ s)).head? with
  | some s => (s, false)
  | none => (t.tileMax, true)

/-- A record of the Carry network gets a tile (R207). -/
def wantsTile (t : TileCfg) (k : Closed) : Bool :=
  t.enable && !k.dense && k.blob.segment == 0 && !k.blob.emitted && !k.blob.replayed && Nat.land k.blob.planes t.planes != 0 && decide (t.minArea ≤ k.blob.area)

/-- The tile ref after a given one (R208). -/
def nextTileRef (r : Nat) : Nat := if r = 0xFFFFFFFF then 1 else r + 1

/-- A tile slot is free (R208). -/
def tileSlotFree (c : Chip) : Bool := c.tiles.ring.enabled && decide (c.tiles.ring.used + c.tiles.jobs.length < c.tiles.ring.entryCount)

/-- The square of pixels of a tile from the line store, top line first (R208, R209). DEDUCED: log entry 83. -/
def cutTile (c : Chip) (deep : Bool) (c0 n0 : Int) (size : Nat) : List (Option Nat) :=
  (List.range size).flatMap fun (i : Nat) =>
    let line := c.perg.recent.find? fun x => (x.tag.number : Int) == n0 + i
    (List.range size).map fun (j : Nat) =>
      let col := c0 + j
      if col < 0 then none
      else match line.bind fun x => x.columns[col.toNat]? with
        | some p => if p.valid then some (if deep then p.grey else p.grey / 16 * 16) else none
        | none => none

/-- Reserves the tile of a record: its reference, whether it comes late, and the device after it (R207, R208). DEDUCED: log entry 83. -/
def reserveTile (x : Settings) (k : Closed) (id : Nat) (c : Chip) : Nat × Bool × Chip :=
  let t := x.tiles
  if !wantsTile t k then (0, false, c)
  else
    let b := k.blob
    let (size, big) := tileSize t (max (b.cMax - b.cMin + 1) (b.nLast - b.nFirst + 1) + 2 * t.margin)
    let c0 : Int := ((b.cMin + b.cMax + 1) / 2 : Nat) - (size / 2 : Nat)
    let n0 : Int := ((b.nFirst + b.nLast + 1) / 2 : Nat) - (size / 2 : Nat)
    let nh : Int := min (b.nLast + 1 + x.fd) (c.perg.next - 1)
    let stored := decide (nh - t.historyLines + 1 ≤ n0) && decide (n0 + size - 1 ≤ nh)
    if !stored && !(t.lookback && c.orangery.enable) then
      let (n, c) := satAdd 0x0705 52 0 32 c.tiles.unavailable 1 c
      (0, false, { c with tiles := { c.tiles with unavailable := n } })
    else if !tileSlotFree c then
      let (n, c) := satAdd 0x0705 48 0 32 c.tiles.lost 1 c
      (0, false, { c with tiles := { c.tiles with lost := n } })
    else
      let (free, c) := freeNat c
      let md := ((c.perg.recent.find? fun y => (y.tag.number : Int) == n0).map (·.tag.md)).getD (free % 2 ^ 64)
      let job : TileJob := { ref := c.tiles.nextRef, defect := id, size, c0, n0, oversize := big, fromLookback := !stored
                             pixels := if stored then cutTile c t.deep c0 n0 size else [], mdTop := md
                             reduced := stored && !t.deep && t.format == 1, format := t.format, level := t.compress, cdPitch := x.geo.cdPitch
                             column0 := x.geo.column0, columnCount := x.geo.columnCount }
      (job.ref, !stored, { c with tiles := { c.tiles with jobs := c.tiles.jobs ++ [job], nextRef := nextTileRef job.ref } })

/-- The slot of a tile: header and payload (R209, R210). -/
def tileBytes (j : TileJob) (found : Bool) : List Byte :=
  let raw := if found then j.pixels.flatMap (pixelBytes j.format false) else []
  let payload := if found ∧ j.level ≠ 0 then deflate 1 j.level false raw else raw
  let clipped := decide (j.c0 < 0) || decide ((j.columnCount : Int) < j.c0 + j.size)
  let flags := packBits [found && j.level != 0, clipped, j.oversize, j.reduced, j.fromLookback]
  le 4 j.ref ++ le 2 (b2n !found) ++ le 2 flags ++ le 8 j.defect ++ le 8 j.mdTop ++ leS 4 (j.column0 + j.c0 * j.cdPitch) ++ le 2 j.size ++
  le 1 j.format ++ [0] ++ le 4 payload.length ++ leS 4 j.c0 ++ leS 8 j.n0 ++ zeros 16 ++ payload

/-- Writes the oldest reserved slot (R209). -/
def writeTile (j : TileJob) (found : Bool) (c : Chip) : Chip :=
  let c := { c with tiles := { c.tiles with jobs := c.tiles.jobs.drop 1 } }
  let (ring, c) := ringPut c.tiles.ring (tileBytes j found) c.tiles.jobs.length c.tiles.lost c
  let (n, c) := satAdd 0x0705 (if found then 44 else 56) 0 32 (if found then c.tiles.written else c.tiles.notFound) 1 c
  if found then { c with tiles := { c.tiles with ring, written := n } } else { c with tiles := { c.tiles with ring, notFound := n } }

/-- The tile ring takes a slot now. -/
def tileRingOpen (c : Chip) : Bool := c.tiles.ring.enabled && !c.tiles.ring.full && hostWrites c

/-- A compression engine runs no job: 0 to 3 are the Window engines, 4 the job coder (R292). -/
def engineFree (c : Chip) (e : Nat) : Bool := !(c.zip.jobs.any fun x => x.state == 1 && x.engine == e)

/-- A tile that is to be compressed has a Window engine (R209, R292). -/
def tileEngine (c : Chip) (j : TileJob) : Bool := j.level == 0 || [0, 1, 2, 3].any (engineFree c)

/-- The oldest reserved slot is to be written with a compressed tile: it takes a free Window engine before any queued job (R292). -/
def tileCompresses (c : Chip) : Bool := tileRingOpen c && (c.tiles.jobs.head?.map fun j => j.level != 0).getD false

/-- TILE_WRITE: the oldest reserved slot, where it was cut from the line store. -/
def tileWrite (c : Chip) : Chip :=
  match c.tiles.jobs with
  | [] => c
  | j :: _ => if j.fromLookback || !tileRingOpen c || !tileEngine c j then c else writeTile j true c

def execTileWrite (t : Nat) (s : State) : Host.Outcome State Fault Refusal :=
  .next (s.run t fun _ c => tileWrite c)

/-! ### PIPE.SET_LABELLING and PIPE.SET_TILES (R211 to R213) -/

/-- An entry of PIPE.SET_LABELLING takes effect. -/
def labellingApply (p : List Byte) (c : Chip) : Chip :=
  { c with carry := { c.carry with planeSelect := rd p 0 1, segmentLinesLog2 := rd p 1 1, minArea := rd p 4 4 } }

/-- R213 for PIPE.SET_LABELLING. -/
def labellingValid (p : List Byte) : Bool := decide (8 ≤ rd p 1 1) && decide (rd p 1 1 ≤ 16) && rd p 4 4 != 0

def pipeSetLabelling (_ : Env) (j : Job) (c : Chip) : Reply :=
  stage 0x0505 [lenIs 16 j, reserved j.payload 6 2, reserved j.payload 12 4] j c

def execPipeSetLabelling (t : Nat) (mb : Fin 8) (s : State) : Host.Outcome State Fault Refusal :=
  .next (s.command 0x0505 t mb pipeSetLabelling)

/-- The settings of PIPE.SET_TILES; `p` starts after `transaction_id`. -/
def tilesOf (p : List Byte) : TileCfg :=
  let f := rd p 0 1
  { enable := bit f 0, lookback := bit f 1, deep := bit f 2, format := rd p 1 1, compress := rd p 2 1, historyLines := rd p 3 1
    tileMin := rd p 4 2, tileMax := rd p 6 2, margin := rd p 8 1, planes := rd p 9 1, minArea := rd p 12 4 }

/-- An entry of PIPE.SET_TILES takes effect. -/
def tilesApply (p : List Byte) (c : Chip) : Chip := { c with tiles := { c.tiles with cfg := tilesOf p } }

/-- The slot a tile configuration needs (R213). DEDUCED: log entry 83. -/
def slotNeeded (t : TileCfg) : Nat :=
  let b := t.tileMax * t.tileMax * (t.format + 1)
  64 + (if t.compress = 0 then b else b + 5 * max 1 (ceilDiv b 65535) + 6)

/-- R213 for PIPE.SET_TILES. DEDUCED: log entry 83. -/
def tilesValid (p : List Byte) (c : Chip) : Bool :=
  let t := tilesOf p
  let size (v : Nat) : Bool := [16, 32, 64, 128, 256, 512].contains v
  decide (t.compress ≤ 4) && size t.tileMin && size t.tileMax && decide (t.tileMin ≤ t.tileMax) && decide (t.margin ≤ 64) &&
  (!c.tiles.ring.enabled || decide (slotNeeded c.tiles.cfg ≤ c.tiles.ring.entrySize))

/-- PIPE.SET_TILES: `compress` counts as a range, judged at commit (R303). DESIGN CHOICE: log entry 258. -/
def pipeSetTiles (_ : Env) (j : Job) (c : Chip) : Reply :=
  let p := j.payload
  stage 0x0508 [lenIs 24 j, param 4 (rd p 4 1 < 8), inRange p 5 1 0 1, reserved p 14 2, reserved p 20 4] j c

def execPipeSetTiles (t : Nat) (mb : Fin 8) (s : State) : Host.Outcome State Fault Refusal :=
  .next (s.command 0x0508 t mb pipeSetTiles)

/-! ### OUT.SET_RECORD_RING and OUT.SET_TILE_RING (R214, R595) -/

/-- The field checks the two commands share. -/
def outRingFields (j : Job) (lo hi : Nat) (slot : List Check) : List Check :=
  let p := j.payload
  [lenIs 32 j, param 0 (rd p 0 1 < 2), inRange p 1 1 0 7, inRange p 4 2 0 10000, reserved p 6 2,
   param 8 (isPow2 (rd p 8 4) && decide (lo ≤ rd p 8 4) && decide (rd p 8 4 ≤ hi))] ++ slot ++
  [param 16 (rd p 16 8 % 4096 == 0), param 24 (rd p 24 8 % 32 == 0)]

def outSetRecordRing (_ : Env) (j : Job) (c : Chip) : Reply :=
  let p := j.payload
  let enable := bit (rd p 0 1) 0
  let old := c.records.ring
  let new := ringAt p 128
  checked (outRingFields j 1024 4194304 [reserved p 12 4] ++ ringChecks c old enable new 1) c
    (let c := ringChannel old enable new 1 { c with records := { c.records with ring := old.change enable new } }
     replyBody (le 4 c.records.ring.head ++ le 4 c.records.queue.length) c)

def execOutSetRecordRing (t : Nat) (mb : Fin 8) (s : State) : Host.Outcome State Fault Refusal :=
  .next (s.command 0x0700 t mb outSetRecordRing)

def outSetTileRing (_ : Env) (j : Job) (c : Chip) : Reply :=
  let p := j.payload
  let enable := bit (rd p 0 1) 0
  let old := c.tiles.ring
  let new := ringAt p (rd p 12 4)
  let slot := param 12 (rd p 12 4 % 4096 == 0 && decide (slotNeeded c.tiles.cfg ≤ rd p 12 4))
  checked (outRingFields j 16 65536 [slot] ++ ringChecks c old enable new 2) c
    (let c := ringChannel old enable new 2 { c with tiles := { c.tiles with ring := old.change enable new } }
     replyBody (le 4 c.tiles.ring.head ++ le 4 c.tiles.jobs.length) c)

def execOutSetTileRing (t : Nat) (mb : Fin 8) (s : State) : Host.Outcome State Fault Refusal :=
  .next (s.command 0x0701 t mb outSetTileRing)

/-! ### The labelling record (R215) -/

def labellingRecord (c : Chip) : List Byte :=
  let k := c.carry
  le 4 k.freeAtLine ++ le 4 (min k.minFree k.free) ++ le 4 k.exhaustionEntries ++ le 4 k.denseRecords ++ le 8 c.records.emitted ++
  le 4 c.records.droppedTotal ++ le 4 c.records.gapRecords ++ le 4 c.records.queue.length ++ le 4 c.records.queuePeak ++
  le 4 c.records.smallDiscarded ++ le 4 c.tiles.written ++ le 4 c.tiles.lost ++ le 4 c.tiles.unavailable ++ le 4 c.tiles.notFound ++ le 4 k.fifoPeak

/-- The figures that restart at each read (R215). -/
def labellingRead (c : Chip) : Chip :=
  { c with
    carry := { c.carry with minFree := c.carry.free, fifoPeak := min 4096 c.carry.closed.length }
    records := { c.records with queuePeak := c.records.queue.length } }

end Sys2Proof.Machine
end

