-- ==== Sys2Proof/Machine/Classify.lean ====
section
/-! DEFINITION. The Abacus of chapter 8 (R217 to R228): features, rule forests, the model container and its loading. -/
namespace Sys2Proof.Machine

/-! ### Features (R218, R219) -/

/-- The centroid column of a blob (R218). -/
def Blob.centroid (b : Blob) : Nat := if b.area = 0 then 0 else (2 * b.sumC + b.area) / (2 * b.area)

/-- A quotient, 0 where the divisor is 0. -/
def ratio (a b : Rat) : Rat := if b = 0 then 0 else a / b

/-- The exact features 0 to 39 of a blob record (R218). -/
def features (k : Closed) (g : Geometry) : List Rat :=
  let b := k.blob
  let lines : Rat := (b.nLast - b.nFirst + 1 : Nat)
  let cols : Rat := (b.cMax - b.cMin + 1 : Nat)
  let area : Rat := b.area
  let cc := Blob.mcc b
  let ll := Blob.mll b
  let cl := Blob.mcl b
  let root := ratSqrt (((cc - ll) / 2) * ((cc - ll) / 2) + cl * cl)
  let major := (cc + ll) / 2 + root
  let minor := (cc + ll) / 2 - root
  let per : Rat := satU 32 b.perimeter
  let mean := ratio b.greySum area
  let refMean : Rat := (k.ref.map fun r => (r.1 : Rat) / 4096).getD 0
  let refSigma : Rat := (k.ref.map fun r => (r.2 : Rat) / 16).getD 0
  let contrast := if k.ref.isSome then mean - refMean else 0
  let cd : Int := g.column0 + roundedQuot (g.cdPitch * b.sumC : Nat) b.area
  let one (x : Bool) : Rat := (b2n x : Nat)
  [area, lines, cols, ((b.mdLast - b.mdFirst : Nat) : Rat) / 16, cols * g.cdPitch / 16, ratio area (lines * cols), cc, ll, cl, major, minor,
   ratio (major + 1 / 12) (minor + 1 / 12), atan2Degrees (2 * cl) (cc - ll) / 2, per, ratio (per * per) area, (b.greyMin : Rat), (b.greyMax : Rat), mean,
   (b.greyMax : Rat) - (b.greyMin : Rat), refMean, refSigma, contrast, ratio contrast refSigma] ++
  (b.planeCount.toList.map fun n => ((satU 16 n : Nat) : Rat)) ++
  [(b.planes : Rat), (b.edges : Rat), ((popcount 16 b.lanes : Nat) : Rat), (cd : Rat) / 16000, (b.speed : Rat) / 1000000, (b.segment : Rat), one k.partial_,
   one k.continuation, one (Blob.reduced b)]

/-- One derived feature appended (R219): `d` is its 8-byte entry. -/
def derive (fs : List F32) (d : List Byte) : List F32 :=
  let a := fs.getD (rd d 1 1) (.fin 0)
  let b := fs.getD (rd d 2 1) (.fin 0)
  let t := match rd d 0 1 with
    | 0 => a.add b
    | 1 => a.sub b
    | 2 => a.mul b
    | _ => a.div b
  fs ++ [(F32.ofBits (rd d 4 4)).mul t]

/-! ### The model container (R222 to R224) -/

/-- Fields of a container's header. -/
def treeCount (h : List Byte) : Nat := rd h 8 1
def derivedCount (h : List Byte) : Nat := rd h 9 1
def nodeCount (h : List Byte) : Nat := rd h 12 4
def bodyLength (h : List Byte) : Nat := rd h 16 4

/-- Length of the tree table. -/
def treeTable (h : List Byte) : Nat := 8 * ceilDiv (treeCount h) 2

/-- R222: every header field lies in its range. DEDUCED: log entry 90. -/
def headerOk (h : List Byte) : Bool :=
  let enc := rd h 6 1
  decide (64 ≤ h.length) && rd h 0 4 == 0x4D434241 && rd h 4 2 == 1 && decide (enc < 2) && decide (rd h 7 1 < 8) && (enc == 1 || rd h 7 1 == 0) &&
  decide (1 ≤ treeCount h) && decide (treeCount h ≤ 64) && decide (derivedCount h ≤ 8) && rd h 11 1 == 0 &&
  decide (1 ≤ nodeCount h) && decide (nodeCount h ≤ 131008) && bodyLength h == treeTable h + 8 * derivedCount h + 8 * nodeCount h &&
  rd h 20 4 != 0 && (enc == 1 || (rd h 24 12 == 0 && rd h 48 16 == 0)) && rd h 36 12 == 0

/-- Entry i of a tree table: root and node count. -/
def treeEntry (body : List Byte) (i : Nat) : Nat × Nat := (bits (rd body (4 * i) 4) 0 18, bits (rd body (4 * i) 4) 18 11)

/-- Node i of a tree: its 8 bytes; `base` is where the tree's root stands in the body. -/
def nodeAt (body : List Byte) (base i : Nat) : List Byte := sliceB body (base + 8 * i) 8

/-- The nodes of a tree as they are reached from node i, at most `depth` levels further down; none where the tree breaks R224. -/
def walkTree (body : List Byte) (base count feats : Nat) : Nat → Nat → Option (List Nat)
  | 0, _ => none
  | depth + 1, i =>
    let n := nodeAt body base i
    let b0 := rd n 0 1
    if bit b0 7 then (if b0 = 128 ∧ rd n 4 4 = 0 then some [i] else none)
    else
      let left := rd n 2 2
      if bit b0 6 ∨ rd n 1 1 ≠ 0 ∨ feats ≤ b0 ∨ isNan (rd n 4 4) ∨ left ≤ i ∨ count ≤ left + 1 then none
      else match walkTree body base count feats depth left, walkTree body base count feats depth (left + 1) with
        | some x, some y => some (i :: (x ++ y))
        | _, _ => none

/-- Where the node array begins in the body. -/
def nodeBase (h : List Byte) : Nat := treeTable h + 8 * derivedCount h

/-- R224 for one tree: its nodes lie in the array, and each is reached from the root exactly once. -/
def treeOk (h body : List Byte) (i : Nat) : Bool :=
  let (root, n) := treeEntry body i
  rd body (4 * i) 4 / 2 ^ 29 == 0 && decide (1 ≤ n) && decide (n ≤ 2047) && decide (root + n ≤ nodeCount h) &&
  (match walkTree body (nodeBase h + 8 * root) n (40 + derivedCount h) 11 0 with
   | some xs => (sortBy (fun a b => decide (a ≤ b)) xs) == List.range n
   | none => false)

/-- R224: no two trees share a node, and no node lies outside every tree. -/
def treesApart (h body : List Byte) : Bool :=
  let spans := sortBy (fun a b => decide (a.1 ≤ b.1)) ((List.range (treeCount h)).map (treeEntry body))
  (spans.foldl (fun (acc : Bool × Nat) s => (acc.1 && acc.2 == s.1, s.1 + s.2)) (true, 0)) == (true, nodeCount h)

/-- R224 for the derived features. -/
def derivedOk (h body : List Byte) : Bool :=
  (List.range (derivedCount h)).all fun k =>
    let d := sliceB body (treeTable h + 8 * k) 8
    decide (rd d 0 1 ≤ 3) && decide (rd d 1 1 < 40 + k) && decide (rd d 2 1 < 40 + k) && rd d 3 1 == 0 && !isNan (rd d 4 4)

/-- R223 and R224 for a plaintext body. DEDUCED: log entry 90. -/
def bodyOk (h body : List Byte) : Bool :=
  body.length == bodyLength h && (treeCount h % 2 == 0 || rd body (4 * treeCount h) 4 == 0) && derivedOk h body &&
  (List.range (treeCount h)).all (treeOk h body) && treesApart h body

/-! ### Classification (R220) -/

/-- The leaf a record reaches in a tree: class and weight. -/
def leafOf (body : List Byte) (base : Nat) (fs : List F32) : Nat → Nat → Nat × Nat
  | 0, _ => (0, 0)
  | depth + 1, i =>
    let n := nodeAt body base i
    if bit (rd n 0 1) 7 then (rd n 1 1, rd n 2 2)
    else leafOf body base fs depth (if (fs.getD (bits (rd n 0 1) 0 6) (.fin 0)).lt (F32.ofBits (rd n 4 4)) then rd n 2 2 else rd n 2 2 + 1)

/-- Class, confidence, and whether the default class was the outcome (R220). -/
def Model.classify (m : Model) (fs : List Rat) : Nat × Nat × Bool :=
  let h := m.container
  let f := (List.range (derivedCount h)).foldl (fun f k => derive f (sliceB m.body (treeTable h + 8 * k) 8)) (fs.map F32.round)
  let votes := (List.range (treeCount h)).map fun t => leafOf m.body (nodeBase h + 8 * (treeEntry m.body t).1) f 11 0
  let s (k : Nat) : Nat := sumBy (fun v => if v.1 = k then v.2 else 0) votes
  let total := sumBy (·.2) votes
  if total = 0 then (rd h 10 1, 0, true)
  else
    let top := maxOf ((List.range 256).map s)
    let k := ((List.range 256).find? fun k => s k == top).getD 0
    (k, 255 * s k / total, false)

/-- An old model has still records to classify: settings from before its replacement are still in use (R228). DEDUCED: log entry 97. -/
def modelDrains (c : Chip) : Bool := c.older.any fun x => x.2.generation != c.abacus.generation && x.2.model.isSome

/-- The shadow bank of the model store is given free once the old model has drained (R227, R228). DEDUCED: log entry 97. -/
def releaseModel (c : Chip) : Chip :=
  let c := pruneOlder c
  if modelDrains c then c else { c with abacus := { c.abacus with held := none } }

/-- Counts one classification (R241). -/
def countClassified (replay dflt : Bool) (c : Chip) : Chip :=
  let ms := c.now / 1000000
  let rate := if c.abacus.rateMs = ms then c.abacus.rate + 1 else 1
  let (d, c) := satAdd 0x0705 (352 + 16) 0 32 c.abacus.defaultOutcomes (b2n dflt) c
  let (r, c) := satAdd 0x0705 (352 + 20) 0 32 c.abacus.replayClassified (b2n replay) c
  { c with abacus := { c.abacus with
      classified := wrapU 64 (c.abacus.classified + 1), defaultOutcomes := d, replayClassified := r, rate, rateMs := ms
      peakRate := max c.abacus.peakRate rate } }

/-- Class and confidence of a record under the model given (R217, R220, R228). A record that meets an uncorrectable word reads class
0, and the bank is reloaded (R507). -/
def classifyBlob (model : Option Model) (k : Closed) (g : Geometry) (c : Chip) : Nat × Nat × Chip :=
  if k.dense then (0, 0, c)
  else if c.abacus.blank then (0, 0, { c with abacus := { c.abacus with blank := false } })
  else match model with
    | none => (0, 0, c)
    | some m =>
      let (cls, conf, dflt) := m.classify (features k g)
      (cls, conf, countClassified k.blob.replayed dflt c)

/-! ### PIPE.LOAD_CLASSIFIER (R225 to R227, R238) -/

/-- The key of a slot of the key store that holds a model key (R225, R226): slot 0 holds the integrator key. DEDUCED: log entry 90. -/
def modelKey (c : Chip) (slot : Nat) : Option (List Byte) := if c.sec.sealed_ || slot == 0 then none else vget c.sec.keys slot

/-- Checks a complete container: its plaintext body, or the status that refuses it (R224 to R226). DEDUCED: log entry 90. -/
def openContainer (c : Chip) (x : List Byte) : Except Nat (List Byte) :=
  let h := x.take 64
  if !headerOk h || x.length != 64 + bodyLength h then .error stBadParam
  else
    let body := x.drop 64
    let plain : Except Nat (List Byte) :=
      if rd h 6 1 = 0 then .ok body
      else match (modelKey c (rd h 7 1)).bind fun k => Config.aesGcmDecrypt k (sliceB h 24 12) (h.take 48) body (sliceB h 48 16) with
        | some p => .ok p
        | none => .error stAuthFail
    match plain with
    | .ok p => if bodyOk h p then .ok p else .error stBadParam
    | .error e => .error e

/-- `detail` of ST_AUTH_FAIL for a container: 2 where its slot holds no model key, 0 where the tag fails (R226, R476).DEDUCED: log entry 90. -/
def containerAuthDetail (c : Chip) (x : List Byte) : Nat := if (modelKey c (rd x 7 1)).isNone then 2 else 0

/-- The classifier entry of a transaction, its payload a flag for an unload and then the container so far. -/
def classifierEntry (c : Chip) (id : Nat) : Option Entry := (openTx c id).bind fun x => x.entries.find? fun e => e.code == 0x0506

/-- Puts the classifier entry of a transaction. -/
def putClassifier (id : Nat) (e : Entry) (c : Chip) : Chip :=
  modTx id (fun x =>
    let es := x.entries
    { x with entries := if es.any (fun y => y.code == 0x0506) then es.map (fun y => if y.code = 0x0506 then e else y) else es ++ [e] }) c

/-- PIPE.LOAD_CLASSIFIER: one chunk. A chunk length out of its range, or an unload with data or in chunks, makes the entry invalid at commit
(R303). DEDUCED: log entry 90. -/
def pipeLoadClassifier (_ : Env) (j : Job) (c : Chip) : Reply :=
  let c := releaseModel c
  let p := j.payload
  let id := rd p 0 4
  let f := rd p 4 1
  let n := rd p 6 2
  let first := bit f 0
  let last := bit f 1
  let unload := bit f 2
  let old := classifierEntry c id
  let held : List Byte := if first then [] else (old.map fun e => e.payload.drop 1).getD []
  let bytes := held ++ p.drop 16
  let counted := (if first then 0 else (old.bind (·.counted)).getD 0) + (p.length - 4)
  let bad := decide (4000 < n) || n % 8 != 0 || (unload && !(first && last && n == 0))
  let e : Entry := { code := 0x0506, payload := le 1 (b2n unload) ++ bytes, counted := some counted, complete := last
                     invalid := bad || (!first && (old.map (·.invalid)).getD false) }
  let room : Entry := { e with counted := some (p.length - 4) }
  checked ([lenOk (p.length == 16 + n), param 4 (f < 8), reserved p 5 1, reserved p 12 4] ++
      stagingChecks c id [room] (b2n first) ++
      [crossRule (!first || old.isNone), ownParam 8 (if first then rd p 8 4 == 0 else match old with
        | some o => !o.complete && rd p 8 4 == held.length
        | none => false)]) c
    (if !last || unload then replyBody (le 4 bytes.length) (putClassifier id e c)
     else match openContainer c bytes with
       | .ok plain => replyBody (le 4 bytes.length) (putClassifier id { e with data := plain } c)
       | .error st => { status := st, detail := if st = stBadParam then 0xFFFF else containerAuthDetail c bytes, chip := putClassifier id { e with invalid := true } c })

def execPipeLoadClassifier (t : Nat) (mb : Fin 8) (s : State) : Host.Outcome State Fault Refusal :=
  .next (s.command 0x0506 t mb pipeLoadClassifier)

/-- A classifier entry takes effect: the other bank becomes the working one (R227, R228). -/
def classifierApply (tx : Nat) (e : Entry) (c : Chip) : Chip :=
  { c with abacus := { c.abacus with
      model := if rd e.payload 0 1 = 1 then none else some { container := e.payload.drop 1, body := e.data }
      generation := c.abacus.generation + 1, bank := 1 - c.abacus.bank, held := some tx, blank := false } }

/-- R226 at commit. -/
def classifierValid (e : Entry) : Bool := e.complete && !e.invalid

/-! ### The classifier record (R241) -/

def classifierRecord (c : Chip) : List Byte :=
  let h := (c.abacus.model.map (·.container)).getD (zeros 64)
  le 4 (rd h 20 4) ++ le 1 (treeCount h) ++ le 1 c.abacus.bank ++
  le 1 (if modelDrains (pruneOlder c) then 2 else b2n c.abacus.model.isSome) ++ [0] ++ le 8 c.abacus.classified ++
  le 4 c.abacus.defaultOutcomes ++ le 4 c.abacus.replayClassified ++ le 4 c.abacus.peakRate ++ zeros 4

end Sys2Proof.Machine
end

