-- ==== Sys2Proof/Machine/Rotunda.lean ====
section
/-! DEFINITION. The Rotunda of chapter 8 (R229 to R242): roll samples, binning, chains, and PIPE.SET_RECURRENCE. -/
namespace Sys2Proof.Machine

/-! ### Roll samples (R229) -/

/-- What is noted of a roll channel now, the sample of one that is on; none where its encoder has no revolution. -/
def rollSample (c : Chip) (r : RollCfg) : Option RollSample :=
  let e := vget c.enc r.encoder
  if e.countsPerRev = 0 then none
  else some {
    live := r.enable
    ph16 := e.phase * 65536 / e.countsPerRev, rev16 := (e.revolutions % 65536).toNat, revolution := e.revolutions
    indexed := e.indexed || !e.indexEnable, realigned := e.realignedBeyond }

/-- The trigger generator samples every enabled roll channel at trigger n (R229). -/
def sampleRolls (n : Nat) (c : Chip) : Chip :=
  let xs := c.rotunda.rolls.toList.map (rollSample c)
  { c with
    rotunda := { c.rotunda with samples := (n, xs) :: c.rotunda.samples }
    enc := vmapIdx (fun _ e => { e with realignedBeyond := false }) c.enc }

/-- What is noted of a roll channel at a line, while it is held. -/
def notedAt (c : Chip) (n roll : Nat) : Option RollSample :=
  (c.rotunda.samples.find? fun x => x.1 == n).bind fun x => x.2.getD roll none

/-- The sample of a roll channel at a line, while it is held; none where the channel was off. -/
def sampleOf (c : Chip) (n roll : Nat) : Option RollSample := (notedAt c n roll).filter (·.live)

/-- The centroid line of a blob (R229). -/
def Blob.centroidLine (b : Blob) : Nat := b.nFirst + (if b.area = 0 then 0 else (2 * b.sumL + b.area) / (2 * b.area))

/-- `roll[0]` and `roll[1]` of a record (R230). -/
def rollFields (x : Settings) (k : Closed) (c : Chip) : Nat × Nat :=
  let f (i : Nat) : Nat :=
    let q := vget x.recordChannel i
    if k.dense || k.blob.replayed || decide (7 < q) || !(vget x.rolls q).enable then 0
    else match sampleOf c (Blob.centroidLine k.blob) q with
      | some s => s.ph16 + q * 2 ^ 16 + 2 ^ 19
      | none => 0
  (f 0, f 1)

/-! ### Chains (R233, R234, R236, R242) -/

/-- EV_REPEAT_CHAIN (R242). -/
def repeatChain (roll kind slot run i j id : Nat) (c : Chip) : Chip :=
  raise 0x0505 1 roll (le 1 roll ++ le 1 kind ++ le 1 slot ++ le 1 run ++ le 2 i ++ le 2 j ++ le 4 id) c

/-- Ends a chain with a kind: its slot stays readable, and no cell carries it any more. DEDUCED: log entry 94. -/
def endChain (slot kind state : Nat) (c : Chip) : Chip :=
  match vget c.rotunda.chains slot with
  | none => c
  | some x =>
    if x.state ≠ 1 then c
    else
      repeatChain x.roll kind slot x.run x.i x.j x.lastId
        { c with rotunda := { c.rotunda with
            chains := vset c.rotunda.chains slot (some { x with state, ended := c.rotunda.endings }), endings := c.rotunda.endings + 1
            cells := c.rotunda.cells.map fun y => if y.chain = some slot then { y with chain := none } else y } }

/-- The active chains of a roll channel that satisfy a test. -/
def chainsWhere (c : Chip) (roll : Nat) (f : Chain → Bool) : List Nat :=
  (List.range 64).filter fun s => match vget c.rotunda.chains s with
    | some x => x.roll == roll && x.state == 1 && f x
    | none => false

/-- Clears the histogram of a roll channel; its chains end with kind 3 (R236). DEDUCED: log entry 93. -/
def clearRoll (roll : Nat) (c : Chip) : Chip :=
  let c := (chainsWhere c roll fun _ => true).foldl (fun c s => endChain s 3 3 c) c
  let (n, c) := satAdd 0x0705 (384 + 24) 0 32 c.rotunda.resets 1 c
  { c with rotunda := { c.rotunda with cells := c.rotunda.cells.filter (fun y => y.roll != roll), resets := n } }

/-- Entry to INSPECT from CONFIGURE or CALIBRATE (R236). -/
def rotundaEnter (c : Chip) : Chip := (List.range 8).foldl (fun c r => clearRoll r c) c

/-- Revolutions from one to another, modulo 2^16. -/
def revsBehind (newest last : Nat) : Nat := (newest + 65536 - last) % 65536

/-- What the Rotunda does at a newly stitched line: samples of the last 32 768 stitched lines are kept, histograms cleared at a change of grid or bins and at a realignment beyond
tolerance, chains ended at a revolution wrap (R229, R234, R236). DEDUCED: log entry 93. -/
def rotundaLine (x : Settings) (n : Nat) (c : Chip) : Chip :=
  let grid := (x.geo.cdPitch, x.geo.column0, x.geo.columnCount)
  let bins := x.rolls.toList.map fun r => (r.encoder, r.cdBinLog2, r.phaseBinsLog2)
  let moved := c.rotunda.grid.isSome && c.rotunda.grid != some grid
  let before := c.rotunda.bins
  let known := c.rotunda.grid.isSome
  let c := { c with rotunda := { c.rotunda with grid := some grid, bins, samples := c.rotunda.samples.filter fun y => decide (n < y.1 + 32768) } }
  (List.range 8).foldl (fun c r =>
    let changed := known && before.getD r (0, 0, 0) != bins.getD r (0, 0, 0)
    let c := if moved || changed || ((notedAt c n r).map (·.realigned)).getD false then clearRoll r c else c
    match sampleOf c n r, sampleOf c (n - 1) r with
    | some a, some b =>
      if n = 0 ∨ a.rev16 = b.rev16 then c
      else
        (chainsWhere c r fun y => let d := revsBehind a.rev16 y.last; decide (3 ≤ d) && decide (d < 32768)).foldl (fun c s => endChain s 1 2 c) c
    | _, _ => c) c

/-! ### Binning (R231 to R233) -/

/-- A cell of a histogram. -/
def cellAt (c : Chip) (roll i j : Nat) : Option Cell := c.rotunda.cells.find? fun y => y.roll == roll && y.i == i && y.j == j

/-- Puts a cell. -/
def putCell (y : Cell) (c : Chip) : Chip :=
  { c with rotunda := { c.rotunda with
      cells := y :: c.rotunda.cells.filter fun z => !(z.roll == y.roll && z.i == y.i && z.j == y.j) } }

/-- The neighbour with the longest run one revolution before, in the order of R232. -/
def bestNeighbour (c : Chip) (roll i j rev bins phases : Nat) : Option Cell :=
  (([-1, 0, 1] : List Int).flatMap fun di => ([-1, 0, 1] : List Int).map fun dj => (di, dj)).foldl (fun best (di, dj) =>
    let ci := (i : Int) + di
    let cj := (j : Int) + dj
    if ci < 0 ∨ (bins : Int) ≤ ci then best
    else
      let w : Int := if cj < 0 then 1 else if (phases : Int) - 1 < cj then -1 else 0
      match cellAt c roll ci.toNat (cj % phases).toNat with
      | none => best
      | some y =>
        if y.run ≠ 0 ∧ (y.last : Int) = ((rev : Int) - 1 - w) % 65536 ∧ (best.map (·.run)).getD 0 < y.run then some y else best) none

/-- A slot for a new chain: a free one, else the one that ended first (R234). DEDUCED: log entry 94. -/
def chainSlot (c : Chip) : Option Nat :=
  match (List.range 64).find? fun s => (vget c.rotunda.chains s).isNone with
  | some s => some s
  | none => ((List.range 64).foldl (fun (best : Option (Nat × Nat)) s => match vget c.rotunda.chains s with
      | some x => if x.state = 1 then best else match best with
        | some b => if x.ended < b.2 then some (s, x.ended) else best
        | none => some (s, x.ended)
      | none => best) none).map (·.1)

/-- The chain of a cell that a hit has reached: updated, or started at `repeat_count` (R233). DEDUCED: log entry 94. -/
def chainHit (cfg : RollCfg) (y : Cell) (id : Nat) (c : Chip) : Chip :=
  match y.chain with
  | some s =>
    { c with rotunda := { c.rotunda with chains := vmod c.rotunda.chains s fun x => x.map fun x =>
        { x with run := y.run, i := y.i, j := y.j, last := y.last, lastId := id } } }
  | none =>
    if y.run ≠ cfg.repeatCount then c
    else match chainSlot c with
      | some s =>
        let x : Chain := { roll := y.roll, state := 1, run := y.run, i := y.i, j := y.j, last := y.last, firstRev := y.firstRev, firstId := y.firstId
                           lastId := id, ended := 0 }
        repeatChain y.roll 0 s y.run y.i y.j id
          (putCell { y with chain := some s } { c with rotunda := { c.rotunda with chains := vset c.rotunda.chains s (some x) } })
      | none =>
        let (n, c) := satAdd 0x0705 (384 + 20) 0 32 c.rotunda.untracked 1 c
        repeatChain y.roll 2 0xFF y.run y.i y.j id { c with rotunda := { c.rotunda with untracked := n } }

/-- A binned hit (R232). -/
def binHit (roll : Nat) (cfg : RollCfg) (i j bins : Nat) (s : RollSample) (id : Nat) (c : Chip) : Chip :=
  let rev := s.rev16
  let from_ := bestNeighbour c roll i j rev bins (2 ^ cfg.phaseBinsLog2)
  let best := (from_.map (·.run)).getD 0
  let own := cellAt c roll i j
  let run := min (best + 1) 255
  let fresh : Cell := match from_ with
    | some f => { roll, i, j, last := rev, run, chain := f.chain, firstRev := f.firstRev, firstId := f.firstId }
    | none => { roll, i, j, last := rev, run, chain := none, firstRev := s.revolution, firstId := id }
  match own with
  | none => chainHit cfg fresh id (putCell fresh c)
  | some y =>
    let d := revsBehind rev y.last
    if y.run = 0 ∨ (1 ≤ d ∧ d < 32768) then chainHit cfg fresh id (putCell fresh c)
    else if d = 0 then
      (let y := if y.run < best + 1 then { fresh with last := y.last } else y
       chainHit cfg y id (putCell y c))
    else c

/-- Whether a roll channel bins a record of a class (R231), its sample apart. -/
def binsRecord (cfg : RollCfg) (k : Closed) (cls : Nat) : Bool :=
  let b := k.blob
  cfg.enable && bit cfg.classMask cls && decide (cfg.minArea ≤ b.area) && decide (b.area ≤ cfg.maxArea) &&
  decide (b.nLast - b.nFirst + 1 ≤ cfg.maxLines) && Nat.land b.planes cfg.planeMask != 0

/-- A live record has no roll phase (R229): its centroid line is not held, or a roll channel that is on has no sample of it.
DEDUCED: log entry 92. -/
def lacksPhase (x : Settings) (line : Nat) (c : Chip) : Bool :=
  !(c.rotunda.samples.any fun y => y.1 == line) || (List.range 8).any fun r => (vget x.rolls r).enable && (sampleOf c line r).isNone

/-- Bins a live blob record on every roll channel that takes it (R231); the counters of R241 count a record once. DEDUCED: log entry 92. -/
def binRecord (x : Settings) (k : Closed) (cls id : Nat) (c : Chip) : Chip :=
  if k.dense || k.blob.replayed then c
  else
    let cc := Blob.centroid k.blob
    let line := Blob.centroidLine k.blob
    let takers := (List.range 8).filter fun r => binsRecord (vget x.rolls r) k cls
    let hits := takers.filter fun r => ((sampleOf c line r).map (·.indexed)).getD false
    let c := hits.foldl (fun c r =>
      let cfg := vget x.rolls r
      match sampleOf c line r with
      | some s => binHit r cfg (cc / 2 ^ cfg.cdBinLog2) (s.ph16 / 2 ^ (16 - cfg.phaseBinsLog2)) (ceilDiv x.geo.columnCount (2 ^ cfg.cdBinLog2)) s id c
      | none => c) c
    let (n, c) := satAdd 0x0705 (384 + 16) 0 32 c.rotunda.noPhase (b2n (lacksPhase x line c)) c
    { c with rotunda := { c.rotunda with noPhase := n, binned := wrapU 64 (c.rotunda.binned + b2n !hits.isEmpty) } }

/-- ROTUNDA_SWEEP: the background sweep of a roll channel (R235). -/
def rotundaSweep (roll : Nat) (c : Chip) : Chip :=
  match c.rotunda.samples.find? fun s => decide (s.1 < c.perg.next) with
  | none => c
  | some (n, _) =>
    match sampleOf c n roll with
    | none => c
    | some s => { c with rotunda := { c.rotunda with cells := c.rotunda.cells.filter fun y =>
        !(y.roll == roll && (let d := revsBehind s.rev16 y.last; decide (2 ≤ d) && decide (d < 32768))) } }

def execRotundaSweep (t : Nat) (roll : Fin 8) (s : State) : Host.Outcome State Fault Refusal :=
  .next (s.run t fun _ c => rotundaSweep roll c)

/-! ### PIPE.SET_RECURRENCE (R237, R239, R240) -/

/-- The roll channel of item 1; `p` starts after `transaction_id`. -/
def rollOf (p : List Byte) : RollCfg :=
  { enable := rd p 5 1 == 1, encoder := rd p 6 1, repeatCount := rd p 7 1, phaseBinsLog2 := rd p 8 1, cdBinLog2 := rd p 9 1, minArea := rd p 12 4
    maxArea := rd p 16 4, maxLines := rd p 20 2, planeMask := rd p 22 1, classMask := rd p 24 32 }

/-- An entry of PIPE.SET_RECURRENCE takes effect. -/
def recurrenceApply (p : List Byte) (c : Chip) : Chip :=
  if rd p 0 1 = 0 then { c with rotunda := { c.rotunda with recordChannel := #v[rd p 4 1, rd p 5 1] } }
  else { c with rotunda := { c.rotunda with rolls := vset c.rotunda.rolls (rd p 4 1) (rollOf p) } }

/-- Cells of all enabled roll channels (R237). -/
def cellsInUse (c : Chip) : Nat :=
  sumBy (fun r => if r.enable then ceilDiv c.trig.geo.columnCount (2 ^ r.cdBinLog2) * 2 ^ r.phaseBinsLog2 else 0) c.rotunda.rolls.toList

/-- R237. DEDUCED: log entry 95. -/
def cellsOk (c : Chip) : Bool := decide (cellsInUse c ≤ 131072)

/-- A roll channel that is on has an encoder with enough counts per revolution, and with it R237 holds (R240). -/
def rollOk (r : RollCfg) (c : Chip) : Bool :=
  let cpr := (vget c.enc r.encoder).countsPerRev
  !r.enable || (cellsOk c && cpr != 0 && decide (2 ^ r.phaseBinsLog2 ≤ cpr))

/-- R240, judged on the device as the whole transaction leaves it; what a roll channel needs is judged where the entry's setting is the one in
force (R303). -/
def recurrenceValid (inForce : Bool) (p : List Byte) (c : Chip) : Bool :=
  if rd p 0 1 = 0 then
    let ok (q : Nat) : Bool := decide (q ≤ 7) || q == 0xFF
    ok (rd p 4 1) && ok (rd p 5 1)
  else
    let r := rollOf p
    (!inForce || rollOk r c) && decide (rd p 4 1 ≤ 7) && decide (r.encoder ≤ 7) && decide (3 ≤ r.repeatCount) && decide (r.repeatCount ≤ 64) && decide (4 ≤ r.phaseBinsLog2) &&
    decide (r.phaseBinsLog2 ≤ 10) && decide (r.cdBinLog2 ≤ 12) && decide (r.minArea ≤ r.maxArea) && decide (1 ≤ r.maxLines) && decide (r.maxLines ≤ 32768)

def pipeSetRecurrence (_ : Env) (j : Job) (c : Chip) : Reply :=
  let p := j.payload
  let own : List Check := match rd p 4 1 with
    | 0 => [lenIs 16 j, reserved p 5 3, reserved p 10 6]
    | 1 => [lenIs 60 j, reserved p 5 3, inRange p 9 1 0 1, reserved p 14 2, reserved p 27 1]
    | _ => [lenOk (8 ≤ p.length), param 4 false]
  stage 0x0507 own j c

def execPipeSetRecurrence (t : Nat) (mb : Fin 8) (s : State) : Host.Outcome State Fault Refusal :=
  .next (s.command 0x0507 t mb pipeSetRecurrence)

/-! ### The recurrence record (R241) -/

def chainBytes (slot : Nat) (x : Chain) : List Byte :=
  le 1 slot ++ le 1 x.roll ++ le 1 x.state ++ le 1 x.run ++ le 2 x.i ++ le 2 x.j ++ leS 6 x.firstRev ++ zeros 2 ++ le 8 x.firstId ++ le 8 x.lastId

def recurrenceRecord (c : Chip) : List Byte :=
  let slots := (List.range 64).filterMap fun s => (vget c.rotunda.chains s).map fun x => (s, x)
  le 1 (packBits (c.rotunda.rolls.toList.map (·.enable))) ++ le 1 (slots.filter fun y => y.2.state == 1).length ++ le 1 slots.length ++ [0] ++
  le 4 (cellsInUse c) ++ le 8 c.rotunda.binned ++ le 4 c.rotunda.noPhase ++ le 4 c.rotunda.untracked ++ le 4 c.rotunda.resets ++ zeros 4 ++
  slots.flatMap fun y => chainBytes y.1 y.2

/-- Ended slots are free again after a read (R234). -/
def recurrenceRead (c : Chip) : Chip :=
  { c with rotunda := { c.rotunda with chains := vmapIdx (fun _ x => x.filter fun y => y.state == 1) c.rotunda.chains } }

end Sys2Proof.Machine
end

