-- ==== Sys2Proof/Machine/Lookback.lean ====
section
/-! DEFINITION. The Orangery of chapter 9 (R243 to R262): the ring of blocks, retrieval, pins, replay through detection, and late
tiles (R209). -/
namespace Sys2Proof.Machine

/-! ### The ring (R246, R413, R431) -/

/-- Bytes of an extent. -/
abbrev extentBytes : Nat := 67108864

/-- DRAM capacity in GiB: four channels of `ranks` ranks (R410). -/
def dramGib (c : Chip) : Nat :=
  c.dram.ch.toList.foldl (fun n k => n + k.ranks * (if k.densityGb = 16 then 32 else if k.densityGb = 24 then 48 else 64)) 0

/-- Largest `ring_gib` (R413). -/
def maxRingGib (c : Chip) : Nat := dramGib c - 16

/-- GiB of the ring: the maximum until a LOOKBACK.CONFIGURE sets it (R270). -/
def ringGibNow (c : Chip) : Nat := if c.orangery.ringGib = 0 then maxRingGib c else c.orangery.ringGib

/-- Extents in the ring: those that retirement without a spare took are gone (R431). -/
def ringExtents (c : Chip) : Nat := ringGibNow c * 16 - (c.dram.retired.length - 128)

/-- Changes the Orangery. -/
def modOrangery (f : Orangery → Orangery) (c : Chip) : Chip := { c with orangery := f c.orangery }

/-- The history, the index and every pin are discarded (R249, R270). -/
def discardHistory (c : Chip) : Chip :=
  writerFill 0 <| modOrangery (fun o => { o with
    building := Vector.replicate 16 [], staging := [], blocks := [], index := [], seamLog := [], pins := [], extent := 0, used := 0 }) c

/-! ### Storing (R243 to R248) -/

/-- Storage depth in force (R245). -/
def storesEight (c : Chip) : Bool := c.orangery.depth8 || decide (2 ≤ c.health.level)

/-- Columns of a block. -/
def Block.width (b : Block) : Nat := maxOf (b.lines.map fun k => k.pixels.length)

/-- The block of a lane's lines of a span, coded (R243, R245). -/
def codeBlock (lane span : Nat) (eight : Bool) (lines : List Contribution) : Block :=
  let lines := lines.map fun k => { k with pixels := k.pixels.map fun p => if eight then p.map (· / 16) else p }
  let b : Block := { lane, span, lines, depth8 := eight }
  let w := Block.width b
  { b with bytes := (tallyBlock false (if eight then 8 else 12) w (lines.map fun k => k.pixels ++ List.replicate (w - k.pixels.length) none)).length }

/-- Bytes in the staging pool (R19). -/
def stagingUsed (o : Orangery) : Nat := sumBy (·.bytes) o.staging

/-- Fill of the staging pool in thousandths. -/
def stagingFill (o : Orangery) : Nat := stagingUsed o * 1000 / stagingSize

/-- A block that is never stored (R248). DESIGN CHOICE: log entry 101. -/
def dropBlock (b : Block) (c : Chip) : Chip :=
  let (n, c) := satAdd 0x0804 44 0 32 c.orangery.blocksLost 1 c
  modOrangery (fun o => { o with blocksLost := n, blocks := { b with neverStored := true } :: o.blocks }) c

/-- The block a lane has in progress, where it has one. -/
def blockInProgress (o : Orangery) (l : Nat) : Option Block :=
  if (vget o.building l).isEmpty then none else some (codeBlock l o.span o.spanDepth8 (vget o.building l))

/-- A mapped lane's contribution to line n as it is stored: a lost line is one invalid run (R243). DEDUCED: log entry 109. -/
def storedLine (c : Chip) (x : Settings) (n l : Nat) : List Contribution :=
  match (vget c.perg.contributions l).find? fun k => k.number == n, (vget x.banks l).span with
  | some k, _ => [k]
  | none, some (a, b) => [{ number := n, first := a, pixels := List.replicate (b + 1 - a) none }]
  | none, none => []

/-- The seam log entry of a seam as line n was stitched. -/
def seamEntry (n : Nat) (v : SeamView) : SeamLog :=
  { seam := v.left, from_ := n, hard := v.seam.hard, zone := v.zone, overlap := v.overlap, cut := v.seam.cutOffset, dc := v.seam.dc, dm := v.seam.dm }

/-- Newest seam log entry of a seam up to line n. -/
def seamAt (log : List SeamLog) (k n : Nat) : Option SeamLog := log.find? fun e => e.seam == k && decide (e.from_ ≤ n)

/-- The seam log after line n: an entry for every seam that changed (R244). DEDUCED: log entry 100. -/
def logSeams (n : Nat) (views : List SeamView) (log : List SeamLog) : List SeamLog :=
  (List.range 15).foldl (fun log k =>
    let new : SeamLog := ((views.find? fun v => v.left == k && v.right != 16).map (seamEntry n)).getD
      { seam := k, from_ := n, hard := false, zone := none, overlap := none, cut := 0, dc := 0, dm := 0 }
    match seamAt log k n with
    | some old => if { old with from_ := n } = new then log else new :: log
    | none => if new.overlap.isNone then log else new :: log) log

/-! ### Reading the history (R252, R254) -/

/-- Blocks a reader can find: written, in staging, and in progress. -/
def allBlocks (o : Orangery) : List Block :=
  o.blocks ++ o.staging ++ (List.range 16).filterMap (blockInProgress o)

/-- A block whose pixels cannot be read: `cause` of EV_LOOKBACK_OVERWRITTEN; 2 stands for an uncorrectable read (R430).
DEDUCED: log entry 110. -/
def Block.missing (b : Block) : Option Nat := if b.overwritten then some 0 else if b.neverStored then some 1 else if b.damaged then some 2 else none

/-- The index entry of a line. -/
def indexOf (o : Orangery) (n : Nat) : Option IndexLine := o.index.find? fun i => i.tag.number == n

/-- The last column of a stored line. -/
def Contribution.last (k : Contribution) : Nat := k.first + k.pixels.length - 1

/-- Whether a block holds columns of line n between two columns. -/
def Block.meets (b : Block) (n lo hi : Nat) : Bool :=
  b.lines.any fun k => k.number == n && !k.pixels.isEmpty && decide (k.first ≤ hi) && decide (lo ≤ Contribution.last k)

/-- Why line n cannot be read whole between two columns, where it cannot (R254). -/
def lineCause (o : Orangery) (n lo hi : Nat) : Option Nat :=
  if (indexOf o n).isNone then some 1 else ((allBlocks o).filter fun b => b.meets n lo hi).findSome? Block.missing

/-- What a lane stored for a line, at 12 bits (R252). -/
def Block.read (b : Block) (n : Nat) : List Contribution :=
  if b.missing.isSome then []
  else (b.lines.filter fun k => decide (n ≤ k.number + 4) && decide (k.number ≤ n + 4)).map fun k =>
    if b.depth8 then { k with pixels := k.pixels.map fun p => p.map (· * 16) } else k

/-- What a lane has delivered of lines that are not stitched yet: the Orangery's coder has it already (R243, R252). -/
def deliveredAhead (c : Chip) (l : Nat) : Block :=
  let ks := (vget c.perg.contributions l).filter fun k => c.orangery.enable && decide (c.perg.next ≤ k.number)
  codeBlock l c.orangery.span c.orangery.spanDepth8 ks

/-- The device as the Pergola's arithmetic sees it when it rebuilds line n: the lanes' stored lines around n. A gang neighbour's
samples are in no block (R243). DESIGN CHOICE: log entry 107. -/
def historyChip (c : Chip) (n : Nat) : Chip :=
  let bs := allBlocks c.orangery
  let ks : Vector (List Contribution) 16 := vmapIdx (fun l (_ : List Contribution) =>
    ((bs.filter fun b => b.lane == l) ++ [deliveredAhead c l]).flatMap fun b => b.read n) (Vector.replicate 16 [])
  { c with
    lane := vmapIdx (fun l x => { x with port := if (vget ks l).isEmpty then none else some 0 }) c.lane
    perg := { c.perg with contributions := ks }
    gang := { c.gang with samples := [] } }

/-- The settings line n was stitched with, as far as its columns need them. -/
def historySettings (c h : Chip) (ix : IndexLine) : Settings :=
  { settingsOf c with
    geo := { c.trig.geo with cdPitch := ix.cdPitch, column0 := ix.column0, columnCount := ix.columnCount }
    banks := vmapIdx (fun l b =>
      let ks := vget h.perg.contributions l
      let at_ := (ks.find? fun k => k.number == ix.tag.number).or ks.head?
      { b with span := at_.bind fun k => if k.pixels.isEmpty then none else some (k.first, Contribution.last k) }) (settingsOf c).banks }

/-- The seams of line n from the seam log (R252). -/
def historyViews (o : Orangery) (n : Nat) : List SeamView :=
  (List.range 15).filterMap fun k => (seamAt o.seamLog k n).bind fun e =>
    if e.overlap.isNone then none
    else some { left := k, right := k + 1, seam := { hard := e.hard, cutOffset := e.cut, dc := e.dc, dm := e.dm }, overlap := e.overlap, zone := e.zone }

/-- Columns of line n rebuilt from the stored lane outputs (R252); invalid where nothing is stored or outside the line. -/
def readColumns (c : Chip) (n : Nat) (cols : List Int) : List Pix :=
  match indexOf c.orangery n with
  | none => cols.map fun _ => {}
  | some ix =>
    let h := historyChip c n
    let x := historySettings c h ix
    let vs := historyViews c.orangery n
    cols.map fun col => if col < 0 ∨ (ix.columnCount : Int) ≤ col then {} else stitchColumn h x vs n col.toNat

/-! ### Regions (R251) -/

/-- The region of a request, from an offset. -/
def regionOf (p : List Byte) (off : Nat) : Region :=
  { mdFrom := rd p off 8, mdTo := rd p (off + 8) 8, cdFrom := rdS p (off + 16) 4, cdTo := rdS p (off + 20) 4 }

/-- The indexed lines of a region, newest first. DEDUCED: log entry 100. -/
def regionLines (o : Orangery) (r : Region) : List IndexLine :=
  o.index.filter fun i => decide (r.mdFrom ≤ i.tag.md) && decide (i.tag.md ≤ r.mdTo)

/-- First line of a region and how many lines it has: those between its first and its last line that are not in the index were
never stored. DEDUCED: log entry 100. -/
def regionSpan (o : Orangery) (r : Region) : Nat × Nat :=
  let xs := regionLines o r
  match xs.getLast?, xs.head? with
  | some a, some b => (a.tag.number, b.tag.number + 1 - a.tag.number)
  | _, _ => (0, 0)

/-- First column of a region and how many columns it has, on a grid. -/
def regionColumns (ix : IndexLine) (r : Region) : Nat × Nat :=
  let p : Int := max 1 ix.cdPitch
  let lo := max 0 (-((ix.column0 - r.cdFrom) / p))
  let hi := min ((ix.columnCount : Int) - 1) ((r.cdTo - ix.column0) / p)
  if hi < lo then (lo.toNat, 0) else (lo.toNat, (hi + 1 - lo).toNat)

/-- Columns of a region, on the grid of its first line. -/
def regionGrid (o : Orangery) (r : Region) : Nat × Nat :=
  match (regionLines o r).getLast? with
  | some ix => regionColumns ix r
  | none => (0, 0)

/-- MD of the newest stitched line. -/
def newestMd (c : Chip) : Nat :=
  max (((c.perg.recent.head?).map (·.tag.md)).getD 0) (((c.orangery.index.head?).map (·.tag.md)).getD 0)

/-- The checks of R251 on the region at an offset of a request. A ring that was never enabled has no history to judge by. -/
def regionChecks (c : Chip) (p : List Byte) (off maxLines maxColumns : Nat) : List Check :=
  let r := regionOf p off
  let o := c.orangery
  let xs := regionLines o r
  let n := (regionSpan o r).2
  let w := (regionGrid o r).2
  let grid (i : IndexLine) : Nat × Int × Nat := (i.cdPitch, i.column0, i.columnCount)
  [param (off + 8) (decide (r.mdFrom ≤ r.mdTo)), param (off + 20) (decide (r.cdFrom ≤ r.cdTo)),
   ownParam (off + 8) (!o.everEnabled || decide (r.mdTo ≤ newestMd c)),
   crossRule (!o.everEnabled || (decide (1 ≤ n) && decide (n ≤ maxLines) && decide (1 ≤ w) && decide (w ≤ maxColumns) &&
     xs.all fun i => (xs.head?.map grid) == some (grid i)))]

/-- Look-back takes requests: it was enabled once, and DRAM is not in self-refresh (R270, R535). -/
def lookbackServes (c : Chip) : Bool := c.orangery.everEnabled && mode c != 3

/-- Blocks with columns of a region, over given lines. -/
def regionBlocks (o : Orangery) (first lines lo width : Nat) : List Block :=
  if width = 0 then []
  else (allBlocks o).filter fun b => b.lines.any fun k => decide (first ≤ k.number) && decide (k.number < first + lines) &&
    !k.pixels.isEmpty && decide (k.first < lo + width) && decide (lo ≤ Contribution.last k)

/-! ### Jobs (R254 to R256) -/

/-- Blocks a job reads: those of its region, its warm-up, and the four lines on each side that the Pergola reaches. -/
def LbJob.blocks (o : Orangery) (j : LbJob) : List Block :=
  let (lo, w) := regionGrid o j.region
  regionBlocks o (j.first - j.warmup - 4) (j.lines + j.warmup + 8) lo w

/-- Changes a job. -/
def modJob (id : Nat) (f : LbJob → LbJob) (c : Chip) : Chip :=
  modOrangery (fun o => { o with jobs := o.jobs.map fun j => if j.id = id then f j else j }) c

/-- First line of a block. -/
def Block.first (b : Block) : Nat := (b.lines.head?.map (·.number)).getD b.span

/-- Two blocks hold the same lines of a lane. -/
def Block.same (a b : Block) : Bool := a.lane == b.lane && a.first == b.first

/-- The written blocks that a job has still to read, in ascending trigger order (R254). -/
def LbJob.unread (o : Orangery) (j : LbJob) : List Block :=
  sortBy (fun a b => decide (a.first ≤ b.first)) ((LbJob.blocks o j).filter fun b => !b.extents.isEmpty && !b.overwritten && !j.got.any b.same)

/-- A running job that reads: a replay is suspended under enforcement (R262). -/
def LbJob.active (c : Chip) (j : LbJob) : Bool := j.running && (!j.replay || c.health.level == 0)

/-- The running jobs have read on, each over a number of blocks that is free. DESIGN CHOICE: log entry 101. -/
def jobsReadOn (c : Chip) : Chip :=
  (c.orangery.jobs.filter (LbJob.active c)).foldl (fun c j =>
    let bs := LbJob.unread c.orangery j
    let (k, c) := freeNat c
    modJob j.id (fun j => { j with got := j.got ++ bs.take (k % (bs.length + 1)) }) c) c

/-- Extents being read: those of the block each running job is at (R246, R254). DESIGN CHOICE: log entry 101. -/
def readExtents (c : Chip) : List Nat :=
  ((c.orangery.jobs.filter (LbJob.active c)).flatMap fun j => ((LbJob.unread c.orangery j).take 1).flatMap (·.extents)).eraseDups

/-- The ring as a job has read it: a block it has read already is as it was then (R254). -/
def LbJob.asRead (j : LbJob) (c : Chip) : Chip :=
  modOrangery (fun o => { o with blocks := o.blocks.map fun b => (j.got.find? b.same).getD b }) c

/-- Extents held by pins. -/
def pinnedExtents (o : Orangery) : List Nat := (o.pins.flatMap (·.extents)).eraseDups

/-- The extent the writer takes after the present one: the next that is neither pinned nor being read (R246). DESIGN CHOICE: log entry 101. -/
def nextExtent (c : Chip) : Option Nat :=
  let o := c.orangery
  let n := ringExtents c
  let held := pinnedExtents o ++ readExtents c
  ((List.range n).map fun i => (o.extent + 1 + i) % n).find? fun e => !held.contains e

/-- Every block with a byte in an extent becomes overwritten (R246). -/
def overwriteExtent (e : Nat) (o : Orangery) : Orangery :=
  { o with blocks := o.blocks.map fun b => if b.extents.contains e then { b with overwritten := true } else b }

/-- Places the bytes of a block, extent after extent; none where the writer finds no extent to take. `k` bounds the extents.
DESIGN CHOICE: log entry 101. -/
def placeBytes : Nat → Nat → List Nat → Chip → Option (List Nat × Chip)
  | 0, _, _, _ => none
  | k + 1, n, es, c =>
    let room := extentBytes - c.orangery.used
    let es := if room = 0 then es else es ++ [c.orangery.extent]
    if n ≤ room then some (es, modOrangery (fun o => { o with used := o.used + n }) c)
    else
      let c := jobsReadOn c
      match nextExtent c with
      | none => none
      | some e => placeBytes k (n - room) es (modOrangery (fun o => { overwriteExtent e o with extent := e, used := 0 }) c)

/-- Raw bytes of a block's pixels (R250). -/
def Block.rawBytes (b : Block) : Nat :=
  let n := b.lines.foldl (fun n k => n + k.pixels.length) 0
  if b.depth8 then n else 3 * n / 2

/-- A pin that awaits a block takes the extents the writer has placed it in, as far as the cap allows (R257, R258).
DEDUCED: log entry 105. -/
def pinPlaced (b : Block) (es : List Nat) (c : Chip) : Chip :=
  let awaited (p : Pin) : Bool := p.awaits.contains (b.lane, b.first)
  let room := decide ((pinnedExtents c.orangery ++ es).eraseDups.length ≤ ringExtents c / 4)
  let take (p : Pin) : Pin := { p with extents := if room then (p.extents ++ es).eraseDups else p.extents, awaits := p.awaits.erase (b.lane, b.first) }
  modOrangery (fun o => { o with pins := o.pins.map fun p => if awaited p then take p else p }) c

/-- ORANGERY_BLOCK_WRITE: the oldest block leaves staging for the ring, or is discarded where it could not be staged whole. -/
def blockWrite (staged : Bool) (c : Chip) : Chip :=
  match c.orangery.staging with
  | [] => c
  | b :: rest =>
    let c := modOrangery (fun o => { o with staging := rest }) c
    let c := writerFill (stagingUsed c.orangery) c
    if !staged then dropBlock b c
    else match placeBytes (b.bytes / extentBytes + 2) b.bytes [] c with
      | none => dropBlock b c
      | some (es, c) =>
        pinPlaced b es <| modOrangery (fun o => { o with
          blocks := { b with extents := es } :: o.blocks
          writtenLog := (c.now, b.bytes, Block.rawBytes b) :: o.writtenLog.filter fun w => decide (c.now < w.1 + 1000000000) }) c

def execOrangeryBlockWrite (t : Nat) (staged : Bool) (s : State) : Host.Outcome State Fault Refusal :=
  .next (s.run t fun _ c => blockWrite staged c)

/-- DRAM serves the Orangery writer: no channel has failed (R414, R416). -/
def writerServed (c : Chip) : Bool := c.dram.ch.toList.all fun d => d.state != 3

/-- The writer makes room in the staging pool for a coded block: while DRAM serves it, the oldest staged blocks go to the ring as long as
the pool has no room. DESIGN CHOICE: log entry 101. -/
def makeRoom (n : Nat) (c : Chip) : Chip :=
  (List.range c.orangery.staging.length).foldl (fun c _ =>
    if writerServed c && decide (stagingSize < stagingUsed c.orangery + n) then blockWrite true c else c) c

/-- A coded block enters the staging pool of 8 MiB, or is discarded whole where the pool has no room for it, as DRAM falls short of its
bandwidth (R13, R19, R248). -/
def stageBlock (b : Block) (c : Chip) : Chip :=
  let c := makeRoom b.bytes c
  if stagingSize < stagingUsed c.orangery + b.bytes then dropBlock b c
  else
    let c := modOrangery (fun o =>
      let o := { o with staging := o.staging ++ [b] }
      { o with stagingPeak := max o.stagingPeak (stagingFill o) }) c
    writerFill (stagingUsed c.orangery) c

/-- The blocks in progress of some lanes are coded and staged, as whole blocks or as short ones (R247). -/
def flushLanes (ls : List Nat) (c : Chip) : Chip :=
  ls.foldl (fun c l => match blockInProgress c.orangery l with
    | some b => stageBlock b (modOrangery (fun o => { o with building := vset o.building l [] }) c)
    | none => c) c

/-- All blocks in progress are flushed. -/
def flushBlocks (c : Chip) : Chip := flushLanes (List.range 16) c

/-- The span of a newly stitched line: where it is another than that of the line before, the blocks in progress are flushed and the
depth of the new span is that in force (R245, R247). DEDUCED: log entry 109. -/
def enterSpan (n : Nat) (c : Chip) : Chip :=
  if c.orangery.spanSeen ∧ c.orangery.span = n / 256 * 256 then c
  else
    let c := flushBlocks c
    modOrangery (fun o => { o with span := n / 256 * 256, spanSeen := true, spanDepth8 := storesEight c }) c

/-- Stores a stitched line that has just been assembled: every mapped lane's contribution, its tag, its grid and the seam
changes (R243, R244, R249). -/
def storeLine (x : Settings) (tag : Tag) (c : Chip) : Chip :=
  let n := tag.number
  let c := enterSpan n c
  if !c.orangery.enable || !pipelineRuns c then c
  else
    let o := c.orangery
    let mapped := mappedLanes c
    let c := { c with orangery := { o with
      building := vmapIdx (fun l ks => if mapped.contains l then ks ++ storedLine c x n l else ks) o.building
      index := (({ tag, cdPitch := x.geo.cdPitch, column0 := x.geo.column0, columnCount := x.geo.columnCount } : IndexLine) :: o.index).take 67108864
      seamLog := logSeams n (lineViews c x n) o.seamLog } }
    if n % 256 = 255 then flushBlocks c else c

/-- No trigger has come for a time in ns. DEDUCED: log entry 109. -/
def quietFor (ns : Nat) (c : Chip) : Bool := (c.trig.lastTrigger.map fun t => decide (t + ns ≤ c.now)).getD true

/-- ORANGERY_FLUSH_TIMEOUT (R247). DEDUCED: log entry 109. -/
def execOrangeryFlushTimeout (t : Nat) (s : State) : Host.Outcome State Fault Refusal :=
  .next (s.run t fun _ c => if quietFor (c.orangery.flushMs * 1000000) c then flushBlocks c else c)

/-- Jobs queued or running. -/
def jobsLive (o : Orangery) : List LbJob := o.jobs.filter fun j => !j.finished

/-- A new job joins the queue; of finished jobs the newest 256 are kept. DESIGN CHOICE: log entry 102. -/
def addJob (j : LbJob) (c : Chip) : Chip :=
  modOrangery (fun o =>
    let old := o.jobs.filter (·.finished)
    { o with jobs := old.drop (old.length - 256) ++ jobsLive o ++ [j], nextJob := nextTxId j.id }) c

/-- The channel a retrieval would take now. -/
def jobChannel (c : Chip) (j : LbJob) : Option Nat :=
  let want := rd j.request 26 1
  ([12, 13, 14, 15].filter fun ch => want == 0xFF || ch == want).find? fun ch =>
    channelFree c ch 4 && (vget c.pcie.dma ch).owner != 4

/-- A waiting job can start now (R148, R255, R262). DESIGN CHOICE: log entry 102. -/
def canStart (c : Chip) (j : LbJob) : Bool :=
  !j.running && !j.finished && (if j.replay then c.health.level == 0 && c.engines.spare.isSome && !replaying c else (jobChannel c j).isSome)

/-- The waiting job that starts next: jobs start in the order of their requests, but a replay that has to wait for its engine or for
the release of enforcement holds back no retrieval (R255, R256, R262). DESIGN CHOICE: log entry 102. -/
def jobInTurn (c : Chip) : Option LbJob :=
  (((jobsLive c.orangery).filter fun j => !j.running && (!j.replay || canStart c j)).head?).filter (canStart c)

/-- The blocks in progress with lines that a job needs are flushed (R247). -/
def flushFor (j : LbJob) (c : Chip) : Chip :=
  let needed := LbJob.blocks c.orangery j
  flushLanes ((List.range 16).filter fun l => ((blockInProgress c.orangery l).map needed.contains).getD false) c

/-- The configuration a replay takes from a transaction's entries, over the one in force (R259). DEDUCED: log entry 103. -/
def replayConfig (es : List Entry) (c : Chip) : Chip :=
  es.foldl (fun c e => match e.code with
    | 0x0502 => referenceApply 0 e.payload c
    | 0x0503 => detectionApply e.payload c
    | 0x0504 => filtersApply e.payload c
    | _ => labellingApply e.payload c) c

/-- Every entry is of a kind a replay takes and is valid, the line store included (R177, R182, R213). -/
def replayEntriesOk (es : List Entry) (c : Chip) : Bool :=
  let new := replayConfig es c
  (es.isEmpty || decide (lineStoreTotal new ≤ 8388608)) &&
  es.zipIdx.all fun (e, i) => match e.code with
    | 0x0502 => referenceValid e.payload new
    | 0x0503 => detectionValid (fun _ => false) e.payload new
    | 0x0504 => filtersValid (inForce es i e) e.payload new
    | 0x0505 => labellingValid e.payload
    | _ => false

/-- Detection as a replay starts: the settings of its job, and the entries of the region's columns as they are now, or at n = 0
(R259, R260). -/
def replayDet (c : Chip) (j : LbJob) (d : Det) : Det :=
  let snap := bit (rd j.request 32 1) 0
  { d with
    model := if snap then c.det.model.drop (regionGrid c.orangery j.region).1 else [], profile := if snap then c.det.profile else 0
    rows := [], out := [], delivered := none, last := none, resets := [], stat := [], verdictUntil := 0, accA := [], accB := [], runA := 0, runB := 0
    due := none, paired := false }

/-- The entries a replay runs with: those of its transaction as they stand at its start, or as they stood at the request where it is open no
more or has taken one a replay does not take (R259). DEDUCED: log entry 103. -/
def replayEntries (j : LbJob) (c : Chip) : List Entry :=
  match openTx c (rd j.request 24 4) with
  | some x => if replayEntriesOk x.entries c then x.entries else j.entries
  | none => j.entries

/-- A replay starts, with a copy of its parameters (R259). -/
def startReplay (j : LbJob) (c : Chip) : Chip :=
  let k := if rd j.request 24 4 = 0 then c else replayConfig (replayEntries j c) c
  modJob j.id (fun j => { j with
    running := true, det := some (replayDet c j k.det), carryCfg := (k.carry.planeSelect, k.carry.segmentLinesLog2, k.carry.minArea) }) c

/-- LOOKBACK_JOB_START: the waiting job whose turn it is starts, while a decoder is free and no Lodge restart makes it wait (R25, R255,
R256). DESIGN CHOICE: log entry 102. -/
def jobStart (c : Chip) : Chip :=
  if 4 ≤ (c.orangery.jobs.filter (·.running)).length ∨ mode c = 3 ∨ lodgeRestarts c then c
  else match jobInTurn c with
    | none => c
    | some j =>
      let c := flushFor j c
      if j.replay then startReplay j (interruptShadow c)
      else match jobChannel c j with
        | some ch => modJob j.id (fun j => { j with running := true, channel := some ch }) (takeChannel ch 4 c)
        | none => c

/-- Jobs that still wait once the decoders have taken what they can (R255). -/
def jobsWaiting (c : Chip) : Nat :=
  ((jobsLive ((List.range 4).foldl (fun c _ => jobStart c) c).orangery).filter fun j => !j.running).length

def execLookbackJobStart (t : Nat) (s : State) : Host.Outcome State Fault Refusal :=
  .next (s.run t fun _ c => jobStart c)

/-- Line n of a job is read: a missing one is counted, and the first raises EV_LOOKBACK_OVERWRITTEN (R254). The spec gives no cause
code for a block missing under R430, so that one is free (0 or 1). DEDUCED: log entry 110. -/
def noteMissing (n : Nat) (j : LbJob) (c : Chip) : LbJob × Chip :=
  let (lo, w) := regionGrid c.orangery j.region
  match lineCause (j.asRead c).orangery n lo (lo + w - 1) with
  | none => (j, c)
  | some k =>
    let c := if j.linesMissing ≠ 0 then c
      else
        let (x, c) := if k = 2 then freeNat c else (k, c)
        raise 0x0801 2 0x7F (le 4 j.id ++ le 1 (x % 2) ++ [0] ++ le 6 n) c
    ({ j with linesMissing := j.linesMissing + 1 }, c)

/-- A job ends: its channel goes back, and EV_LOOKBACK_DONE (R256). -/
def jobEnds (j : LbJob) (status done : Nat) (c : Chip) : Chip :=
  let c := modJob j.id (fun k => { k with
    running := false, finished := true, status, linesDone := done, linesMissing := j.linesMissing, channel := none, det := none, got := [], runs := []
    lastLine := none, lastValid := [] }) c
  let c := match j.channel with
    | some ch => freeChannel ch c
    | none => c
  raise 0x0800 0 0x7F (le 4 j.id ++ le 2 status ++ le 1 (b2n j.replay) ++ [0] ++ le 4 done) c

/-- The tags of a retrieval (R253); a line that is not in the index has none, so its bytes are free. DESIGN CHOICE: log entry 107. -/
def writeTags (addr : Nat) (ns : List Nat) (c : Chip) : Chip :=
  ns.foldl (fun c n =>
    let (bs, c) := match indexOf c.orangery n with
      | some ix => (tagBytes ix.tag, c)
      | none => freeBytes 32 c
    writeData (addr + 32 * (n - ns.headD 0)) bs c) c

/-- A retrieval delivers its pixels and tags (R253, R254); a stream that does not fit fails the whole job, of which nothing is
reported (R289). DESIGN CHOICE: log entry 107. -/
def retrieve (j : LbJob) (c : Chip) : Chip :=
  let c := flushFor j c
  let p := j.request
  let format := rd p 24 1
  let level := rd p 25 1
  let (lo, w) := regionGrid c.orangery j.region
  let ns := (List.range j.lines).map (j.first + ·)
  let cols := (List.range w).map fun (i : Nat) => ((lo + i : Nat) : Int)
  let rows := ns.map fun n => (readColumns (j.asRead c) n cols).flatMap fun x => pixelBytes format false (if x.valid then some x.grey else none)
  let dest := rd p 32 8
  let stream := if level = 0 then [] else deflate 1 level false rows.flatten
  let (j, c) := ns.foldl (fun (j, c) n => noteMissing n j c) (j, c)
  if rd p 40 8 < stream.length then
    let (k, c) := freeNat c
    let (junk, c) := freeBytes (k % (rd p 40 8 + 1)) c
    jobEnds j stNoSpace 0 (writeData dest junk c)
  else
    let c := if level = 0 then (rows.zip (List.range rows.length)).foldl (fun c (x, i) =>
        writeData (dest + rd p 28 4 * i) (x ++ zeros (rd p 28 4 - x.length)) c) c
      else writeData dest stream c
    let c := if rd p 48 8 = 0 then c else writeTags (rd p 48 8) ns c
    jobEnds j (if j.linesMissing = 0 then stOk else stNotFound) j.lines c

/-! ### Replay (R195, R259 to R262) -/

/-- Settings a replay runs with, from the copy made at its start. DEDUCED: log entry 103. -/
def replaySettings (c : Chip) (j : LbJob) (d : Det) : Settings :=
  let ix := (indexOf c.orangery j.first).getD { tag := default, cdPitch := 0, column0 := 0, columnCount := 0 }
  { settingsOf c with
    geo := { c.trig.geo with cdPitch := ix.cdPitch, column0 := ix.column0, columnCount := ix.columnCount }
    reference := d.reference, bands := d.bands, planes := d.planes, filters := d.filters, streak := d.streak
    fd := (maxHeight d.filters - 1) / 2 + (maxMorph d.planes - 1) / 2
    planeSelect := j.carryCfg.1, segmentLinesLog2 := j.carryCfg.2.1, minArea := j.carryCfg.2.2, firstColumn := (regionGrid c.orangery j.region).1 }

/-- A stored line as the replay datapath takes it: the region's columns alone (R260); a line that is not in the index is invalid
throughout, and one with a missing block carries coverage-reduced (R261). -/
def replayLine (c : Chip) (lo w n : Nat) : Stitched :=
  let tag := ((indexOf c.orangery n).map (·.tag)).getD { (default : Tag) with number := n }
  let missing := (lineCause c.orangery n lo (lo + w - 1)).isSome
  { tag := { tag with flags := if missing then Nat.lor tag.flags 4 else tag.flags }
    columns := readColumns c n ((List.range w).map fun (i : Nat) => ((lo + i : Nat) : Int)) }

/-- A replay under way: its job with its progress, its detection, and whether it waits for labels. -/
structure Replay where
  job : LbJob
  det : Det
  chip : Chip
  blocked : Bool := false

/-- The label table as a replay uses it: its own open blobs and last line, and the labels of all others taken (R195). -/
def Carry.forReplay (k : Carry) (x : Settings) (j : LbJob) : Carry :=
  { k with
    planeSelect := x.planeSelect, segmentLinesLog2 := x.segmentLinesLog2, minArea := x.minArea, open_ := k.replay, replay := k.open_, regions := []
    exhausted := false, runs := j.runs, lastLine := j.lastLine, lastMd := j.lastMd, grid := (x.geo.cdPitch, x.geo.column0, x.geo.columnCount)
    lastValid := j.lastValid }

/-- The label table after a replay has used it: the blobs it closed count their columns on the web line. -/
def Carry.afterReplay (live k : Carry) (x : Settings) : Carry :=
  let old := live.closed.length
  { live with
    replay := k.open_, nextKey := k.nextKey, chains := k.chains, fifoPeak := k.fifoPeak, minFree := k.minFree
    closed := k.closed.mapIdx fun i y => if i < old then y else { y with blob := { Blob.shift y.blob x.firstColumn with replayed := true } } }

/-- New labels that a mask line needs: its runs that touch no run of an open blob (R187). -/
def freshRuns (x : Settings) (k : Carry) (mask : List Nat) : Nat :=
  ((runsOf (mask.map fun v => Nat.land v x.planeSelect) 0 none).filter fun r => (touched k r.1 r.2).isEmpty).length

/-- Labels the next line of a replay's region; a line that needs a new label while 1 024 or fewer are free waits (R195, R261).
DEDUCED: log entries 103 and 104. -/
def Replay.label (x : Settings) (r : Replay) : Replay :=
  match rowOf r.det.rows (r.job.first + r.job.labelled) with
  | none => { r with job := { r.job with labelled := r.job.labelled + 1 } }
  | some row =>
    let live := r.chip.carry
    let k := live.forReplay x r.job
    let mask := maskOf (fun _ => x) r.det.rows row
    let need := freshRuns x k mask
    if r.blocked || (need != 0 && decide (k.free < 1024 + need)) then { r with blocked := true }
    else
      let c := labelMask x { line := row.line, mask, model := row.model } { r.chip with carry := k, gang := {} }
      { r with
        job := { r.job with labelled := r.job.labelled + 1, runs := c.carry.runs, lastLine := c.carry.lastLine, lastMd := c.carry.lastMd, lastValid := c.carry.lastValid }
        chip := { c with carry := live.afterReplay c.carry x, gang := r.chip.gang } }

/-- Labels the lines of a replay's region that are due, up to a number of lines. -/
def Replay.catchUp (x : Settings) (upto : Nat) (r : Replay) : Replay :=
  (List.range (upto - r.job.labelled)).foldl (fun r _ => r.label x) r

/-- Line i of a replay, its warm-up first, goes through detection, once the masks due before it are labelled. -/
def Replay.line (x : Settings) (w i : Nat) (r : Replay) : Replay :=
  let r := r.catchUp x (i - r.job.warmup - x.fd)
  if r.blocked then r
  else
    let n := r.job.first - r.job.warmup + i
    let det := r.det.process x true true false (replayLine (r.job.asRead r.chip) x.firstColumn w n)
    let (job, chip) := if i < r.job.warmup then (r.job, r.chip) else noteMissing n r.job r.chip
    { r with det, job := { job with taken := i + 1 }, chip }

/-- Runs a replay on, up to a number of lines of its region. -/
def runReplay (j : LbJob) (d : Det) (lines : Nat) (c : Chip) : Replay :=
  let x := replaySettings c j d
  let w := (regionGrid c.orangery j.region).2
  let stop := if lines = 0 then j.taken else j.warmup + lines
  let r := ((List.range (stop - j.taken)).map (j.taken + ·)).foldl (fun (r : Replay) i => r.line x w i) { job := j, det := d, chip := c }
  r.catchUp x lines

/-- Closes what a replay has open: as partial where it was ended early (R188, R262). DEDUCED: log entry 103. -/
def Replay.close (x : Settings) (part : Bool) (r : Replay) : Chip :=
  let live := r.chip.carry
  let k := live.forReplay x r.job
  let (k, small) := closeBlobs { low := false, high := false, lowOpen := false, highOpen := false, position := 0 } x.minArea part k.open_ k
  countSmall small { r.chip with carry := live.afterReplay (stampRefs ((r.det.rows.head?.map (·.model)).getD []) x.reference k) x }

/-- A replay runs to its end, or until it waits for labels, when it keeps its progress (R195); one pre-empted, or struck by an
uncorrectable read of its model entries (R430), ends after a number of lines that is free. DEDUCED: log entries 104 and 186. -/
def replayEnds (j : LbJob) (struck : Bool) (c : Chip) : Chip :=
  match j.det with
  | none => jobEnds j stAborted 0 c
  | some d =>
    let cut := j.preempted || struck
    let (k, c) := if cut then freeNat c else (j.lines, c)
    let done := j.taken - j.warmup
    let r := runReplay j d (if cut then done + k % (j.lines - done + 1) else j.lines) (flushFor j c)
    if r.blocked && !cut then modJob j.id (fun _ => { r.job with det := some r.det }) r.chip
    else
      jobEnds r.job (if j.preempted then stAborted else if struck then stHwFault else if r.job.linesMissing = 0 then stOk else stNotFound) r.job.labelled
        (r.close (replaySettings c j d) cut)

/-- LOOKBACK_JOB_DONE: a running job ends, or a replay that has to wait for labels goes on as far as it can. A retrieval needs the host link; a replay is suspended at thermal level 1 or above
(R262). The reads with errors it met come first. -/
def jobDone (id : Nat) (errors : List ReadError) (c : Chip) : Chip :=
  match c.orangery.jobs.find? fun j => j.id == id && j.running with
  | none => c
  | some j =>
    if j.replay then
      (if c.health.level ≠ 0 ∧ !j.preempted then c
       else replayEnds j (errors.any fun e => e.hit == .model && readFails e) (takeReads errors c))
    else if hostWrites c then retrieve j (takeReads errors c) else c

def execLookbackJobDone (t job : Nat) (errors : List ReadError) (s : State) : Host.Outcome State Fault Refusal :=
  .next (s.run t fun _ c => jobDone job errors c)

/-! ### Late tiles (R209) -/

/-- LATE_TILE_DELIVERY: the oldest slot, where it waits for the Orangery, is written with the tile, or with status 1 where the
tile did not come in time, a block of it is missing, or a line of it has not been stitched. The decoder's reads with errors come first
(R430). DEDUCED: log entry 108. -/
def lateTile (inTime : Bool) (errors : List ReadError) (c : Chip) : Chip :=
  match c.tiles.jobs with
  | [] => c
  | j :: _ =>
    if !j.fromLookback || !tileRingOpen c || (inTime && !tileEngine c j) then c
    else
      let c := takeReads errors c
      let rows : List Int := (List.range j.size).map fun (i : Nat) => j.n0 + i
      let cols : List Int := (List.range j.size).map fun (i : Nat) => j.c0 + i
      let lo := (max 0 j.c0).toNat
      let hi := (j.c0 + j.size - 1).toNat
      let held (n : Int) : Bool := decide (0 ≤ n) && decide (n < c.perg.next)
      let found := inTime && rows.all fun (n : Int) => held n && (lineCause c.orangery n.toNat lo hi).isNone
      let pixels := rows.flatMap fun n => if !held n then cols.map fun _ => none
        else (readColumns c n.toNat cols).map fun x => if x.valid then some x.grey else none
      let eight := (allBlocks c.orangery).any fun b => b.depth8 && rows.any fun n => held n && b.meets n.toNat lo hi
      let md := ((indexOf c.orangery j.n0.toNat).map (·.tag.md)).getD j.mdTop
      writeTile { j with pixels, mdTop := md, reduced := found && eight && j.format == 1 } found c

def execLateTileDelivery (t : Nat) (inTime : Bool) (errors : List ReadError) (s : State) : Host.Outcome State Fault Refusal :=
  .next (s.run t fun _ c => lateTile inTime errors c)

/-! ### Commands (R257, R258, R270) -/

/-- LOOKBACK.CONFIGURE. -/
def lookbackConfigure (_ : Env) (j : Job) (c : Chip) : Reply :=
  let p := j.payload
  let f := rd p 0 1
  let top := maxRingGib c
  let gib := if rd p 4 4 = 0 then top else rd p 4 4
  let first := bit f 0 && !c.orangery.everEnabled
  let resize := gib != ringGibNow c
  checked
    [lenIs 16 j, param 0 (f < 4), reserved p 1 3, param 4 (rd p 4 4 ≤ top), inRange p 8 4 10 10000, reserved p 12 4,
     stateRule c (!(first || resize) || mode c == 3 || mode c == 4)] c
    (let c := if first || resize then discardHistory c else if c.orangery.enable && !bit f 0 then flushBlocks c else c
     let c := modOrangery (fun o => { o with
       enable := bit f 0, depth8 := bit f 1, ringGib := gib, flushMs := rd p 8 4, everEnabled := o.everEnabled || bit f 0 }) c
     let n := ringExtents c
     replyBody (le 8 (n * extentBytes) ++ le 4 n ++ le 4 (n / 4)) c)

def execLookbackConfigure (t : Nat) (mb : Fin 8) (s : State) : Host.Outcome State Fault Refusal :=
  .next (s.command 0x0800 t mb lookbackConfigure)

/-- LOOKBACK.RETRIEVE. -/
def lookbackRetrieve (_ : Env) (j : Job) (c : Chip) : Reply :=
  let p := j.payload
  let o := c.orangery
  let r := regionOf p 0
  let (first, lines) := regionSpan o r
  let w := (regionGrid o r).2
  let ch := rd p 26 1
  let raw := rd p 25 1 == 0
  let line := w * (1 + rd p 24 1)
  checked
    (lenIs 56 j :: regionChecks c p 0 65535 262144 ++
     [inRange p 24 1 0 1, inRange p 25 1 0 4, param 26 (ch == 0xFF || (12 ≤ ch && ch ≤ 15)), reserved p 27 1,
      param 28 (!raw || (rd p 28 4 % 32 == 0 && decide (line ≤ rd p 28 4))), param 32 (rd p 32 8 % 32 == 0), param 48 (rd p 48 8 % 32 == 0),
      stateRule c (lookbackServes c), ownRule stBusy (decide (jobsWaiting c < 16)), ownRule stNoSpace (!raw || decide (lines * rd p 28 4 ≤ rd p 40 8))]) c
    (let c := addJob { id := o.nextJob, replay := false, region := r, first, lines, request := p } c
     { status := stPending, body := le 4 o.nextJob ++ le 4 lines ++ le 4 w ++ zeros 4 ++ le 8 first, chip := c })

def execLookbackRetrieve (t : Nat) (mb : Fin 8) (s : State) : Host.Outcome State Fault Refusal :=
  .next (s.command 0x0801 t mb lookbackRetrieve)

/-- Oldest line of which every block is still stored. -/
def oldestHeld (o : Orangery) : Option IndexLine :=
  o.index.reverse.find? fun i => (lineCause o i.tag.number 0 (i.columnCount - 1)).isNone

/-- LOOKBACK.REPLAY. -/
def lookbackReplay (_ : Env) (j : Job) (c : Chip) : Reply :=
  let p := j.payload
  let o := c.orangery
  let r := regionOf p 0
  let id := rd p 24 4
  let (first, lines) := regionSpan o r
  let es := ((openTx c id).map (·.entries)).getD []
  let warm := if bit (rd p 32 1) 0 then 0 else min (rd p 28 4) (first - ((oldestHeld o).map (·.tag.number)).getD first)
  checked
    (lenIs 40 j :: regionChecks c p 0 16777216 32768 ++
     [ownParam 24 (id == 0 || (openTx c id).isNone || replayEntriesOk es c), inRange p 28 4 0 65536, param 32 (rd p 32 1 < 2), reserved p 33 7,
      stateRule c (lookbackServes c), ownRule stBusy (decide (jobsWaiting c < 16) && !(jobsLive o).any (·.replay)),
      ownRule stNotFound (id == 0 || (openTx c id).isSome), ownRule stNotReady c.engines.spare.isSome]) c
    (let new : LbJob := { id := o.nextJob, replay := true, region := r, first, lines, request := p, warmup := warm, entries := es }
     { status := stPending, body := le 4 o.nextJob ++ le 4 lines ++ le 4 (regionGrid o r).2 ++ le 4 warm, chip := addJob new c })

def execLookbackReplay (t : Nat) (mb : Fin 8) (s : State) : Host.Outcome State Fault Refusal :=
  .next (s.command 0x0802 t mb lookbackReplay)

/-- LOOKBACK.PIN, action 1: the blocks of the region keep their extents, those still to be written the ones they come to lie in (R257,
R258). DEDUCED: log entry 105. -/
def pinRegion (p : List Byte) (c : Chip) : Reply :=
  let o := c.orangery
  let r := regionOf p 8
  let (first, lines) := regionSpan o r
  let (lo, w) := regionGrid o r
  let blocks := (regionBlocks o first lines lo w).filter fun b => b.missing.isNone
  let extents := (blocks.flatMap (·.extents)).eraseDups
  let total := (pinnedExtents o ++ extents).eraseDups.length
  let held := ((List.range lines).map (first + ·)).filter fun n => (lineCause o n lo (lo + w - 1)).isNone
  if ringExtents c / 4 < total then reply stNoSpace c
  else
    let awaits := (blocks.filter fun b => b.extents.isEmpty).map fun b => (b.lane, b.first)
    let c := modOrangery (fun o => { o with pins := o.pins ++ [{ id := rd p 0 1, extents, awaits }] }) c
    let (free, c) := if held.isEmpty then freeNat c else (held.headD 0, c)
    { status := if held.length = lines then stOk else stNotFound, body := le 4 extents.length ++ le 4 total ++ le 8 free, chip := c }

/-- LOOKBACK.PIN. DESIGN CHOICE: log entry 106. -/
def lookbackPin (_ : Env) (j : Job) (c : Chip) : Reply :=
  let p := j.payload
  let o := c.orangery
  let pin := rd p 1 1 == 1
  let used := o.pins.any fun x => x.id == rd p 0 1
  checked
    ([lenIs 32 j, inRange p 0 1 0 15, inRange p 1 1 0 1, reserved p 2 6] ++ (if pin then regionChecks c p 8 65535 262144 else []) ++
     [stateRule c (lookbackServes c && !(pin && used)), ownRule stNotFound (pin || used)]) c
    (if pin then pinRegion p c
     else
       let c := modOrangery (fun o => { o with pins := o.pins.filter fun x => x.id != rd p 0 1 }) c
       let (free, c) := freeNat c
       replyBody (le 4 0 ++ le 4 (pinnedExtents c.orangery).length ++ le 8 free) c)

def execLookbackPin (t : Nat) (mb : Fin 8) (s : State) : Host.Outcome State Fault Refusal :=
  .next (s.command 0x0803 t mb lookbackPin)

/-- The oldest line held whole and the newest stored: number, MD, number and ms between the two; free values where nothing is
held. DESIGN CHOICE: log entry 106. -/
def heldFields (c : Chip) : List Byte × Chip :=
  let o := c.orangery
  match oldestHeld o, o.index.head? with
  | some a, some b =>
    let ns (t : Tag) : Nat := t.timeS * 1000000000 + t.timeNs
    (le 8 a.tag.number ++ le 8 a.tag.md ++ le 8 b.tag.number ++ le 4 ((ns b.tag - ns a.tag) / 1000000), c)
  | _, _ => freeBytes 28 c

/-- LOOKBACK.STATUS (R250). DESIGN CHOICE: log entry 102. -/
def lookbackStatus (_ : Env) (j : Job) (c : Chip) : Reply :=
  let id := rd j.payload 0 4
  let job := c.orangery.jobs.find? fun x => x.id == id
  checked [lenIs 4 j, ownRule stNotFound (id == 0 || job.isSome)] c
    (let (held, c) := heldFields c
     let o := c.orangery
     let log := o.writtenLog.filter fun w => decide (c.now < w.1 + 1000000000)
     let coded := log.foldl (fun n w => n + w.2.1) 0
     let (free, c) := if coded = 0 then freeNat c else (0, c)
     let ratio := if coded = 0 then free else log.foldl (fun n w => n + w.2.2) 0 * 1000 / coded
     let last := match job with
       | some x => le 2 (if x.finished then x.status else stPending) ++ le 4 x.linesDone ++ le 4 x.linesMissing
       | none => zeros 10
     let depth8 := if o.spanSeen then o.spanDepth8 else storesEight c
     replyBody (held ++ le 4 ratio ++ le 8 coded ++ le 4 (pinnedExtents o).length ++ le 4 o.blocksLost ++ le 1 (if depth8 then 8 else 12) ++
       le 1 (o.jobs.filter (·.running)).length ++ le 1 ((jobsLive o).filter fun x => !x.running).length ++ le 1 o.pins.length ++ le 2 o.stagingPeak ++ last)
       (modOrangery (fun o => { o with stagingPeak := stagingFill o }) c))

def execLookbackStatus (t : Nat) (mb : Fin 8) (s : State) : Host.Outcome State Fault Refusal :=
  .next (s.command 0x0804 t mb lookbackStatus)

end Sys2Proof.Machine
end

