-- ==== Sys2Proof/Machine/View.lean ====
section
/-! DEFINITION. The Belvedere of chapter 9 (R264 to R272; its rows are in Rows), and the two steps of the line path that feed it: the assembly of a
stitched line and its labelling. -/
namespace Sys2Proof.Machine

/-! ### Boxes (R264) -/

/-- The box of a record that has a tile (R264): drawn in the rows the buffer holds and in those to come, or late. DEDUCED: log entry 111. -/
def View.box (b : ViewBox) (v : View) : View :=
  if !v.started || !v.cfg.overlay || !v.cfg.boxes then v
  else
    let d := max 1 v.cfg.mdDecimation
    let oldest := ((v.rows.getLast?).map (·.r)).or ((v.current.head?).map fun m => m.line.tag.number / d)
    let newest := (v.rows.head?).map (·.r)
    if (oldest.map fun r => decide (b.first / d < r)).getD false then { v with lateBoxes := v.lateBoxes + 1 }
    else
      let rest := (newest.map fun r => decide (r < b.last / d)).getD true
      { v with rows := v.rows.map fun x => x.draw v.cfg b, boxes := if rest then v.boxes ++ [b] else v.boxes }

/-- A box is offered to every stream. -/
def viewBox (b : ViewBox) (c : Chip) : Chip := { c with view := vmapIdx (fun _ v => v.box b) c.view }

/-! ### The line path -/

/-- STITCHED_LINE_ASSEMBLY: the line is assembled, stored, sampled by the Rotunda and, in RELAY, taken by the views at once
(R133, R243, R229, R269). -/
def assembly (c : Chip) : Chip :=
  if !canAssemble c then c
  else
    let n := c.perg.next
    let x := settingsAt c n
    let c := assembleLine c
    match c.perg.recent.head? with
    | none => c
    | some line =>
      let c := rotundaLine x n (storeLine x line.tag c)
      if c.modes.base = .relay then viewLine { line, mask := line.columns.map fun _ => 0 } c else c

def execStitchedLineAssembly (t : Nat) (s : State) : Host.Outcome State Fault Refusal :=
  .next (s.run t fun _ c => assembly c)

/-- LABEL_LINE: the oldest mask line is labelled. -/
def execLabelLine (t : Nat) (s : State) : Host.Outcome State Fault Refusal :=
  .next (s.run t fun _ c => labelLine c)

/-! ### Frames (R265 to R269) -/

/-- The frame of a stream is dropped: counted, and reported at most once per second and stream, with the frames dropped unreported under
enforcement (R268, R272). DEDUCED: log entry 111. -/
def dropFrame (k cause : Nat) (c : Chip) : Chip :=
  let v := vget c.view k
  raiseLimited 0x0700 1 k k (le 1 k ++ le 1 cause ++ zeros 4 ++ le 6 (v.firstDropped.getD v.frameNumber)) 2 4 false (v.unreported + 1)
    { c with view := vset c.view k { v with dropped := satU 32 (v.dropped + 1), unreported := 0, firstDropped := none } }

/-- A frame due under enforcement is dropped: counted for the next event, as the stream has raised its one event (R268, R269). -/
def dropSuspended (k : Nat) (c : Chip) : Chip :=
  { c with view := vmod c.view k fun v => { v with
    dropped := satU 32 (v.dropped + 1), unreported := v.unreported + 1, firstDropped := v.firstDropped.or (some v.frameNumber) } }

/-- A started stream is suspended by enforcement: one event with cause 2, which reports the frames dropped since the last event, also those
of an open second of collection (R269, R272). DEDUCED: log entry 113. -/
def suspendView (k : Nat) (c : Chip) : Chip :=
  let v := vget c.view k
  if !v.started || v.suspended then c
  else
    let mine (w : RateWindow) : Bool := w.code == 0x0700 && w.key == k
    let (n, first) := match c.rates.find? fun w => mine w && w.collected != 0 with
      | some w => (w.collected, sliceB w.payload 6 6)
      | none => (0, le 6 (v.firstDropped.getD v.frameNumber))
    raise 0x0700 1 k (le 1 k ++ le 1 2 ++ le 4 (satU 32 (v.unreported + n)) ++ first)
      { c with
        rates := c.rates.map fun w => if mine w then { w with collected := 0 } else w
        view := vset c.view k { v with suspended := true, unreported := 0, firstDropped := none } }

/-! ### Where a stream goes (R267) -/

/-- The address the frames of a stream go to next: the destination, or the gateway where it lies outside the port's network. PRESUMED: log entry 252. -/
def nextHop (e : EthPort) (ip : Nat) : Nat := if Nat.land ip e.netmask = Nat.land e.ipv4 e.netmask then ip else e.gateway

/-- The MAC a stream's packets go to: its setting, or what ARP has resolved (R267). -/
def destMac (c : Chip) (v : ViewCfg) : Option Nat :=
  let e := vget c.time.eth (v.delivery - 1)
  if v.destMac ≠ 0 then some v.destMac else (e.arp.find? fun y => y.1 == nextHop e v.destIp).map (·.2)

/-- Borusk firmware asks for an unresolved destination by ARP (R267). PRESUMED: log entry 252. -/
def arpRequest (v : ViewCfg) (c : Chip) : Chip :=
  if v.delivery = 0 ∨ (destMac c v).isSome ∨ lodgeRestarts c then c
  else
    let k := v.delivery - 1
    let e := vget c.time.eth k
    emit (.eth k 2 (ethTo c k (2 ^ 48 - 1) (nextHop e v.destIp) 0)
      (be 2 1 ++ be 6 (portMac c k) ++ be 4 e.ipv4 ++ zeros 6 ++ be 4 (nextHop e v.destIp))) c

/-- A plane of a frame. -/
def planeBytes (v : ViewCfg) (f : Row → List Nat) (rows : List Row) : List Byte :=
  rows.flatMap fun r => fit v.pitch ((f r).map (BitVec.ofNat 8))

/-- The frame header (R266). `rows` newest first; trigger and MD of a frame without rows are free. DEDUCED: log entry 111. -/
def frameHeader (k : Nat) (v : View) (rows : List Row) (c : Chip) : List Byte × Chip :=
  let (s, ns) := clock c
  let new := (rows.filter fun r => (v.lastRow.map fun m => decide (m < r.r)).getD true).length
  let flags := packBits [v.cfg.overlay, rows.any (·.coverageReduced), rows.any (·.timeDegraded), decide (rows.length < v.cfg.frameHeight)]
  let (newest, c) := match rows.head? with
    | some r => (le 8 r.newestTrigger ++ le 8 r.newestMd, c)
    | none => freeBytes 16 c
  (le 8 v.frameNumber ++ timeBytes s ns ++ le 1 k ++ le 1 flags ++ le 2 v.cfg.width ++ le 2 rows.length ++ le 2 v.cfg.pitch ++
    le 2 (satU 16 new) ++ zeros 4 ++ newest ++ zeros 16, c)

/-- Luma of an output pixel (R267). -/
def luma (g : Nat) : Nat := 16 + (219 * g + 127) / 255

/-- The four octets of a pixel pair, Cb, Y0, Cr, Y1 (R267). -/
def pairBytes (g0 g1 o0 o1 : Nat) : List Byte :=
  let (cb, cr) := if bit o0 1 || bit o1 1 then (240, 110) else if bit o0 0 || bit o1 0 then (90, 240) else (128, 128)
  [BitVec.ofNat 8 cb, BitVec.ofNat 8 (luma g0), BitVec.ofNat 8 cr, BitVec.ofNat 8 (luma g1)]

/-- Octets of pixel data a packet may carry: its payload less the extended sequence number and one line header. -/
def ViewCfg.room (v : ViewCfg) : Nat := max 4 ((v.packetPayload - 8) / 4 * 4)

/-- The RTP timestamp (R267). -/
def rtpTime (c : Chip) : Nat := sunNs c * 9 / 100000 % 2 ^ 32

/-- One packet: RTP header, extended sequence number, line header, pixel pairs (RFC 3550, RFC 4175). DESIGN CHOICE: log entry 112. -/
def rtpPacket (v : View) (time line offset : Nat) (last : Bool) (data : List Byte) : List Byte :=
  [0x80, BitVec.ofNat 8 (v.cfg.payloadType % 128 + 128 * b2n last)] ++ be 2 v.rtpSequence ++ be 4 time ++ be 4 v.ssrc ++
  be 2 (v.rtpSequence / 65536) ++ be 2 data.length ++ be 2 (line % 32768) ++ be 2 (offset % 32768) ++ data

/-- Sends the packets of a frame: per packet the line, its first pixel and its octets. DESIGN CHOICE: log entry 112. -/
def sendPackets (k port mac time : Nat) : List (Nat × Nat × List Byte) → Chip → Chip
  | [], c => c
  | (line, off, data) :: rest, c =>
    let v := vget c.view k
    let c := emit (.eth port 0 (ethTo c port mac v.cfg.destIp v.cfg.destPort) (rtpPacket v time line off rest.isEmpty data)) c
    sendPackets k port mac time rest { c with view := vset c.view k { v with
      rtpSequence := wrapU 32 (v.rtpSequence + 1), packets := wrapU 32 (v.packets + 1), octets := wrapU 32 (v.octets + 8 + data.length) } }

/-- The packets of a frame, row after row, oldest row first. -/
def framePackets (v : ViewCfg) (rows : List Row) : List (Nat × Nat × List Byte) :=
  (rows.mapIdx fun i r =>
    let data := (List.range (v.width / 2)).flatMap fun j =>
      pairBytes (r.grey.getD (2 * j) 0) (r.grey.getD (2 * j + 1) 0) (r.overlay.getD (2 * j) 0) (r.overlay.getD (2 * j + 1) 0)
    (chunks v.room data.length data).mapIdx fun m d => (i, m * v.room / 2, d)).flatten

/-- Modes in which frames are emitted (R269). -/
def viewModes (c : Chip) : Bool := [5, 6, 7, 9, 10].contains (mode c)

/-- FRAME_EMIT: the frame time of a stream. DEDUCED: log entry 113. -/
def frameEmit (k : Nat) (rowsRead transmitRoom : Bool) (error : Option ReadError) (c : Chip) : Chip :=
  let v := vget c.view k
  if !v.started then c
  else if c.health.level ≠ 0 then (if triggering c then dropSuspended k c else c)
  else if !viewModes c then c
  else
    let rows := v.rows.take v.cfg.frameHeight
    let c := takeReads (error.toList.map fun e => { e with hit := .rows }) c
    if !rowsRead || error.any readFails then dropFrame k 3 c
    else if v.cfg.delivery = 0 then
      if !v.ring.enabled || v.ring.full || !hostWrites c then dropFrame k 0 c
      else
        let (header, c) := frameHeader k v rows c
        let planes := planeBytes v.cfg (·.grey) rows.reverse ++ (if v.cfg.overlay then planeBytes v.cfg (·.overlay) rows.reverse else [])
        let (ring, c) := ringPut v.ring (header ++ planes) 0 v.dropped c
        { c with view := vset c.view k { v with ring, frameNumber := v.frameNumber + 1, lastRow := ((rows.head?).map (·.r)).or v.lastRow } }
    else match destMac c v.cfg, transmitRoom with
    | none, _ => dropFrame k 1 (arpRequest v.cfg c)
    | _, false => dropFrame k 1 c
    | some mac, true =>
      let c := sendPackets k (v.cfg.delivery - 1) mac (rtpTime c) (framePackets v.cfg rows.reverse) c
      { c with view := vmod c.view k fun v => { v with frameNumber := v.frameNumber + 1, lastRow := ((rows.head?).map (·.r)).or v.lastRow } }

def execFrameEmit (t : Nat) (stream : Fin 4) (rowsRead transmitRoom : Bool) (error : Option ReadError) (s : State) :
    Host.Outcome State Fault Refusal :=
  .next (s.run t fun _ c => frameEmit stream rowsRead transmitRoom error c)

/-- RTCP_SENDER_REPORT: a sender report of an RTP stream (R267, RFC 3550). DESIGN CHOICE: log entry 112. -/
def senderReport (k : Nat) (c : Chip) : Chip :=
  let v := vget c.view k
  if !v.started || v.cfg.delivery == 0 || (destMac c v.cfg).isNone then c
  else
    let ns := sunNs c
    let ntp := ((ns / 1000000000 : Nat) : Int) - c.life.totals.utcOffset + 2208988800
    emit (.eth (v.cfg.delivery - 1) 1 (ethTo c (v.cfg.delivery - 1) ((destMac c v.cfg).getD 0) v.cfg.destIp (v.cfg.destPort + 1)) ([0x80, 200, 0, 6] ++ be 4 v.ssrc ++ be 4 (ntp % 2 ^ 32).toNat ++ be 4 (ns % 1000000000 * 2 ^ 32 / 1000000000) ++
      be 4 (rtpTime c) ++ be 4 v.packets ++ be 4 v.octets)) c

def execRtcpSenderReport (t : Nat) (stream : Fin 4) (s : State) : Host.Outcome State Fault Refusal :=
  .next (s.run t fun _ c => senderReport stream c)

/-- Enforcement begins: every started stream is suspended, with one event each (R269). -/
def suspendViews (c : Chip) : Chip :=
  (List.range 4).foldl (fun c k => suspendView k c) c

/-- Enforcement ends (R269). -/
def resumeViews (c : Chip) : Chip := { c with view := vmapIdx (fun _ v => { v with suspended := false }) c.view }

/-! ### Commands (R271) -/

/-- The settings of a request. DEDUCED: log entry 111. -/
def viewOf (p : List Byte) : ViewCfg :=
  { method := rd p 1 1, cdDecimation := rd p 2 2, mdDecimation := rd p 4 2, frameHeight := rd p 6 2, firstColumn := rd p 8 4, columnCount := rd p 12 4
    frameRate := rd p 16 1, overlay := bit (rd p 17 1) 0, boxes := bit (rd p 17 1) 1, overlayPlanes := rd p 18 1, delivery := rd p 19 1
    payloadType := rd p 20 1, packetPayload := rd p 22 2, destIp := rd p 24 4, destPort := rd p 28 2, destMac := rd p 32 6 }

/-- Bits per second of a stream's RTP packets with all their headers: Ethernet with its check sequence and tag, IPv4, UDP, RTP and
the payload header (R271). DESIGN CHOICE: log entry 112. -/
def rtpRate (c : Chip) (v : ViewCfg) : Nat :=
  if v.delivery = 0 then 0
  else
    let tag := if (vget c.time.eth (v.delivery - 1)).vlanTagged then 4 else 0
    let row := 2 * v.width
    v.frameRate * v.frameHeight * (row + ceilDiv row v.room * (18 + tag + 20 + 8 + 12 + 8)) * 8

/-- VIEW.CONFIGURE. -/
def viewConfigure (_ : Env) (j : Job) (c : Chip) : Reply :=
  let p := j.payload
  let v := viewOf p
  let dma := v.delivery == 0
  let k := rd p 0 1
  checked
    [lenIs 64 j, inRange p 0 1 0 3, inRange p 1 1 0 3, inRange p 2 2 2 256, inRange p 4 2 1 4096, inRange p 6 2 16 2160, inRange p 8 4 0 262143,
     param 12 (v.columnCount % max 1 v.cdDecimation == 0 && decide (1 ≤ v.width) && decide (v.width ≤ 3840)), inRange p 16 1 1 60,
     param 17 (rd p 17 1 < 4), inRange p 19 1 0 2, param 20 (dma || (96 ≤ v.payloadType && v.payloadType ≤ 127)), reserved p 21 1,
     param 22 (dma || (512 ≤ v.packetPayload && v.packetPayload ≤ 8960)), param 28 (dma || v.destPort % 2 == 0), reserved p 30 2, reserved p 38 2,
     param 40 (!dma || rd p 40 8 % 4096 == 0), param 48 (!dma || (isPow2 (rd p 48 4) && 2 ≤ rd p 48 4 && rd p 48 4 ≤ 64)),
     param 52 (!dma || (rd p 52 4 % 4096 == 0 && decide (v.frameBytes ≤ rd p 52 4))), param 56 (!dma || rd p 56 8 % 32 == 0),
     stateRule c (!(vget c.view k).started)] c
    (replyBody (le 4 v.width ++ le 4 v.frameBytes ++ le 4 (ceilDiv (rtpRate c v) 1000000))
      { c with view := vmod c.view k fun x => { x with
        configured := true, cfg := v
        ring := { channel := 8 + k, base := rd p 40 8, entryCount := rd p 48 4, entrySize := rd p 52 4, headAddr := rd p 56 8 } } })

def execViewConfigure (t : Nat) (mb : Fin 8) (s : State) : Host.Outcome State Fault Refusal :=
  .next (s.command 0x0702 t mb viewConfigure)

/-- RTP rate of the started streams of a port. -/
def portRate (c : Chip) (delivery : Nat) : Nat :=
  c.view.toList.foldl (fun n v => if v.started && v.cfg.delivery == delivery then n + rtpRate c v.cfg else n) 0

/-- Line rate of an Ethernet port, bits per second. -/
def lineRate (c : Chip) (port : Nat) : Nat := if (vget c.time.eth port).speed = 0 then 10000000000 else 1000000000

/-- VIEW.STREAM_START. DEDUCED: log entry 113. -/
def viewStart (_ : Env) (j : Job) (c : Chip) : Reply :=
  let p := j.payload
  let k := rd p 0 1
  let v := vget c.view k
  let d := v.cfg.delivery
  let rtpOk := d == 0 || (v.cfg.width % 2 == 0 && decide ((portRate c d + rtpRate c v.cfg) * 100 ≤ lineRate c (d - 1) * 80))
  checked
    [lenIs 4 j, inRange p 0 1 0 3, reserved p 1 3, crossRule (!v.configured || v.started || rtpOk), stateRule c (v.configured && !v.started),
     ownRule stBusy (d != 0 || channelFree c (8 + k) 3)] c
    (let c := if d = 0 then takeChannel (8 + k) 3 c else c
     let (seq, c) := freeNat c
     let (ssrc, c) := freeNat c
     let c := { c with view := vset c.view k { v with
       started := true, frameNumber := 0, rows := [], current := [], lastRow := none, dropped := 0, lateBoxes := 0, boxes := [], unreported := 0
       firstDropped := none, suspended := false, rtpSequence := seq % 2 ^ 32, ssrc := ssrc % 2 ^ 32, packets := 0, octets := 0
       ring := { v.ring with enabled := d == 0, head := 0, tail := 0 } } }
     reply stOk (if c.health.level ≠ 0 then suspendView k c else arpRequest v.cfg c))

def execViewStreamStart (t : Nat) (mb : Fin 8) (s : State) : Host.Outcome State Fault Refusal :=
  .next (s.command 0x0703 t mb viewStart)

/-- VIEW.STREAM_STOP. -/
def viewStop (_ : Env) (j : Job) (c : Chip) : Reply :=
  let p := j.payload
  let k := rd p 0 1
  let v := vget c.view k
  checked [lenIs 4 j, inRange p 0 1 0 3, reserved p 1 3, stateRule c v.started] c
    (let c := if v.cfg.delivery = 0 ∧ v.ring.enabled then freeChannel (8 + k) c else c
     reply stOk { c with view := vset c.view k { v with started := false, suspended := false, ring := { v.ring with enabled := false } } })

def execViewStreamStop (t : Nat) (mb : Fin 8) (s : State) : Host.Outcome State Fault Refusal :=
  .next (s.command 0x0704 t mb viewStop)

end Sys2Proof.Machine
end

