-- ==== Sys2Proof/Machine/Zip.lean ====
section
/-! DEFINITION. Compression, Tally and archive jobs (R278 to R296): the queue, what each operation writes, and the three
commands. -/
namespace Sys2Proof.Machine

/-! ### What a job gives -/

/-- How a job ends: status, error code, bytes for the destination, bytes read where known, and the bit offset of the error. -/
structure ZipEnd where
  status : Nat := stOk
  error : Nat := 0
  output : List Byte := []
  consumed : Option Nat := none
  errorBit : Nat := 0
  /-- The destination is undefined, and no output is reported. -/
  junk : Bool := false

/-- Lines of a source in a tile format (R281). -/
def sourceLines (format depth lines columns : Nat) (bs : List Byte) : List (List (Option Nat)) :=
  chunks columns lines (sourcePixels format depth (lines * columns) bs)

/-- The pixels of a decoded block in a tile format (R209). -/
def decodedBytes (format : Nat) (r : TallyResult) : List Byte :=
  (r.pixels.mapIdx fun i g => pixelBytes format (r.depth == 8) (if r.valid i then some g else none)).flatten

/-- A job whose output does not fit fails whole (R289). DEDUCED: log entry 116. -/
def wholeOrNothing (size : Nat) (out : List Byte) (read : Nat) : ZipEnd :=
  if out.length ≤ size then { output := out, consumed := some read } else { status := stNoSpace, junk := true }

/-- A native Tally decode (R277, R278, R290). -/
def nativeDecode (j : ZipJob) (bs : List Byte) : ZipEnd :=
  let r := tallyDecode bs (j.destSize / (if j.format = 0 then 1 else 2))
  let out := decodedBytes j.format r
  match r.error with
  | some (e, off) => { status := stDataError, error := e, output := out, errorBit := off }
  | none => { output := out, consumed := some r.read }

/-- The largest output of an archive job (R282). DEDUCED: log entry 116. -/
def ZipJob.cap (j : ZipJob) : Nat :=
  match j.limit with
  | some n => min n j.destSize
  | none => j.destSize

/-- The blocks of an archive encode job (R281). -/
def archiveEncode (j : ZipJob) (bs : List Byte) : List Byte :=
  (chunks 256 (j.lines / 256 + 1) (sourceLines 1 j.depth j.lines j.columns bs)).flatMap fun ls => tallyBlock true j.depth j.columns ls

/-- The blocks of an archive decode job, and whether an error ended it; `k` bounds the blocks (R281, R283). DEDUCED: log entry 117. -/
def archiveDecode : Nat → List Byte → List Byte × Bool
  | 0, _ => ([], false)
  | k + 1, bs =>
    if bs.isEmpty then ([], false)
    else
      let r := tallyDecode bs
      let out := decodedBytes 1 r
      if r.error.isSome then (out, true)
      else
        let (rest, bad) := archiveDecode k (bs.drop r.read)
        (out ++ rest, bad)

/-- An archive job: it stops on reaching its cap or at an error with ST_ABORTED and no detail (R282, R283). DEDUCED: log entry 116. -/
def archiveJob (j : ZipJob) (bs : List Byte) : ZipEnd :=
  let (out, bad) := if j.archiveDecode then archiveDecode (bs.length + 1) bs else (archiveEncode j bs, false)
  if j.cap ≤ out.length ∨ bad then { status := stAborted, output := out.take j.cap } else { output := out, consumed := some bs.length }

/-- What a job makes of its source bytes. DEDUCED: log entry 116. -/
def runZip (j : ZipJob) (bs : List Byte) : ZipEnd :=
  match j.operation with
  | 0 => wholeOrNothing j.destSize (deflate j.wrapper j.level j.fixedHuffman bs) bs.length
  | 1 =>
    let r := inflate j.wrapper j.destSize bs
    match r.error with
    | some (e, off) => { status := stDataError, error := e, output := r.output, errorBit := off }
    | none => { output := r.output, consumed := some r.consumed }
  | 2 => wholeOrNothing j.destSize (tallyBlock false j.depth j.columns (sourceLines j.format j.depth j.lines j.columns bs)) bs.length
  | 3 => nativeDecode j bs
  | _ => archiveJob j bs

/-! ### The queue (R292, R294) -/

/-- A job for the job coder rather than a Window engine. -/
def ZipJob.coder (j : ZipJob) : Bool := decide (2 ≤ j.operation)

/-- The engine a job would take: the first free one, past the one that a tile takes ahead of it (R292). -/
def zipEngine (c : Chip) (j : ZipJob) : Option Nat :=
  if j.coder then (if engineFree c 4 then some 4 else none)
  else (([0, 1, 2, 3].filter (engineFree c)).drop (b2n (tileCompresses c))).head?

/-- The channel a job would take. -/
def zipChannel (c : Chip) (j : ZipJob) : Option Nat :=
  ((List.range 8).map (16 + ·)).find? fun ch => (j.channelReq.map fun q => q == ch).getD true && channelFree c ch 5 && (vget c.pcie.dma ch).owner != 5

/-- The next job of its kind: the first queued for a Window engine or for the job coder (R292). DEDUCED: log entry 119. -/
def zipHead (c : Chip) (coder : Bool) : Option ZipJob := c.zip.jobs.find? fun j => j.state == 0 && j.coder == coder

/-- Changes a job in the queue. -/
def modZip (id : Nat) (f : ZipJob → ZipJob) (c : Chip) : Chip :=
  { c with zip := { c.zip with jobs := c.zip.jobs.map fun j => if j.id = id then f j else j } }

/-- ZIP_JOB_START: a queued job takes an engine and a channel; none starts under thermal enforcement (R294), in STANDBY, or while the Lodge
restarts (R25).
DEDUCED: log entry 119. -/
def zipStart (c : Chip) : Chip :=
  let ready := ([zipHead c false, zipHead c true].filterMap id).filter fun j => (zipEngine c j).isSome && (zipChannel c j).isSome
  if c.health.level ≠ 0 ∨ mode c = 3 ∨ lodgeRestarts c then c
  else match sortBy (fun a b => decide (c.zip.jobs.idxOf a ≤ c.zip.jobs.idxOf b)) ready with
    | [] => c
    | j :: _ =>
      match zipEngine c j, zipChannel c j with
      | some e, some ch => modZip j.id (fun j => { j with state := 1, engine := e, channel := ch }) (takeChannel ch 5 c)
      | _, _ => c

def execZipJobStart (t : Nat) (s : State) : Host.Outcome State Fault Refusal :=
  .next (s.run t fun _ c => zipStart c)

/-- A job finishes: its channel goes back, its outcome is kept among the last 256, and EV_ZIP_DONE (R295, R296). -/
def zipFinish (j : ZipJob) (c : Chip) : Chip :=
  let c := if j.state = 1 then freeChannel j.channel c else c
  let c := { c with zip := { c.zip with jobs := c.zip.jobs.filter (fun x => x.id != j.id), done := ({ j with state := 2 } :: c.zip.done).take 256 } }
  raise 0x0900 0 0x7F (le 4 j.id ++ le 2 j.status ++ le 1 j.error ++ le 1 j.operation ++ le 4 j.output) c

/-- Writes what an undefined destination holds: free bytes, as many as a free number within its size; nothing while the device issues no
requests (R437). DESIGN CHOICE: log entry 118. -/
def writeJunk (addr size : Nat) (c : Chip) : Chip :=
  let (k, c) := freeNat c
  let (bs, c) := freeBytes (k % (size + 1)) c
  if hostWrites c then writeData addr bs c else c

/-- A running job stops before its end (R295). DESIGN CHOICE: log entry 118. -/
def zipAbort (x : ZipJob) (c : Chip) : Chip :=
  let (a, c) := freeNat (writeJunk x.dest x.destSize c)
  let (b, c) := freeNat c
  zipFinish { x with status := stAborted, consumed := a % (x.sourceLength + 1), output := b % (x.destSize + 1) } c

/-- The jobs that run on a DMA channel end with it: each with ST_ABORTED, its destination undefined (R436). DESIGN CHOICE: log entry 262. -/
def stopJobs (c : Chip) : Chip :=
  let c := (c.orangery.jobs.filter fun j => j.running && j.channel.isSome).foldl (fun c j =>
    jobEnds j stAborted 0 (writeJunk (rd j.request 32 8) (rd j.request 40 8) c)) c
  (c.zip.jobs.filter fun j => j.state == 1).foldl (fun c j => zipAbort j c) c

/-- ZIP_JOB_DONE: a running job has read its source and ends. DEDUCED: log entries 115 and 120. -/
def zipDone (id : Nat) (source : List Byte) (hwFault : Bool) (c : Chip) : Chip :=
  match c.zip.jobs.find? fun j => j.id == id && j.state == 1 with
  | none => c
  | some j =>
    if !hostWrites c then c
    else if hwFault && !j.coder then
      let (a, c) := freeNat (writeJunk j.dest j.destSize c)
      let (b, c) := freeNat c
      zipFinish { j with status := stHwFault, consumed := a % 2 ^ 64, output := b % 2 ^ 64 } c
    else
      let c := emit (.hostRead j.source (32 * ceilDiv j.sourceLength 32)) c
      let e := runZip j (sliceB source 0 j.sourceLength)
      let c := if e.junk then writeJunk j.dest j.destSize c else writeData j.dest e.output c
      let (read, c) := match e.consumed with
        | some n => (n, c)
        | none => let (v, c) := freeNat c; (v % (j.sourceLength + 1), c)
      zipFinish { j with status := e.status, error := e.error, consumed := read, output := e.output.length, errorBit := e.errorBit } c

def execZipJobDone (t job : Nat) (source : List Byte) (hwFault : Bool) (s : State) : Host.Outcome State Fault Refusal :=
  .next (s.run t fun _ c => zipDone job source hwFault c)

/-! ### Commands -/

/-- The job of a request for operations 0 to 3. -/
def zipOf (p : List Byte) (id : Nat) : ZipJob :=
  { id, operation := rd p 0 1, wrapper := rd p 1 1, level := rd p 2 1, fixedHuffman := bit (rd p 3 1) 0
    channelReq := if rd p 4 1 = 0xFF then none else some (rd p 4 1), depth := rd p 5 1, format := rd p 6 1, lines := rd p 8 4, columns := rd p 12 4
    source := rd p 16 8, sourceLength := rd p 24 8, dest := rd p 32 8, destSize := rd p 40 8, tag := rd p 48 4 }

/-- Field checks of operations 0 to 3. -/
def zipChecks (j : Job) : List Check :=
  let p := j.payload
  let op := rd p 0 1
  let ch := rd p 4 1
  [lenIs 64 j, param 1 (decide (2 ≤ op) || decide (rd p 1 1 ≤ 2)), param 2 (op != 0 || (1 ≤ rd p 2 1 && rd p 2 1 ≤ 4)), param 3 (rd p 3 1 < 2),
   param 4 (ch == 0xFF || (16 ≤ ch && ch ≤ 23)), param 5 (op != 2 || rd p 5 1 == 8 || rd p 5 1 == 12), param 6 (decide (op < 2) || decide (rd p 6 1 ≤ 1)),
   reserved p 7 1, param 8 (op != 2 || (1 ≤ rd p 8 4 && rd p 8 4 ≤ 256)), param 12 (op != 2 || (1 ≤ rd p 12 4 && rd p 12 4 ≤ 16384)),
   param 16 (rd p 16 8 % 32 == 0), param 24 (decide (rd p 24 8 < 2 ^ 32) && (op == 0 || rd p 24 8 != 0)), param 32 (rd p 32 8 % 32 == 0),
   param 40 (rd p 40 8 % 32 == 0), reserved p 52 12]

/-- The items of an archive request: kind and value. -/
def archiveItems (p : List Byte) : List (Nat × Nat) := (List.range (rd p 1 1)).map fun i => (rd p (8 + 8 * i) 1, rd p (10 + 8 * i) 6)

/-- The value of an item kind. -/
def itemOf (xs : List (Nat × Nat)) (k : Nat) : Nat := ((xs.find? fun x => x.1 == k).map (·.2)).getD 0

/-- The range of an item's value. -/
def itemOk (encode : Bool) (x : Nat × Nat) : Bool :=
  let v := x.2
  match x.1 with
  | 1 => decide (v ≤ 1)
  | 2 | 4 | 5 => v % 32 == 0
  | 3 => v != 0
  | 7 => !encode || v != 0
  | 8 => !encode || (decide (1 ≤ v) && decide (v ≤ 16384))
  | 9 => !encode || v == 8 || v == 12
  | _ => true

/-- Field checks of operation 4. DEDUCED: log entry 117. -/
def archiveChecks (j : Job) : List Check :=
  let p := j.payload
  let xs := archiveItems p
  let encode := itemOf xs 1 == 0
  let count (k : Nat) : Nat := (xs.filter fun x => x.1 == k).length
  [lenOk (decide (8 ≤ p.length) && p.length == 8 + 8 * rd p 1 1), inRange p 1 1 1 32, reserved p 2 6] ++
  (xs.mapIdx fun i x => [param (8 + 8 * i) (decide (1 ≤ x.1) && decide (x.1 ≤ 9) && (x.1 == 6 || count x.1 == 1)), reserved p (9 + 8 * i) 1,
    param (10 + 8 * i) (itemOk encode x)]).flatten ++
  [crossRule ([1, 2, 3, 4, 5, 7, 8, 9].all fun k => count k == 1)]

/-- The job of an archive request: the limit is the last one that stands before the source-address item (R282). DEDUCED: log entry 117. -/
def archiveOf (p : List Byte) (id : Nat) : ZipJob :=
  let xs := archiveItems p
  let before := (xs.takeWhile fun x => x.1 != 2).filter fun x => x.1 == 6
  let limit := ((before.getLast?).map (·.2)).getD 0
  { id, operation := 4, archiveDecode := itemOf xs 1 == 1, source := itemOf xs 2, sourceLength := itemOf xs 3, dest := itemOf xs 4, destSize := itemOf xs 5
    limit := if limit = 0 then none else some (limit * 4096), lines := itemOf xs 7, columns := itemOf xs 8, depth := itemOf xs 9 }

/-- `max_output` (R280, R288). DEDUCED: log entry 116. -/
def ZipJob.maxOutput (j : ZipJob) : Nat :=
  match j.operation with
  | 0 => deflateBound j.wrapper j.sourceLength
  | 2 => tallyBound j.lines j.columns
  | 4 => if j.archiveDecode then 0 else tallyBound j.lines j.columns
  | _ => 0

/-- ZIP.SUBMIT. DEDUCED: log entry 119. -/
def zipSubmit (_ : Env) (j : Job) (c : Chip) : Reply :=
  let p := j.payload
  let id := c.zip.nextId
  let archive := rd p 0 1 == 4
  let x := if archive then archiveOf p id else zipOf p id
  let ahead := (c.zip.jobs.filter fun y => y.state == 0).length
  checked ((if archive then archiveChecks j else zipChecks j ++ [inRange p 0 1 0 4]) ++ [stateRule c (mode c != 3), ownRule stBusy (decide (ahead < 64))]) c
    { status := stPending, body := le 4 id ++ le 4 ahead ++ le 8 x.maxOutput,
      chip := { c with zip := { c.zip with jobs := c.zip.jobs ++ [x], nextId := nextTxId id } } }

def execZipSubmit (t : Nat) (mb : Fin 8) (s : State) : Host.Outcome State Fault Refusal :=
  .next (s.command 0x0900 t mb zipSubmit)

/-- A job by its ID, queued, running or among the last 256 finished. -/
def findZip (c : Chip) (id : Nat) : Option ZipJob := (c.zip.jobs ++ c.zip.done).find? fun j => j.id == id

/-- ZIP.STATUS. -/
def zipStatus (_ : Env) (j : Job) (c : Chip) : Reply :=
  let x := findZip c (rd j.payload 0 4)
  checked [lenIs 4 j, ownRule stNotFound x.isSome] c
    (match x with
     | none => reply stNotFound c
     | some x => replyBody (le 1 x.state ++ le 1 x.error ++ le 2 (if x.state = 2 then x.status else stPending) ++ le 4 x.tag ++ le 8 x.consumed ++
         le 8 x.output ++ le 8 x.errorBit) c)

def execZipStatus (t : Nat) (mb : Fin 8) (s : State) : Host.Outcome State Fault Refusal :=
  .next (s.command 0x0901 t mb zipStatus)

/-- ZIP.CANCEL (R295). DESIGN CHOICE: log entry 118. -/
def zipCancel (_ : Env) (j : Job) (c : Chip) : Reply :=
  let x := findZip c (rd j.payload 0 4)
  checked [lenIs 4 j, ownRule stNotFound x.isSome] c
    (match x with
     | none => reply stNotFound c
     | some x =>
       let body (k : Nat) : List Byte := le 1 k ++ zeros 3
       match x.state with
       | 0 => replyBody (body 0) (zipFinish { x with status := stAborted } c)
       | 1 => replyBody (body 1) (zipAbort x c)
       | _ => replyBody (body 2) c)

def execZipCancel (t : Nat) (mb : Fin 8) (s : State) : Host.Outcome State Fault Refusal :=
  .next (s.command 0x0902 t mb zipCancel)

end Sys2Proof.Machine
end

