-- ==== Sys2Proof/Machine/Motion.lean ====
section
/-! DEFINITION. Motion of an axis (R318 to R323): the planning of profiles, quick stops, coil current. -/
namespace Sys2Proof.Machine

/-! ### Planning (R318, R319) -/

/-- A change of velocity from v, a to w, 0 within an acceleration limit A and a jerk limit J: jerk, constant acceleration, jerk. An acceleration
beyond the limit, as a quick stop leaves it, is first brought down to it. -/
def velSegs (A J v a w : Rat) : List MotionSeg :=
  if A ≤ 0 ∨ J ≤ 0 then []
  else
    let free := v + a * (if a < 0 then -a else a) / (2 * J)
    let s : Rat := if free ≤ w then 1 else -1
    let dv := s * (w - v)
    let b := s * a
    let peak := ratSqrt (J * dv + b * b / 2)
    let top := if peak < A then peak else A
    let up : Bool := decide (b ≤ top)
    let first := (if up then top * top - b * b else b * b - top * top) / (2 * J)
    let hold := if peak < A then 0 else (dv - first - A * A / (2 * J)) / A
    [{ dur := (if up then top - b else b - top) / J, jerk := if up then s * J else -(s * J) }, { dur := max 0 hold, jerk := 0 },
     { dur := top / J, jerk := -(s * J) }]

/-- Up to a peak velocity and down to rest. -/
def upDown (A J v a w : Rat) : List MotionSeg × List MotionSeg := (velSegs A J v a w, velSegs A J w 0 0)

/-- Distance of a run up to a peak velocity and down to rest. -/
def upDownDist (A J v a w : Rat) : Rat :=
  let (up, down) := upDown A J v a w
  segsDist up v a + segsDist down w 0

/-- Halves the interval of peak velocities that just does not overshoot a distance. DEDUCED: log entry 135. -/
def peakFor (A J v a d : Rat) : Nat → Rat → Rat → Rat
  | 0, lo, _ => lo
  | k + 1, lo, hi =>
    let m := (lo + hi) / 2
    if upDownDist A J v a m ≤ d then peakFor A J v a d k m hi else peakFor A J v a d k lo m

/-- A run of distance d ≥ 0 from v ≥ 0 and a to rest within limits V, A, J, where stopping at once does not overshoot it. With V = 0 it never
arrives. -/
def runTo (V A J v a d : Rat) : List MotionSeg :=
  let w := if upDownDist A J v a V ≤ d then V else peakFor A J v a d 128 0 V
  let (up, down) := upDown A J v a w
  let rest := d - upDownDist A J v a w
  up ++ [{ dur := if V = 0 ∧ 0 < rest then 2 ^ 64 else if w = 0 then 0 else max 0 (rest / w), jerk := 0 }] ++ down

/-- Segments turned to the other direction. -/
def flipSegs (s : Rat) (ss : List MotionSeg) : List MotionSeg := ss.map fun x => { x with jerk := s * x.jerk, accel := x.accel.map (s * ·) }

/-- The move of R318 and R319 from a motion to a target. DEDUCED: log entry 135. -/
def planMove (V A J : Rat) (k : Kin) (x : Rat) : List MotionSeg :=
  let s : Rat := if k.v < 0 ∨ (k.v = 0 ∧ x < k.p) then -1 else 1
  let v := s * k.v
  let a := s * k.a
  let d := s * (x - k.p)
  let stop := velSegs A J v a 0
  let ds := segsDist stop v a
  if k.v = 0 ∧ k.a = 0 ∧ d = 0 then []
  else if ds ≤ d then flipSegs s (runTo V A J v a d)
  else flipSegs s stop ++ flipSegs (-s) (runTo V A J 0 0 (ds - d))

/-- A stop within the limits of the axis. -/
def planStop (A J : Rat) (k : Kin) : List MotionSeg :=
  let s : Rat := if k.v < 0 then -1 else 1
  flipSegs s (velSegs A J (s * k.v) (s * k.a) 0)

/-- A quick stop at a deceleration, without a jerk limit (R329). -/
def planQuick (decel : Rat) (k : Kin) : List MotionSeg :=
  if k.v = 0 ∨ decel ≤ 0 then []
  else if k.v < 0 then [{ dur := -k.v / decel, jerk := 0, accel := some decel }] else [{ dur := k.v / decel, jerk := 0, accel := some (-decel) }]

/-! ### An axis in motion -/

/-- Velocity limit of a move (R318). -/
def Axis.limit (x : Axis) (vLimit : Nat) : Rat := ((if vLimit = 0 then x.cfg.vMax else vLimit : Nat) : Rat) / 65536

/-- Starts a profile to a target at a current. -/
def Axis.begin (x : Axis) (now : Nat) (segs : List MotionSeg) (target : Int) (current : CoilCurrent) : Axis :=
  let k := x.kin now
  if segs.isEmpty then { x with profile := none, position := target, target, standstillAt := if x.still then x.standstillAt else now }
  else { x with profile := some { start := now, p := k.p, v := k.v, a := k.a, segs }, position := k.p.floor, target, current }

/-- A move to a target under a velocity limit (R319, R323). -/
def Axis.moveTo (x : Axis) (now : Nat) (target : Int) (vLimit : Nat) : Axis :=
  x.begin now (planMove (x.limit vLimit) x.cfg.aMax x.cfg.jMax (x.kin now) target) target .run

/-- A stop within the limits, or a quick stop; the profile ends where it ends (R329). -/
def Axis.halt (x : Axis) (now : Nat) (quick : Bool) : Axis :=
  if x.still then x
  else
    let k := x.kin now
    let segs := if quick then planQuick x.cfg.stopDecel k else planStop x.cfg.aMax x.cfg.jMax k
    x.begin now segs (endSegs segs k).p.floor x.current

/-- An axis that stops issuing microsteps at once. -/
def Axis.freeze (x : Axis) (now : Nat) (current : CoilCurrent) : Axis :=
  let p := x.pos now
  { x with profile := none, position := p, target := p, current, standstillAt := if x.still then x.standstillAt else now }

/-- The predicted arrival, as Sundial time: a free 1 ns is left to its rounding. DEDUCED: log entry 135. -/
def noteArrival (k : Nat) (c : Chip) : Chip :=
  let x := vget c.axis k
  let ns := match x.profile with
    | some f => (segsTime f.segs * 1000000000).floor.toNat
    | none => 0
  let (r, c) := freeNat c
  let (s, n) := secNs (sunNs c + ns + r % 2)
  { c with axis := vset c.axis k { x with arrivalS := s, arrivalNs := n } }

/-- `i_set` of R320: the current in force. -/
def Axis.iSet (x : Axis) : Nat :=
  match x.current with
  | .off => 0
  | .run => x.cfg.runCurrent
  | .hold => x.cfg.holdCurrent
  | .home => x.cfg.homeCurrent

/-- Sine of i / 512 of a half turn, for i up to 256, by its series: exact to far below a step of the table. -/
def sineOf (i : Nat) : Rat :=
  let x : Rat := (i : Rat) * 3141592653589793 / (512 * 1000000000000000)
  ((List.range 9).foldl (fun (p : Rat × Rat) k => (p.1 + p.2, -(p.2 * x * x / ((2 * k + 2 : Nat) * (2 * k + 3 : Nat) : Nat)))) (0, x)).1

/-- The sine table of R320: 1 024 signed entries with peak 32 767, alike in its four quarters. How an entry that is no integer is rounded is
free. DESIGN CHOICE: log entry 136. -/
def sineTable (k : Nat) : Int :=
  let q := k % 512
  let i := if q ≤ 256 then q else 512 - q
  let v : Int := if i = 0 then 0 else if i = 256 then 32767 else (32767 * sineOf i).floor + (Config.sineRound i % 2 : Nat)
  if k % 1024 < 512 then v else -v

/-- Coil targets of R320: windings A and B, as signed DAC codes. DESIGN CHOICE: log entry 136. -/
def coilTargets (x : Axis) (now : Nat) : Int × Int :=
  let idx := (x.pos now * (256 / 2 ^ x.cfg.microstepLog2 : Nat)) % 1024
  let i (k : Int) : Int := (x.iSet * sineTable (k % 1024).toNat + 16384) / 32768
  (i idx, i (idx + 256))

end Sys2Proof.Machine
end

