-- ==== Sys2Proof/Machine/Chopper.lean ====
section
/-! DEFINITION. The hysteresis chopper of an axis (R320 to R322): one 4 ns sample of each winding, the bridge outputs it drives,
the adaptive offset of its window. -/
namespace Sys2Proof.Machine

/-- The present upper and lower thresholds of a winding, in DAC codes (R322). -/
def Winding.upper (w : Winding) (a : AxisCfg) (target : Int) : Int := target.natAbs + a.windowH + w.off
def Winding.lower (w : Winding) (a : AxisCfg) (target : Int) : Int := target.natAbs - a.windowH + w.off

/-- Direction in which the bridge drives the winding, where it does (R321): that of the target, in fast decay the reverse, in slow
decay none. -/
def Winding.direction (w : Winding) (a : AxisCfg) : Option Bool :=
  if w.drive then some w.positive else if a.fastDecay then some !w.positive else none

/-- Levels of the two bridge outputs of a winding at an instant (R321); both low for 40 ns at each reversal (R575). -/
def Winding.pins (w : Winding) (a : AxisCfg) (now : Nat) : Bool × Bool :=
  match w.direction a with
  | some d => if now < w.reversedAt + 40 then (false, false) else (d, !d)
  | none => (false, false)

/-- The bridge changes: a switching edge, and a reversal where it goes between two opposite directions. -/
def Winding.switch (w : Winding) (a : AxisCfg) (now : Nat) (drive positive : Bool) : Winding :=
  let x := { w with drive, positive, edgeAt := now }
  if (w.direction a).isSome && (x.direction a).isSome && w.direction a != x.direction a then { x with reversedAt := now } else x

/-- The offset at the end of a chop cycle of drive time `ton` and decay time `toff` (R322): held without `adapt`, and while either
time exceeds 100 µs. -/
def Winding.adapted (w : Winding) (a : AxisCfg) (ton toff : Nat) : Int :=
  if !a.adapt || decide (100000 < ton) || decide (100000 < toff) then w.off
  else
    let err : Rat := (a.windowH * a.compDelayNs : Nat) * (1 / (ton : Rat) - 1 / (toff : Rat))
    max (-(a.windowH : Int)) (min a.windowH (w.off + ratRound ((-err - w.off) / 16)))

/-- One sample of a winding (R321): the sensed current against the thresholds, ignored for `blank_ns` after a switching edge; with
target 0 the bridge stays in decay. A change of the target's sign restarts the offset. DESIGN CHOICE: log entry 136. -/
def Winding.sample (w : Winding) (a : AxisCfg) (target : Int) (sensed now : Nat) : Winding :=
  let positive := if target = 0 then w.positive else decide (0 < target)
  let w := if positive != w.positive then { w.switch a now w.drive positive with off := 0, ton := none } else w
  if target = 0 then (if w.drive then { w.switch a now false positive with ton := none } else w)
  else if now < w.edgeAt + a.blankNs then w
  else if w.drive && decide (w.upper a target ≤ sensed) then { w.switch a now false positive with ton := some (now - w.edgeAt) }
  else if !w.drive && decide ((sensed : Int) ≤ w.lower a target) then
    { w.switch a now true positive with off := (w.ton.map fun ton => w.adapted a ton (now - w.edgeAt)).getD w.off, ton := none }
  else w

/-- A winding whose samples since an instant the model has not taken. It has not switched before `blank_ns` after its last edge, unless its
target changed sign; with target 0 it stands in decay. Else whether and when it last switched, and to what, is free. With `adapt` the offset is
then free within ±`window_h`; without, it is as it was, or 0 where the target has changed sign. DESIGN CHOICE: log entry 136. -/
def Winding.unsampled (a : AxisCfg) (from_ now : Nat) (moved : Bool) (target : Int) (w : Winding) (c : Chip) : Winding × Chip :=
  let positive := if target = 0 then w.positive else decide (0 < target)
  let turned := positive != w.positive
  let earliest := if turned || moved || target == 0 then from_ else max from_ (w.edgeAt + a.blankNs)
  let (k, c) := freeNat c
  let (since, c) := freeNat c
  let (ton, c) := freeNat c
  let (off, c) := freeInt (-(a.windowH : Int)) (2 * a.windowH) c
  let forced := turned || (target == 0 && w.drive)
  let mayMove := forced || moved || target != 0
  if now < earliest || !mayMove || (!forced && k % 2 == 0) then (w, c)
  else
    let drive := target != 0 && k / 2 % 2 == 1
    let edge := earliest + since % (now - earliest + 1)
    ({ w with
       positive, drive, edgeAt := edge, reversedAt := if a.fastDecay || turned then edge else w.reversedAt
       ton := if drive then none else some (ton + 1)
       off := if a.adapt then off else if turned || (moved && k / 4 % 2 == 1) then 0 else w.off }, c)

/-- Brings the windings of an axis up to the present instant: unchanged where every sample has been taken. DESIGN CHOICE: log entry 136. -/
def sampledAxis (k : Nat) (c : Chip) : Chip :=
  let x := vget c.axis k
  if !x.en || decide (c.now < x.sampledAt + 4) then c
  else
    let (ia, ib) := coilTargets x c.now
    let moved := !x.still || decide (x.sampledAt < x.standstillAt)
    let (wa, c) := x.windingA.unsampled x.cfg x.sampledAt c.now moved ia c
    let (wb, c) := x.windingB.unsampled x.cfg x.sampledAt c.now moved ib c
    { c with axis := vset c.axis k { x with windingA := wa, windingB := wb, sampledAt := c.now } }

/-- One sample of both windings of an axis; the sensed currents are free codes of the DAC. DESIGN CHOICE: log entry 136. -/
def sampleAxis (k : Nat) (c : Chip) : Chip :=
  let x := vget c.axis k
  if !x.en then c
  else
    let (ia, ib) := coilTargets x c.now
    let (sa, c) := freeInt 0 1023 c
    let (sb, c) := freeInt 0 1023 c
    let wa := x.windingA.sample x.cfg ia sa.toNat c.now
    let wb := x.windingB.sample x.cfg ib sb.toNat c.now
    let c := { c with axis := vset c.axis k { x with windingA := wa, windingB := wb, sampledAt := c.now } }
    emit (.bridge k (wa.pins x.cfg c.now) (wb.pins x.cfg c.now)) c

/-- One 4 ns tick with nothing commanded: every powered axis has its windings sampled. DESIGN CHOICE: log entry 7. -/
def State.idle (s : State) : State :=
  let c := (List.range 4).foldl (fun c k => sampledAxis k c) { s.chip with out := [] }
  { s with chip := (List.range 4).foldl (fun c k => sampleAxis k c) { c with now := c.now + 4 } }

end Sys2Proof.Machine
end

