-- ==== Sys2Proof/Machine/Doorbell.lean ====
section
/-! DEFINITION. The mailbox doorbell (R467 to R475): the steps of R472 that need no command's own rules. -/
namespace Sys2Proof.Machine

/-- The estimated wait of a period in ms: its bound less the time since it started, rounded up (R474). -/
def waitMs (boundMs start now : Nat) : Nat := min 0xFFFF (ceilDiv (boundMs * 1000000 - (now - start)) 1000000)

/-- The detail of ST_NOT_READY while the Lodge serves no command; none while it serves (R474, R475, R546). -/
def notReadyWait (c : Chip) (mb : Nat) : Option Nat :=
  if c.modes.lodgeFailed then some 0
  else match c.modes.boot with
    | .waitPerst => some 0
    | .booting => some (match c.modes.notReady with
      | .boot start => waitMs 1500 start c.now
      | _ => 0)
    | .recovery => if mb = 0 then none else some (match c.modes.notReady with
      | .boot start => waitMs 1500 start c.now
      | _ => 0)
    | .done => match c.modes.notReady with
      | .no => none
      | .boot start => some (waitMs 1500 start c.now)
      | .activationPending => some 400
      | .activation start => some (waitMs 400 start c.now)
      | .lockstep start => some (waitMs 40 start c.now)

/-- The native command a code stands for on a mailbox in the present personality; none answers ST_BAD_CMD (R478, R557 to
R559). -/
def servedAs (c : Chip) (mb code : Nat) : Option Nat :=
  if c.modes.personality = 1 then
    (if 0x80 ≤ code ∧ code ≤ 0xBF then legacyNative code
     else if mb = 0 ∧ legacyServesNative code then some code else none)
  else if (baseClass code).isSome then some code else none

/-- Audit entries queued, and those of commands in progress. -/
def auditHeld (c : Chip) : Nat :=
  c.mbx.audit.length + (c.mbx.mb.toList.filter fun m => (m.job.map (·.audited)).getD false).length

/-- Hands a command to the Lodge: a checkpoint is taken (R545). -/
def acceptJob (mb : Nat) (j : Job) (c : Chip) : Chip :=
  { c with
    mbx := { c.mbx with rung := c.mbx.rung + 1, mb := vmod c.mbx.mb mb fun m => { m with job := some { j with order := c.mbx.rung } } }
    modes := { c.modes with checkpointAt := c.now } }

/-- Steps 3 and 4 of R472 and the audit queue, for a command that the personality serves; a session on the mailbox has seen a
command (R519). -/
def admitJob (mb code native : Nat) (c : Chip) : Chip :=
  let c := { c with sec := { c.sec with sessions := vmod c.sec.sessions mb fun x => x.map fun x => { x with lastCommand := c.now } } }
  let m := vget c.mbx.mb mb
  let h := m.bytes
  let (s, ns) := clock c
  let payload := sliceB h 64 (rd h 4 2)
  let legacy := code != native
  let req := requiredClass c native payload
  let j : Job := {
    code := native, rawCode := code, sequence := rd h 0 2, cls := if legacy then req else rd h 8 1,
    tag := rd h 16 4, headerFault := (11 :: 14 :: 15 :: List.range' 30 34).find? fun i => rd h i 1 != 0, payload, doorbellS := s, doorbellNs := ns, audited := auditNeeded c native payload }
  if c.modes.lockdown && !lockdownServes native then refuseDoorbell mb stLocked 0 false none c
  else if j.audited && decide (64 ≤ auditHeld c) then refuseDoorbell mb stBusy 0 false none c
  else if !legacy && !privilegeOk c mb native j.cls payload then
    refuseDoorbell mb stNoPriv req true (if j.audited then some j else none) c
  else acceptJob mb j c

/-- A write to a mailbox doorbell (R467): while the device owns the mailbox it is counted as ignored; else the device takes
it, clears its response bit (R588) and answers, or hands the command to the Lodge. DEDUCED: log entries 9 and 17. -/
def doorbell (mb : Nat) (c : Chip) : Chip :=
  let m := vget c.mbx.mb mb
  if m.owner then { c with mbx := { c.mbx with mb := vset c.mbx.mb mb { m with ignored := satU 8 (m.ignored + 1) } } }
  else
    let c := { c with mbx := { c.mbx with
      response := setBit c.mbx.response mb false, mb := vset c.mbx.mb mb { m with owner := true } } }
    match notReadyWait c mb with
    | some wait => refuseDoorbell mb stNotReady wait false none c
    | none =>
      if m.lastSequence = some (rd m.bytes 0 2) then answer mb (putB (fit 4096 m.bytes) 0 (putB m.kept 10 [BitVec.ofNat 8 (rd m.kept 10 1 + 1)])) c
      else match servedAs c mb (rd m.bytes 2 2) with
        | none => refuseDoorbell mb stBadCmd 0 false none c
        | some native => admitJob mb (rd m.bytes 2 2) native c

/-- MAILBOX_DOORBELL. -/
def execMailboxDoorbell (t : Nat) (mb : Fin 8) (s : State) : Host.Outcome State Fault Refusal :=
  .next (s.run t fun _ c => doorbell mb c)

end Sys2Proof.Machine
end

