-- ==== Sys2Proof/Machine/Mark.lean ====
section
/-! DEFINITION. The marker scheduler (R332 to R342): heads, rules, feasibility, fires, missed marks, and MARK.CONFIGURE. -/
namespace Sys2Proof.Machine

/-- Changes an axis. -/
def modAxis (k : Nat) (f : Axis → Axis) (c : Chip) : Chip := { c with axis := vmod c.axis k f }

/-- Changes a head. -/
def modHead (h : Nat) (f : Head → Head) (c : Chip) : Chip := { c with mark := { c.mark with heads := vmod c.mark.heads h f } }

/-- The enabled head on an axis. -/
def headOn (c : Chip) (k : Nat) : Option Nat := (List.range 4).find? fun h => (vget c.mark.heads h).cfg.enable && (vget c.mark.heads h).cfg.axis == k

/-- The enabled head that reserves a pulse output (R332). -/
def headOfOutput (c : Chip) (o : Nat) : Option Nat :=
  (List.range 4).find? fun h => (vget c.mark.heads h).cfg.enable && (vget c.mark.heads h).cfg.pulseOutput == o

/-! ### Missed marks (R338, R339) -/

/-- A missed mark: log entry, counter of the head's axis, event. Head 0xFF where none was chosen. DEDUCED: log entry 139. -/
def missMark (h cause shortfall : Nat) (m : Mark) (c : Chip) : Chip :=
  let e : MissedMark := {
    defect := m.defect, fireMd := m.fireMd, targetCd := m.targetCd, head := h, cause, shortfallUs := satU 32 shortfall, sequence := c.mark.nextSequence }
  let c := { c with mark := { c.mark with log := (e :: c.mark.log).take 256, nextSequence := wrapU 32 (c.mark.nextSequence + 1) } }
  let c := if h < 4 then
      let k := (vget c.mark.heads h).cfg.axis
      let (n, c) := satAdd 0x0B04 52 k 32 (vget c.axis k).missedMarks 1 c
      modAxis k (fun x => { x with missedMarks := n }) c
    else c
  raise 0x0B04 2 (if h < 4 then h else 0x7F) (le 1 h ++ le 1 cause ++ [0, 0] ++ le 8 m.defect) c

/-- Every queued mark of a head is missed. -/
def missQueue (h cause : Nat) (c : Chip) : Chip :=
  let q := (vget c.mark.heads h).queue
  q.foldl (fun c m => missMark h cause 0 m c) (modHead h (fun x => { x with queue := [] }) c)

/-- The marks queued for an axis are missed with cause 3 (R338, R340). -/
def missAxis (k : Nat) (c : Chip) : Chip :=
  match headOn c k with
  | some h => missQueue h 3 c
  | none => c

/-- The mode leaves the inspecting modes: queued marks are missed with cause 5, and every axis stops within its limits (R338); one in homing or
in the stop of a fault ends that in its own way. -/
def endMarking (c : Chip) : Chip :=
  let c := (List.range 4).foldl (fun c h => missQueue h 5 c) c
  { c with axis := vmapIdx (fun _ x => if x.state = .homing ∨ x.state = .fault then x else x.halt c.now false) c.axis }

/-! ### Feasibility (R335) -/

/-- Microsteps of a CD under a head, halves away from zero (R334). -/
def headTarget (h : HeadCfg) (cd : Int) : Int :=
  let n := (cd - h.cdAtZero) * 65536
  if h.wuPerMicrostep < 0 then divAway (-n) h.wuPerMicrostep.natAbs else divAway n h.wuPerMicrostep.natAbs

/-- Predicted time of an MD from now, in ns; none while the web is stopped (R335). -/
def predicted (c : Chip) (md : Int) : Option Rat :=
  let (n, d) := (mainEnc c).speed c.now
  if n = 0 then none else some (((max 0 (md - mdNow c) : Int) : Rat) * ((d * 2 ^ 32 : Nat) : Rat) / (n : Rat))

/-- a does not come after b; none is never. DEDUCED: log entry 139. -/
def notAfter : Option Rat → Option Rat → Bool
  | _, none => true
  | none, some _ => false
  | some a, some b => decide (a ≤ b)

/-- The carriage leaves a place at an instant and arrives, settled, at a position: none if it never leaves (R335). -/
def arrival (x : Axis) (settleUs : Nat) (from_ : Kin) (leave : Option Rat) (target : Int) : Option Rat :=
  leave.map fun t => t + segsTime (planMove (x.limit 0) x.cfg.aMax x.cfg.jMax from_ target) * 1000000000 + (settleUs * 1000 : Nat)

/-- Arrivals of consecutive marks, from where the carriage is and when it leaves: each mark with its arrival. -/
def arrivals (c : Chip) (h : HeadCfg) (x : Axis) : Kin → Option Rat → List Mark → List (Mark × Option Rat)
  | _, _, [] => []
  | k, leave, m :: ms =>
    (m, arrival x h.settleUs k leave m.target) ::
      arrivals c h x { p := m.target, v := 0, a := 0 } ((predicted c m.fireMd).map (· + (h.fireWidthNs : Rat))) ms

/-- A plan with a mark in a queue: the arrival of the mark, and whether it and every mark after it arrive in time. -/
def planMark (c : Chip) (h : HeadCfg) (q : List Mark) (m : Mark) : Option Rat × Bool :=
  let x := vget c.axis h.axis
  let before := q.filter fun y => decide (y.fireMd ≤ m.fireMd)
  let after := q.filter fun y => decide (m.fireMd < y.fireMd)
  let (k, leave) : Kin × Option Rat := match before.getLast? with
    | some y => ({ p := y.target, v := 0, a := 0 }, (predicted c y.fireMd).map (· + (h.fireWidthNs : Rat)))
    | none => (x.kin c.now, some 0)
  let xs := arrivals c h x k leave (m :: after)
  ((xs.head?).bind (·.2), xs.all fun y => notAfter y.2 (predicted c y.1.fireMd))

/-- The carriage of a head stands where a mark needs it (R337). -/
def inPosition (c : Chip) (h : HeadCfg) (target : Int) : Bool :=
  let x := vget c.axis h.axis
  x.still && x.state == .idle && x.position == target && decide (x.standstillAt + h.settleUs * 1000 ≤ c.now) &&
  (x.cfg.encoder == 0xFF || decide ((deviation c x).natAbs ≤ h.cdTolerance))

/-! ### Fires (R336 to R338) -/

/-- The carriage moves toward the first mark in a head's queue (R336), once the pulse of the mark before has ended (R335). -/
def towardFirst (h : Nat) (c : Chip) : Chip :=
  let y := vget c.mark.heads h
  match y.queue with
  | [] => c
  | m :: _ =>
    let x := vget c.axis y.cfg.axis
    if (x.state = .idle ∨ x.state = .moving) ∧ x.target ≠ m.target ∧ !(vget c.time.pulse y.cfg.pulseOutput).inPulse then
      let c := noteArrival y.cfg.axis (modAxis y.cfg.axis (fun x => x.moveTo c.now m.target 0) c)
      modAxis y.cfg.axis (fun x => { x with state := if x.still then .idle else .moving }) c
    else c

/-- A head fires for a mark: its pulse output takes its active level for `fire_width_ns`. DEDUCED: log entry 140. -/
def fireHead (h : Nat) (m : Mark) (c : Chip) : Chip :=
  let y := vget c.mark.heads h
  let c := emit (.pulse y.cfg.pulseOutput (!y.cfg.activeLow)) (emit (.markFired h m.defect) c)
  modAxis y.cfg.axis (fun x => { x with marksFired := wrapU 64 (x.marksFired + 1) })
    { c with time := { c.time with pulse := vmod c.time.pulse y.cfg.pulseOutput fun p => { p with inPulse := true, endsAt := c.now + y.cfg.fireWidthNs, activeLow := y.cfg.activeLow } } }

/-- MARK_FIRE: MD has reached the first queued mark of a head (R337, R338 cause 6). DEDUCED: log entry 140. -/
def markFire (h : Nat) (c : Chip) : Chip :=
  let y := vget c.mark.heads h
  match y.queue with
  | [] => c
  | m :: rest =>
    if !inspecting c || !y.cfg.enable || decide ((mdNow c : Int) < m.fireMd) then c
    else
      let c := modHead h (fun z => { z with queue := rest }) c
      towardFirst h (if inPosition c y.cfg m.target then fireHead h m c else missMark h 6 0 m c)

def execMarkFire (t : Nat) (head : Fin 4) (s : State) : Host.Outcome State Fault Refusal :=
  .next (s.run t fun _ c => markFire head c)

/-! ### Scheduling a record (R333 to R338) -/

/-- What the scheduler looks at in a record. -/
structure Markable where
  id : Nat
  cls : Nat
  confidence : Nat
  area : Nat
  planes : Nat
  flags : Nat
  cd : Int
  mdFirst : Nat
  /-- `md_centroid`, or half of `md_extent` for a dense-area record. -/
  mdCentre : Nat

/-- A rule matches a record (R333). -/
def MarkRule.takes (r : MarkRule) (m : Markable) : Bool :=
  r.enable && bit r.classMask m.cls && decide (r.minConfidence ≤ m.confidence) && decide (r.minArea ≤ m.area) && decide (m.area ≤ r.maxArea) &&
  Nat.land m.planes r.planeMask != 0 && Nat.land m.flags r.flagsRequired == r.flagsRequired && Nat.land m.flags r.flagsForbidden == 0

/-- What one head makes of a mark. -/
inductive Offer where
  /-- It fires at once. -/
  | late
  /-- The plan is feasible and arrives then. -/
  | takes (arrival : Option Rat)
  /-- Feasible, but the queue is full. -/
  | full
  | infeasible (shortfallUs : Nat)
  | passed
  | outOfRange
  | axisDown

/-- Whole microseconds by which an arrival comes after a fire (R339). -/
def shortfall (arrive fire : Option Rat) : Nat :=
  match arrive, fire with
  | some a, some f => if f < a then ((a - f) / 1000).floor.toNat else 0
  | none, some _ => 0xFFFFFFFF
  | _, none => 0

/-- A head's answer to a mark (R335, R338): `now` are its present settings, where a later entry may have disabled it or moved it to another
axis or output. DEDUCED: log entry 139. -/
def offerOf (c : Chip) (now h : HeadCfg) (q : List Mark) (m : Mark) : Offer :=
  let x := vget c.axis h.axis
  if (x.state ≠ .idle ∧ x.state ≠ .moving) ∨ !now.enable ∨ now.axis ≠ h.axis ∨ now.pulseOutput ≠ h.pulseOutput then .axisDown
  else if m.target < x.cfg.posMin ∨ x.cfg.posMax < m.target then .outOfRange
  else
    let past := (hwmNow c : Int) - m.fireMd
    if (h.fireTolerance : Int) < past then .passed
    else if 0 ≤ past ∧ inPosition c h m.target then .late
    else
      let (a, ok) := planMark c h q m
      if !ok then .infeasible (shortfall a (predicted c m.fireMd)) else if 64 ≤ q.length then .full else .takes a

/-- Puts a mark into a queue in the order of `fire_md`. -/
def insertMark (m : Mark) (q : List Mark) : List Mark :=
  (q.filter fun y => decide (y.fireMd ≤ m.fireMd)) ++ [m] ++ q.filter fun y => decide (m.fireMd < y.fireMd)

/-- The better of two offers to take a mark: the earlier arrival, the lower head on a tie. -/
def betterOffer (best : Option (Nat × Option Rat)) (h : Nat) (o : Offer) : Option (Nat × Option Rat) :=
  match o, best with
  | .takes a, none => some (h, a)
  | .takes a, some (g, b) => if notAfter b a then some (g, b) else some (h, a)
  | _, b => b

/-- Cause of a mark that no head takes, and its shortfall (R338, R339). DEDUCED: log entry 139. -/
def missCause (os : List Offer) : Nat × Nat :=
  let short := os.filterMap fun o => match o with
    | .infeasible n => some n
    | _ => none
  if os.isEmpty then (0, 0)
  else if os.any fun o => match o with
    | .full => true
    | _ => false
  then (4, 0)
  else match short with
    | n :: ns => (0, ns.foldl min n)
    | [] =>
      if os.any fun o => match o with
        | .passed => true
        | _ => false
      then (2, 0)
      else if os.all fun o => match o with
        | .outOfRange => true
        | _ => false
      then (1, 0) else (3, 0)

/-- Marking runs: in the inspecting modes, until the mode begins to be left (R338, R536). -/
def marking (c : Chip) : Bool :=
  inspecting c && match c.modes.change with
    | .drain _ _ => false
    | .none | .selfTest _ => true

/-- The marker scheduler takes a record under the settings of its last line: whether its mark fired at once, which sets the
late-mark flag (R333 to R338). Once the inspecting modes are being left, or have been, every mark is missed with cause 5 (R536). DEDUCED: log
entry 139. -/
def scheduleMark (x : Settings) (r : Markable) (c : Chip) : Bool × Chip :=
  match x.rules.toList.find? fun q => q.takes r with
    | none => (false, c)
    | some rule =>
      let anchor := if rule.anchor = 0 then r.mdFirst + r.mdCentre else r.mdFirst
      let mark (h : HeadCfg) : Mark := {
        defect := r.id, fireMd := (anchor : Int) + h.downstream + h.lead, targetCd := r.cd, target := headTarget h r.cd }
      let hs := (List.range 4).filter fun h => bit rule.headMask h && (vget x.heads h).enable
      if !marking c then (false, missMark 0xFF 5 0 (mark (vget x.heads ((hs.head?).getD 0))) c) else
      let os := hs.map fun h => (h, offerOf c (vget c.mark.heads h).cfg (vget x.heads h) (vget c.mark.heads h).queue (mark (vget x.heads h)))
      let late := (os.find? fun o => match o.2 with
        | .late => true
        | _ => false).map (·.1)
      match late, os.foldl (fun b o => betterOffer b o.1 o.2) none with
      | some h, _ => (true, fireHead h (mark (vget x.heads h)) c)
      | none, some (h, _) => (false, towardFirst h (modHead h (fun y => { y with queue := insertMark (mark (vget x.heads h)) y.queue }) c))
      | none, none =>
        let (cause, short) := missCause (os.map (·.2))
        (false, missMark 0xFF cause short (mark (vget x.heads ((hs.head?).getD 0))) c)

/-! ### MARK.CONFIGURE (R341) -/

/-- The head of an entry; `p` starts after `transaction_id`. -/
def headOf (p : List Byte) : HeadCfg :=
  { enable := rd p 2 1 == 1, axis := rd p 4 1, pulseOutput := rd p 5 1, activeLow := bit (rd p 6 1) 0, fireWidthNs := rd p 8 4, downstream := rd p 12 4
    lead := rdS p 16 4, fireTolerance := rd p 20 4, cdAtZero := rdS p 24 4, wuPerMicrostep := rdS p 28 4, cdTolerance := rd p 32 4, settleUs := rd p 36 4 }

/-- The rule of an entry. -/
def ruleOf (p : List Byte) : MarkRule :=
  { enable := rd p 2 1 == 1, headMask := rd p 4 1, planeMask := rd p 5 1, anchor := rd p 6 1, minConfidence := rd p 7 1, flagsRequired := rd p 8 2
    flagsForbidden := rd p 10 2, minArea := rd p 12 4, maxArea := rd p 16 4, classMask := rd p 20 32 }

/-- An entry of MARK.CONFIGURE takes effect: a head that is disabled or changes its axis or output misses its queue (R338). -/
def markApply (p : List Byte) (c : Chip) : Chip :=
  let i := rd p 1 1
  if rd p 0 1 = 1 then { c with mark := { c.mark with rules := vset c.mark.rules i (ruleOf p) } }
  else
    let old := (vget c.mark.heads i).cfg
    let new := headOf p
    let c := if old.enable && (!new.enable || old.axis != new.axis || old.pulseOutput != new.pulseOutput) then missQueue i 3 c else c
    modHead i (fun h => { h with cfg := new }) c

/-- Ranges of a head. -/
def HeadCfg.ok (h : HeadCfg) : Bool :=
  decide (h.axis ≤ 3) && decide (h.pulseOutput ≤ 7) && decide (8 ≤ h.fireWidthNs) && decide (h.fireWidthNs ≤ 100000000) && h.fireWidthNs % 4 == 0 &&
  decide (h.downstream ≤ 2147483647) && h.wuPerMicrostep != 0 && decide (h.settleUs ≤ 1000000)

/-- An output holds a schedule. -/
def Pulse.scheduled (p : Pulse) : Bool := p.state == .armed || p.state == .running

/-- R341, on the configuration after the transaction; `es` are its entries. -/
def markValid (es : List Entry) (p : List Byte) (c : Chip) : Bool :=
  let hs := (c.mark.heads.toList.map (·.cfg)).filter (·.enable)
  let distinct (f : HeadCfg → Nat) : Bool := decide ((hs.map f).eraseDups.length = hs.length)
  let rulesOk := c.mark.rules.toList.all fun r => !r.enable || (List.range 4).any fun h => bit r.headMask h && (vget c.mark.heads h).cfg.enable
  (if rd p 0 1 = 0 then decide (rd p 1 1 ≤ 3) && (headOf p).ok else decide (rd p 1 1 ≤ 15) && decide ((ruleOf p).headMask < 16)) &&
  distinct (·.axis) && distinct (·.pulseOutput) && rulesOk && hs.all (fun h => !(vget c.time.pulse h.pulseOutput).scheduled) &&
  !(es.any fun e => e.code == 0x0B02 && hs.any fun h => h.axis == rd e.payload 0 1)

/-- MARK.CONFIGURE: reserved fields and enumerations at once (R302), the ranges at commit (`markValid`, R303). Byte 11 of a head's request,
which the table shows as no field of it, counts as reserved. DESIGN CHOICE: log entry 258. -/
def markConfigure (_ : Env) (j : Job) (c : Chip) : Reply :=
  let p := j.payload
  let head := rd p 4 1 == 0
  stage 0x0B05 ([lenIs 56 j, inRange p 4 1 0 1, inRange p 6 1 0 1, reserved p 7 1, param 10 (rd p 10 1 < 2)] ++
    (if head then [reserved p 11 1, reserved p 44 12] else [])) j c

def execMarkConfigure (t : Nat) (mb : Fin 8) (s : State) : Host.Outcome State Fault Refusal :=
  .next (s.command 0x0B05 t mb markConfigure)

end Sys2Proof.Machine
end

