-- ==== Sys2Proof/Machine/Axes.lean ====
section
/-! DEFINITION. Axis states, faults, homing, limit switches and the axis commands (R315 to R331, R340). -/
namespace Sys2Proof.Machine

/-! ### Faults and homing (R325 to R330) -/

/-- Two's complement saturated to 16 bits. -/
def sat16 (x : Int) : List Byte := leS 2 (satS 16 x)

/-- Position field of an axis event. -/
def posBytes (k : Nat) (c : Chip) : List Byte := leS 8 ((vget c.axis k).pos c.now)

/-- EV_AXIS_STALL. -/
def axisStallEvent (k cause : Nat) (c : Chip) : Chip :=
  raise 0x0B00 3 k (le 1 k ++ le 1 cause ++ sat16 (deviation c (vget c.axis k)) ++ posBytes k c) c

/-- EV_AXIS_LIMIT. -/
def axisLimitEvent (k cause sw : Nat) (c : Chip) : Chip :=
  raise 0x0B01 3 k (le 1 k ++ le 1 cause ++ le 1 sw ++ [0] ++ posBytes k c) c

/-- EV_HOME_DONE. -/
def homeDone (k result : Nat) (c : Chip) : Chip := raise 0x0B03 1 k (le 1 k ++ le 1 result ++ [0, 0] ++ posBytes k c) c

/-- Homing fails: the axis stops under quick stop and is left UNREFERENCED (R328). DEDUCED: log entry 137. -/
def homeFails (k result : Nat) (c : Chip) : Chip :=
  let c := modAxis k (fun x => { x.halt c.now true with state := .unreferenced, referenced := false, homing := none }) c
  homeDone k result c

/-- The axis enters FAULT with a cause (the event's low byte). DEDUCED: log entry 137. -/
def axisFault (k cause : Nat) (keeps : Bool) (c : Chip) : Chip :=
  missAxis k (modAxis k (fun x => { x with
    state := .fault, referenced := x.referenced && keeps, faultCause := cause, faultKeeps := keeps && x.referenced, homing := none }) c)

/-- Counts a stall. -/
def countStall (k : Nat) (c : Chip) : Chip :=
  let (n, c) := satAdd 0x0B04 48 k 32 (vget c.axis k).stalls 1 c
  modAxis k (fun x => { x with stalls := n }) c

/-- The reference is found: the position becomes `home_position`, the encoder is tied to it, and the carriage backs off
(R327). -/
def homeReference (k : Nat) (c : Chip) : Chip :=
  let x := vget c.axis k
  match x.homing with
  | none => c
  | some h =>
    if x.state ≠ .homing ∨ h.backingOff then c
    else
      let m := x.kin c.now
      let at_ : Kin := { p := h.homePosition, v := if h.reference = 0 then 0 else m.v, a := if h.reference = 0 then 0 else m.a }
      let target := satS 48 (h.homePosition + (if h.positive then -(h.backoff : Int) else h.backoff))
      let count := if x.cfg.encoder = 0xFF then 0 else (vget c.enc x.cfg.encoder).count
      let segs := planMove ((h.velocity : Rat) / 65536) x.cfg.aMax x.cfg.jMax at_ target
      modAxis k (fun x => { x with
        referenced := true, encRef := h.homePosition, countRef := count, countAt := c.now, insideAt := c.now, position := h.homePosition, target
        homing := some { h with backingOff := true }
        profile := some { start := c.now, p := at_.p, v := at_.v, a := at_.a, segs } }) c

/-- HOME_BACKOFF_DONE (R327). -/
def homeBackoffDone (k : Nat) (c : Chip) : Chip :=
  let x := vget c.axis k
  if x.state ≠ .homing ∨ !((x.homing.map (·.backingOff)).getD false) ∨ !x.ended c.now then c
  else homeDone k 0 (modAxis k (fun x => { x with
    state := .idle, homing := none, profile := none, position := x.target, standstillAt := c.now, phaseRetained := false }) c)

def execHomeBackoffDone (t : Nat) (axis : Fin 4) (s : State) : Host.Outcome State Fault Refusal :=
  .next (s.run t fun _ c => homeBackoffDone axis c)

/-- HOME_MAX_TRAVEL: `max_travel` microsteps have passed without a reference (R328). -/
def homeMaxTravel (k : Nat) (c : Chip) : Chip :=
  let x := vget c.axis k
  match x.homing with
  | some h => if x.state = .homing ∧ !h.backingOff ∧ h.maxTravel ≤ (x.pos c.now - h.origin).natAbs then homeFails k 1 c else c
  | none => c

def execHomeMaxTravel (t : Nat) (axis : Fin 4) (s : State) : Host.Outcome State Fault Refusal :=
  .next (s.run t fun _ c => homeMaxTravel axis c)

/-- AXIS_STALL: the deviation has stood beyond its window (R325). While homing to a hard stop it is the reference (R327); in other homing the
axis keeps the reference it has. DEDUCED: log entry 137. -/
def axisStall (k : Nat) (c : Chip) : Chip :=
  let x := vget c.axis k
  if x.cfg.encoder = 0xFF ∨ !x.stalled c ∨ x.state = .disabled ∨ x.state = .fault then c
  else if (x.homing.map fun h => h.reference == 0 && !h.backingOff).getD false then homeReference k c
  else
    let c := axisStallEvent k 0 (countStall k c)
    let c := axisFault k 0 (x.state == .homing) (modAxis k (fun x => x.freeze c.now .hold) c)
    modAxis k (fun x => { x with faultKeeps := false }) c

def execAxisStall (t : Nat) (axis : Fin 4) (s : State) : Host.Outcome State Fault Refusal :=
  .next (s.run t fun _ c => axisStall axis c)

/-- AXIS_DRIVER_FAULT: AXn_EN is deasserted and the axis enters FAULT (R326); one that was homing stops under quick stop and is left
UNREFERENCED, with result 4 (R328). DEDUCED: log entry 137. -/
def driverFault (k : Nat) (c : Chip) : Chip :=
  let c := axisStallEvent k 1 (countStall k c)
  let off (x : Axis) : Axis := { x with current := .off, en := false, windingA := {}, windingB := {} }
  if (vget c.axis k).state = .homing then modAxis k off (homeFails k 4 c)
  else axisFault k 0 false (modAxis k (fun x => off (x.freeze c.now .off)) c)

def execAxisDriverFault (t : Nat) (axis : Fin 4) (s : State) : Host.Outcome State Fault Refusal :=
  .next (s.run t fun _ c => driverFault axis c)

/-- The switch input of an axis. -/
def Axis.switch (x : Axis) (positive : Bool) : Nat := if positive then x.cfg.swPosGpio else x.cfg.swNegGpio

/-- The accepted state of a switch. -/
def Axis.setSwitch (x : Axis) (positive asserted : Bool) : Axis :=
  if positive then { x with posAsserted := asserted } else { x with negAsserted := asserted }

/-- An accepted assertion of a switch (R327, R328, R329). -/
def switchAsserted (k : Nat) (positive : Bool) (c : Chip) : Chip :=
  let x := vget c.axis k
  let sw := b2n positive
  if !gpLive c (x.switch positive) then c
  else
    let c := modAxis k (fun x => x.setSwitch positive true) c
    match x.homing with
    | some h =>
      if h.reference = (if positive then 2 else 1) then homeReference k c
      else homeFails k 2 (axisLimitEvent k 1 sw c)
    | none =>
      let v := (x.kin c.now).v
      if x.state ≠ .fault ∧ ((positive ∧ 0 < v) ∨ (!positive ∧ v < 0)) then
        axisFault k 1 true (axisLimitEvent k 0 sw (modAxis k (fun x => x.halt c.now true) c))
      else c

/-- HOME_REFERENCE: the stall of R325, or the debounced assertion of the designated switch (R327). -/
def homeFound (k : Nat) (c : Chip) : Chip :=
  let x := vget c.axis k
  match x.homing with
  | none => c
  | some h => if h.reference = 0 then (if x.stalled c then homeReference k c else c) else switchAsserted k (h.reference == 2) c

def execHomeReference (t : Nat) (axis : Fin 4) (s : State) : Host.Outcome State Fault Refusal :=
  .next (s.run t fun _ c => homeFound axis c)

/-- LIMIT_SWITCH (R329). -/
def execLimitSwitch (t : Nat) (axis : Fin 4) (positive : Bool) (s : State) : Host.Outcome State Fault Refusal :=
  .next (s.run t fun _ c => switchAsserted axis positive c)

/-- SWITCH_STATE_ACCEPTED (R329). -/
def switchAccepted (k : Nat) (positive asserted : Bool) (c : Chip) : Chip :=
  if asserted then switchAsserted k positive c
  else if !gpLive c ((vget c.axis k).switch positive) then c else modAxis k (fun x => x.setSwitch positive false) c

def execSwitchStateAccepted (t : Nat) (axis : Fin 4) (positive asserted : Bool) (s : State) : Host.Outcome State Fault Refusal :=
  .next (s.run t fun _ c => switchAccepted axis positive asserted c)

/-- SWITCH_CHATTER (R328, R330). DEDUCED: log entry 137. -/
def switchChatter (k : Nat) (positive : Bool) (transitions : Nat) (c : Chip) : Chip :=
  let x := vget c.axis k
  if x.state = .disabled ∨ !gpLive c (x.switch positive) ∨ transitions ≤ 8 then c
  else
    let c := raise 0x0B02 3 k (le 1 k ++ le 1 (b2n positive) ++ le 1 (satU 8 transitions) ++ [0] ++ posBytes k c) c
    if x.state = .homing then homeFails k 3 c
    else axisFault k 2 false (modAxis k (fun x => x.halt c.now true) c)

def execSwitchChatter (t : Nat) (axis : Fin 4) (positive : Bool) (transitions : Nat) (s : State) : Host.Outcome State Fault Refusal :=
  .next (s.run t fun _ c => switchChatter axis positive transitions c)

/-! ### The end of a move, and the hold current (R318, R323) -/

/-- AXIS_MOVE_COMPLETE: the profile has ended at its target. -/
def moveComplete (k : Nat) (c : Chip) : Chip :=
  let x := vget c.axis k
  if x.still || x.state == .homing || !x.ended c.now then c
  else
    let c := modAxis k (fun x => { x with
      profile := none, position := x.target, standstillAt := c.now, state := if x.state = .moving then .idle else x.state }) c
    match headOn c k with
    | some h => if marking c then towardFirst h c else c
    | none => c

def execAxisMoveComplete (t : Nat) (axis : Fin 4) (s : State) : Host.Outcome State Fault Refusal :=
  .next (s.run t fun _ c => moveComplete axis c)

/-- AXIS_HOLD_DELAY: `hold_delay_ms` have passed since the last microstep (R323). -/
def execAxisHoldDelay (t : Nat) (axis : Fin 4) (s : State) : Host.Outcome State Fault Refusal :=
  .next (s.run t fun _ c => modAxis axis (fun x =>
    if x.still ∧ (x.state = .idle ∨ x.state = .unreferenced) ∧ x.standstillAt + x.cfg.holdDelayMs * 1000000 ≤ c.now then { x with current := .hold } else x) c)

/-! ### Commands (R340) -/

/-- Settings of AXIS.CONFIGURE. -/
def axisOf (p : List Byte) : AxisCfg :=
  let f := rd p 1 1
  { driverEnable := bit f 0, retainPhase := bit f 1, adapt := bit f 2, fastDecay := bit f 3, microstepLog2 := rd p 2 1, encoder := rd p 3 1
    runCurrent := rd p 4 2, holdCurrent := rd p 6 2, homeCurrent := rd p 8 2, windowH := rd p 10 2, blankNs := rd p 12 2, compDelayNs := rd p 14 2
    holdDelayMs := rd p 16 2, swNegGpio := rd p 18 1, swPosGpio := rd p 19 1, swFlags := rd p 20 1, vMax := rd p 24 8, aMax := rd p 32 4, jMax := rd p 36 4
    stopDecel := rd p 40 4, microstepsPerCount := rdS p 44 4, devWindow := rd p 48 4, stallTimeUs := rd p 52 4, posMin := rdS p 56 8, posMax := rdS p 64 8 }

/-- A position of 48 bits, sign-extended (R317). -/
def pos48 (x : Int) : Bool := decide (-(2 ^ 47 : Int) ≤ x) && decide (x < 2 ^ 47)

/-- Powers an axis down (R324); one that is DISABLED already stays as it is. -/
def powerDown (now : Nat) (x : Axis) : Axis :=
  let y := x.freeze now .off
  if x.state = .disabled then x else { y with
    state := .disabled, homing := none, referenced := false, phaseRetained := x.cfg.retainPhase && x.referenced
    powerDownCount := if x.cfg.retainPhase && x.referenced then some y.position else none, en := false, windingA := {}, windingB := {} }

/-- The state of an axis whose driver is enabled again (R324). -/
def powerUp (c : Chip) (x : Axis) : Axis :=
  let agrees := match x.powerDownCount, encoderPosition c x with
    | some p, some e => x.cfg.retainPhase && decide ((p - e).natAbs ≤ x.cfg.devWindow)
    | _, _ => false
  { x with
    state := if agrees then .idle else .unreferenced, referenced := agrees, phaseRetained := agrees, powerDownCount := none
    current := .hold, standstillAt := c.now, en := true, sampledAt := c.now, insideAt := c.now }

/-- What AXIS.CONFIGURE makes of an axis (R324, R340). -/
def configureAxis (c : Chip) (new : AxisCfg) (x : Axis) : Axis :=
  let changed := x.cfg.encoder != new.encoder || x.cfg.microstepLog2 != new.microstepLog2 || x.cfg.microstepsPerCount != new.microstepsPerCount
  let y := { x with cfg := new, configured := true }
  let y := if changed then { y with referenced := false, faultKeeps := false, phaseRetained := false, powerDownCount := none } else y
  if x.state = .fault then y
  else if !new.driverEnable then powerDown c.now y
  else if x.state = .disabled then powerUp c y
  else if changed then { y with state := .unreferenced } else y

/-- AXIS.CONFIGURE (R340, R573). -/
def axisConfigure (_ : Env) (j : Job) (c : Chip) : Reply :=
  let p := j.payload
  let a := axisOf p
  let k := rd p 0 1
  let gpio (v : Nat) : Bool := v < 32 || v == 0xFF
  let x := vget c.axis k
  checked
    [lenIs 72 j, inRange p 0 1 0 3, param 1 (rd p 1 1 < 16), inRange p 2 1 0 8, param 3 (a.encoder == 0xFF || (4 ≤ a.encoder && a.encoder ≤ 7)),
     inRange p 4 2 0 1023, inRange p 6 2 0 1023, inRange p 8 2 0 1023, inRange p 10 2 1 255,
     param 12 (100 ≤ a.blankNs && a.blankNs ≤ 4000 && a.blankNs % 4 == 0), inRange p 14 2 0 2000, inRange p 16 2 1 10000, param 18 (gpio a.swNegGpio),
     param 19 (gpio a.swPosGpio), param 20 (a.swFlags < 4), reserved p 21 3, inRange p 24 8 65536 (4000000 * 65536), param 32 (a.aMax != 0),
     param 36 (a.jMax != 0), param 40 (decide (a.aMax ≤ a.stopDecel)), param 44 (a.microstepsPerCount != 0), inRange p 48 4 1 (2 ^ 24),
     inRange p 52 4 10 1000000, param 56 (pos48 a.posMin), param 64 (pos48 a.posMax && decide (a.posMin < a.posMax)),
     stateRule c (x.state != .homing && x.state != .moving), ownRule stBusy (headOn c k).isNone,
     ownRule stBusy (!gpMux c 8 a.swNegGpio && !gpMux c 8 a.swPosGpio)] c
    (reply stOk (modAxis k (configureAxis c a) (sampledAxis k c)))

def execAxisConfigure (t : Nat) (mb : Fin 8) (s : State) : Host.Outcome State Fault Refusal :=
  .next (s.command 0x0B00 t mb axisConfigure)

/-- AXIS.HOME. DEDUCED: log entry 138. -/
def axisHome (_ : Env) (j : Job) (c : Chip) : Reply :=
  let p := j.payload
  let k := rd p 0 1
  let x := vget c.axis k
  let r := rd p 1 1
  let positive := rd p 2 1 == 1
  checked
    [lenIs 32 j, inRange p 0 1 0 3,
     param 1 (match r with
       | 0 => x.cfg.encoder != 0xFF
       | 1 => x.cfg.swNegGpio != 0xFF
       | 2 => x.cfg.swPosGpio != 0xFF
       | _ => false),
     inRange p 2 1 0 1, reserved p 3 1, param 4 (decide (rd p 4 8 ≤ x.cfg.vMax)), param 16 (rd p 16 4 != 0), reserved p 20 4, param 24 (pos48 (rdS p 24 8)),
     stateRule c (x.state == .unreferenced || x.state == .idle), ownRule stBusy (headOn c k).isNone] c
    (let h : Homing := {
       reference := r, positive, velocity := rd p 4 8, backoff := rd p 12 4, maxTravel := rd p 16 4, homePosition := rdS p 24 8, origin := x.pos c.now }
     let travel : Int := h.maxTravel + 2 ^ 40
     let far := x.pos c.now + (if positive then travel else -travel)
     let segs := planMove ((h.velocity : Rat) / 65536) x.cfg.aMax x.cfg.jMax (x.kin c.now) far
     reply stPending (modAxis k (fun x => { x.begin c.now segs far .home with state := .homing, referenced := false, homing := some h }) c))

def execAxisHome (t : Nat) (mb : Fin 8) (s : State) : Host.Outcome State Fault Refusal :=
  .next (s.command 0x0B01 t mb axisHome)

/-- The absolute target of a move; `p` starts after `transaction_id`. DEDUCED: log entry 138. -/
def moveTarget (x : Axis) (now : Nat) (p : List Byte) : Int := if rd p 1 1 = 1 then satS 48 (x.pos now + rdS p 4 8) else rdS p 4 8

/-- A target the axis may take (R329, R331). DEDUCED: log entry 138. -/
def targetOk (x : Axis) (now : Nat) (t : Int) : Bool :=
  decide (x.cfg.posMin ≤ t) && decide (t ≤ x.cfg.posMax) && !(x.posAsserted && decide (x.pos now < t)) && !(x.negAsserted && decide (t < x.pos now))

/-- Starts the move of a request. -/
def startMove (k : Nat) (p : List Byte) (c : Chip) : Chip :=
  let c := modAxis k (fun x => x.moveTo c.now (moveTarget x c.now p) (rd p 12 8)) c
  noteArrival k (modAxis k (fun x => { x with state := if x.state = .unreferenced then .unreferenced else if x.still then .idle else .moving }) c)

/-- A staged move takes effect: whether it was executed (R310, R331). One whose target the axis may not take at N0 is not. DESIGN CHOICE:
log entry 263. -/
def moveApply (p : List Byte) (c : Chip) : Bool × Chip :=
  let k := rd p 0 1
  let x := vget c.axis k
  if (x.state = .idle ∨ x.state = .moving) ∧ targetOk x c.now (moveTarget x c.now p) then (true, startMove k p c) else (false, axisLimitEvent k 3 0xFF c)

/-- The largest velocity, 32.16 (R317). -/
abbrev maxVelocity : Nat := 4000000 * 65536

/-- A staged move at commit: the ranges of R317, R329 and R331; a relative target is judged where the axis stands still. DESIGN CHOICE: log
entry 263. -/
def moveValid (p : List Byte) (c : Chip) : Bool :=
  let x := vget c.axis (rd p 0 1)
  decide (rd p 0 1 ≤ 3) && decide (rd p 12 8 ≤ maxVelocity) && pos48 (rdS p 4 8) &&
  ((rd p 1 1 == 1 && !x.still) || targetOk x c.now (moveTarget x c.now p))

/-- AXIS.MOVE. -/
def axisMove (_ : Env) (j : Job) (c : Chip) : Reply :=
  let p := j.payload
  let q := p.drop 4
  let k := rd q 0 1
  let x := vget c.axis k
  let shape (now : Bool) := [lenIs 24 j, rangeIf now (inRange p 4 1 0 3), inRange p 5 1 0 1, reserved p 6 2]
  if rd p 0 4 ≠ 0 then stage 0x0B02 (shape false ++ [ownRule stBusy (headOn c k).isNone]) j c
  else
    checked
      (shape true ++
       [param 8 (pos48 (rdS q 4 8) && targetOk x c.now (moveTarget x c.now q)), param 16 (decide (rd q 12 8 ≤ maxVelocity)),
        stateRule c (x.state == .idle || x.state == .moving || (x.state == .unreferenced && rd q 1 1 == 1)),
        ownRule stBusy ((headOn c k).isNone && !targetHeld c (0x0B02, k) 0)]) c
      (let c := startMove k q c
       replyBody (le 6 (vget c.axis k).arrivalS ++ le 4 (vget c.axis k).arrivalNs ++ zeros 2) c)

def execAxisMove (t : Nat) (mb : Fin 8) (s : State) : Host.Outcome State Fault Refusal :=
  .next (s.command 0x0B02 t mb axisMove)

/-- What AXIS.STOP does (R324, R328, R316, R340). A limit stop that is cleared while its quick stop still runs leaves the axis MOVING until it
stands. DEDUCED: log entry 137. -/
def stopAxis (k : Nat) (quick power clear : Bool) (c : Chip) : Chip :=
  let c := missAxis k c
  let c := if (vget c.axis k).state = .homing then homeFails k 4 c else modAxis k (fun x => if x.state = .fault then x else x.halt c.now quick) c
  let cleared (x : Axis) : AxisState := if !x.faultKeeps then .unreferenced else if x.still then .idle else .moving
  let c := modAxis k (fun x => if clear ∧ x.state = .fault then { x with
    state := cleared x, referenced := x.referenced && x.faultKeeps, current := if x.current = .off then .hold else x.current
    en := true, sampledAt := if x.en then x.sampledAt else c.now } else x) c
  if power then modAxis k (powerDown c.now) c else c

/-- AXIS.STOP. -/
def axisStop (_ : Env) (j : Job) (c : Chip) : Reply :=
  let p := j.payload
  checked [lenIs 4 j, inRange p 0 1 0 3, inRange p 1 1 0 1, param 2 (rd p 2 1 < 4), reserved p 3 1] c
    (reply stOk (stopAxis (rd p 0 1) (rd p 1 1 == 1) (bit (rd p 2 1) 0) (bit (rd p 2 1) 1) c))

def execAxisStop (t : Nat) (mb : Fin 8) (s : State) : Host.Outcome State Fault Refusal :=
  .next (s.command 0x0B03 t mb axisStop)

/-- An entry of the mark log (R339). -/
def missedBytes (m : MissedMark) : List Byte :=
  le 8 m.defect ++ leS 8 m.fireMd ++ leS 4 m.targetCd ++ le 1 m.head ++ le 1 m.cause ++ [0, 0] ++ le 4 m.shortfallUs ++ le 4 m.sequence

/-- AXIS.STATUS section 0. -/
def axisState (k : Nat) (c : Chip) : List Byte × Chip :=
  let c := sampledAxis k c
  let x := vget c.axis k
  let head := headOn c k
  let q := (head.map fun h => (vget c.mark.heads h).queue.length).getD 0
  let code : Nat := match x.state with
    | .disabled => 0
    | .unreferenced => 1
    | .homing => 2
    | .idle => 3
    | .moving => 4
    | .fault => 5
  (le 1 code ++ le 1 (packBits [x.referenced, x.phaseRetained, x.negAsserted, x.posAsserted, head.isSome]) ++ le 1 x.faultCause ++ le 1 q ++
    leS 8 (x.pos c.now) ++ leS 8 (x.velocity c.now * 65536).floor ++ leS 4 (satS 32 (deviation c x)) ++ leS 8 x.target ++ le 6 x.arrivalS ++ le 4 x.arrivalNs ++
    leS 2 x.windingA.off ++ leS 2 x.windingB.off ++ zeros 2 ++ le 4 x.stalls ++ le 4 x.missedMarks ++ le 8 x.marksFired,
   c)

/-- AXIS.STATUS. -/
def axisStatus (_ : Env) (j : Job) (c : Chip) : Reply :=
  let p := j.payload
  checked [lenIs 4 j, inRange p 0 1 0 3, inRange p 1 1 0 1] c
    (if rd p 1 1 = 1 then replyBody (((c.mark.log.drop (rd p 2 2)).take 64).flatMap missedBytes) c
     else
       let (body, c) := axisState (rd p 0 1) c
       replyBody body c)

def execAxisStatus (t : Nat) (mb : Fin 8) (s : State) : Host.Outcome State Fault Refusal :=
  .next (s.command 0x0B04 t mb axisStatus)

/-- A change of mode ends every homing (R328). -/
def endHoming (c : Chip) : Chip :=
  (List.range 4).foldl (fun c k => if (vget c.axis k).state = .homing then homeFails k 4 c else c) c

/-- LOCKDOWN and THERMAL-HALT: AXn_EN is deasserted and every axis is DISABLED (R338). -/
def disableAxes (c : Chip) : Chip :=
  let c := endHoming c
  { c with axis := vmapIdx (fun _ x => powerDown c.now x) c.axis }

end Sys2Proof.Machine
end

