-- ==== Sys2Proof/Machine/Accept.lean ====
section
/-! DEFINITION. A closed blob is accepted: it takes its defect ID, its tile, its class, its roll fields and its mark, and its
record enters the queue (R188, R190, R191, R200, R207, R217, R230, R231, R333). -/
namespace Sys2Proof.Machine

/-- Takes a closed blob out of the waiting ones: live blobs before replayed ones (R188, R195). DEDUCED: log entry 96. -/
def firstClosed (c : Chip) : Option (Closed × List Closed) :=
  match c.carry.closed.find? (fun k => !k.blob.replayed) with
  | some k => some (k, c.carry.closed.erase k)
  | none => match c.carry.closed with
    | [] => none
    | k :: ks => some (k, ks)

/-- A new sequence of the defect ID: the sequence, and the device after it; a change of bits [55:32] goes into the life record
(R200, R201); a sequence of all ones stays (R550). -/
def takeDefect (c : Chip) : Nat × Chip :=
  let n := c.life.totals.nextDefect
  let (next, c) := satAdd 0x0D03 56 0 56 n 1 c
  let c := { c with life := { c.life with totals := { c.life.totals with nextDefect := next } } }
  (n, if next / 2 ^ 32 = n / 2 ^ 32 then c else journalAdd 5 0 (le 8 next) c)

/-- The chain of a record: its `chain_id`, what a chain-merged record names (none where it absorbed no chain), and the chains
still open (R190, R191). -/
def chainOf (k : Closed) (sequence : Nat) (chains : List (Nat × Nat)) : Nat × Option Nat × List (Nat × Nat) :=
  let b := k.blob
  let known (key : Nat) : Option Nat := (chains.find? fun x => x.1 == key).map (·.2)
  let id := (known b.key).getD (wrapU 32 sequence)
  let merged := b.absorbed.filterMap fun a => (known a.2.2).map fun v => (a.1, a.2.1, v)
  let first := (sortBy (fun x y => decide (x.1 < y.1) || (x.1 == y.1 && decide (x.2.1 ≤ y.2.1))) merged).head?
  let rest := chains.filter fun x => x.1 != b.key && !(b.absorbed.any fun a => a.2.2 == x.1)
  (id, first.map (·.2.2), if k.continuation then (b.key, id) :: rest else rest)

/-- The settings a record is made with: those of its last line, on the grid the index holds for a replayed one (R309, R261).
DEDUCED: log entry 96. -/
def recordSettings (k : Closed) (c : Chip) : Settings :=
  let x := settingsAt c k.blob.nLast
  if !k.blob.replayed then x
  else match indexOf c.orangery k.blob.nLast with
    | some i => { x with model := c.abacus.model, geo := { x.geo with cdPitch := i.cdPitch, column0 := i.column0, columnCount := i.columnCount } }
    | none => { x with model := c.abacus.model }

/-- What the marker scheduler looks at in a record (R333, R334). -/
def markableOf (k : Closed) (g : Geometry) (id cls confidence flags : Nat) : Markable :=
  let b := k.blob
  let cd (col : Nat) : Int := g.column0 + (col * g.cdPitch : Nat)
  { id, cls, confidence, area := b.area, planes := b.planes, flags, mdFirst := b.mdFirst
    cd := if k.dense then (cd b.cMin + cd b.cMax) / 2 else g.column0 + roundedQuot (g.cdPitch * b.sumC : Nat) b.area
    mdCentre := if k.dense then (b.mdLast - b.mdFirst) / 2 else (roundedQuot b.sumMd b.area).toNat }

/-- The record of a closed blob: its chain, its tile, its class, its repeats, its mark and its place in the queue. DEDUCED: log entry 84. -/
def emitRecord (k : Closed) (c : Chip) : Chip :=
  let b := k.blob
  let x := recordSettings k c
  let (sequence, c) := takeDefect c
  let id := c.modes.nodeId * 2 ^ 56 + sequence
  let (chainId, absorbed, chains) := chainOf k sequence c.carry.chains
  let c := { c with carry := { c.carry with chains } }
  let (tileRef, late, c) := reserveTile x k id c
  let (cls, confidence, c) := classifyBlob x.model k x.geo c
  let roll := rollFields x k c
  let flags := Closed.flags k absorbed.isSome + 2 ^ 11 * b2n late
  let (lateMark, c) := if b.replayed then (false, c) else scheduleMark x (markableOf k x.geo id cls confidence flags) c
  let c := binRecord x k cls id c
  let c := if tileRef = 0 then c else viewBox { cMin := b.cMin, cMax := b.cMax, first := b.nFirst, last := b.nLast, cls } c
  let (dense, c) := satAdd 0x0705 12 0 32 c.carry.denseRecords (b2n k.dense) c
  let c := { c with carry := { c.carry with denseRecords := dense } }
  let auxId := match k.splitGroup with
    | some g => g
    | none => absorbed.getD 0
  let data := recordBytes k x.geo { id, cls, confidence, flags := flags + 2 ^ 5 * b2n lateMark, tileRef, roll, chainId, auxId }
  pushRecord { data, id, mdFirst := b.mdFirst, mdLast := b.mdLast, tile := if late then 0 else tileRef } c

/-- BLOB_CLASSIFY: the closure FIFO's next blob is accepted. DEDUCED: log entry 96. -/
def acceptBlob (c : Chip) : Chip :=
  match firstClosed c with
  | none => c
  | some (k, rest) => releaseModel (pruneOlder (emitRecord k { c with carry := { c.carry with closed := rest } }))

def execBlobClassify (t : Nat) (s : State) : Host.Outcome State Fault Refusal :=
  .next (s.run t fun _ c => acceptBlob c)

end Sys2Proof.Machine
end

