-- ==== Sys2Proof/Machine/Totals.lean ====
section
/-! DEFINITION. The totals of the life record as bytes, its checkpoints, and the calendar (R508, R509, R512). -/
namespace Sys2Proof.Machine

/-- Section 0 of LIFE.READ: the totals (216 bytes). -/
def totalsBytes (c : Chip) : List Byte :=
  let x := c.life.totals
  le 4 x.powerOnHours ++ le 4 x.powerCycles ++ le 4 x.thermalCycles ++ le 4 (satU 32 (x.aging / 2 ^ 32 / 225)) ++
  (x.throttleS.toList.flatMap (le 4)) ++ le 4 x.supplyDips ++ le 4 x.supplyResets ++ le 4 x.eccCorrected ++ le 4 x.eccUncorrected ++
  (c.sec.fuses.toList.flatMap fun f => le 1 f.used) ++ le 1 x.utcSource ++ leS 2 x.utcOffset ++ le 4 x.auditEntries ++ le 8 x.nextDefect ++
  (x.takeovers.toList.flatMap (le 1)) ++ [0] ++ le 2 x.retiredExtents ++ le 4 x.entriesDropped ++ (x.lines.toList.flatMap (le 8))

/-- A checkpoint: every total, in 6 parts of 42 bytes (R508, R509). -/
def checkpoint (c : Chip) : Chip :=
  let bytes := totalsBytes c
  (List.range 6).foldl (fun c i => journalAdd 3 i (sliceB bytes (42 * i) 42) c) c

/-- The UTC offset comes from a source; a change of it is a checkpoint (R509, R512). -/
def setUtcOffset (source : Nat) (offset : Int) (c : Chip) : Chip :=
  let c' := { c with life := { c.life with totals := { c.life.totals with utcOffset := offset, utcSource := source } } }
  if c.life.totals.utcOffset = offset then c' else checkpoint c'

end Sys2Proof.Machine
end

