-- ==== Sys2Proof/Machine/Time.lean ====
section
/-! DEFINITION. The Sundial, network time and the servo (R343 to R362). -/
namespace Sys2Proof.Machine

def modTime (f : Time → Time) (c : Chip) : Chip := { c with time := f c.time }
def modServo (f : Servo → Servo) (c : Chip) : Chip := modTime (fun x => { x with servo := f x.servo }) c
def modEth (k : Nat) (f : EthPort → EthPort) (c : Chip) : Chip := modTime (fun x => { x with eth := vmod x.eth k f }) c

/-! ### The counter (R343 to R346) -/

/-- The Sundial at a number of 2^-32 ns since the epoch, as of the last tick at or before t. -/
def Sundial.set (x : Sundial) (t total : Nat) : Sundial :=
  let ns := total / 2 ^ 32
  { x with s := ns / 1000000000, ns := ns % 1000000000, frac := total % 2 ^ 32, at_ := x.at_ + (t - x.at_) / 4 * 4 }

/-- The Sundial's seconds at all ones are a saturated counter (R550). DEDUCED: log entry 12. -/
def noteSeconds (c : Chip) : Chip := noteSaturated 0x0A00 0 0 48 c.time.sun.s c

/-- A new increment from the next tick on (R355). -/
def setIncrement (v : Nat) (c : Chip) : Chip :=
  noteSeconds (modTime (fun x => { x with sun := { (x.sun.set c.now (sunTotal x.sun c.now)) with increment := v } }) c)

/-- Least and greatest increment (R343). -/
abbrev incrementMin : Nat := 0x3FEF9DB23
abbrev incrementMax : Nat := 0x4010624DD

/-- The increment of an adjustment in 2^-16 ppb: 2^34 · (1 − adj · 10^-9), rounded. DEDUCED: log entry 147. -/
def incrementOf (adj : Int) : Nat := (divNearest (2 ^ 34 * 1000000000 - adj * 2 ^ 18) 1000000000).toNat

/-- A step by a signed number of ns stays on the scale (R346). -/
def stepFits (c : Chip) (delta : Int) : Bool :=
  let v := (sunNs c : Int) + delta
  decide (0 ≤ v) && decide (v < 2 ^ 48 * 1000000000)

/-! ### Pulse outputs, as far as a step of the Sundial touches them (R363 to R367) -/

def modPulse (o : Nat) (f : Pulse → Pulse) (c : Chip) : Chip := modTime (fun x => { x with pulse := vmod x.pulse o f }) c

/-- Point of boundary k in 2^-32 ns or 2^-32 wu (R363). -/
def Pulse.point (p : Pulse) (k : Nat) : Nat := p.start * 2 ^ 32 + (if p.mode % 2 = 1 then k * p.period else 0)

/-- The present time or MD in the units of a schedule's points. -/
def pulseNow (c : Chip) (p : Pulse) : Nat := if p.mode < 2 then sunTotal c.time.sun c.now else mdNow c * 2 ^ 32

/-- A point has already passed (R364, R365): before the present time, or at or below the high-water mark. DEDUCED: log entry 146. -/
def pointPassed (c : Chip) (p : Pulse) (k : Nat) : Bool :=
  if p.mode < 2 then decide (p.point k < sunTotal c.time.sun c.now) else decide (p.point k ≤ hwmNow c * 2 ^ 32)

/-- A pulse starts. -/
def firePulse (o : Nat) (c : Chip) : Chip :=
  let p := vget c.time.pulse o
  emit (.pulse o (!p.activeLow)) (modPulse o (fun p => { p with inPulse := true, endsAt := c.now + p.width, emitted := wrapU 32 (p.emitted + 1) }) c)

/-- EV_PULSE_LATE (R371). -/
def pulseLate (o outcome : Nat) (p : Pulse) (c : Chip) : Chip :=
  let late := if p.mode < 2 then (sunTotal c.time.sun c.now - p.point 0) / 2 ^ 32 else hwmNow c - p.start
  raise 0x0A04 2 o (le 1 o ++ le 1 outcome ++ le 1 p.mode ++ [0] ++ le 8 (satU 64 late)) c

/-- A one-shot point that has passed fires now, unless the output is still in a pulse: then it fires at that pulse's end
(R365, R366). DEDUCED: log entry 146. -/
def fireLate (o : Nat) (c : Chip) : Chip :=
  let p := vget c.time.pulse o
  if p.inPulse then c else pulseLate o 0 p (firePulse o (modPulse o (fun p => { p with state := .late }) c))

/-- The first boundary of a periodic schedule after a time or MD in the units of its points (R365, R367). -/
def Pulse.firstAfter (p : Pulse) (x : Nat) : Nat :=
  if p.period = 0 ∨ x < p.point 0 then 0 else (x - p.point 0) / p.period + 1

/-- The first boundary of a periodic schedule after the present time or MD. -/
def nextBoundary (c : Chip) (p : Pulse) : Nat := p.firstAfter (if p.mode < 2 then sunTotal c.time.sun c.now else hwmNow c * 2 ^ 32)

/-- The first boundary that a forward step of the Sundial has not passed over: one at the new time itself is still to come (R367).
DEDUCED: log entry 146. -/
def boundaryNotPassed (c : Chip) (p : Pulse) : Nat := p.firstAfter (sunTotal c.time.sun c.now - 1)

/-- A periodic schedule continues at a boundary, or has ended. -/
def Pulse.goOn (p : Pulse) (k : Nat) : Pulse := { p with k, state := if p.count ≠ 0 ∧ p.count ≤ k then .done else p.state }

/-- What a step of the Sundial does to the time schedules (R367). DEDUCED: log entry 146. -/
def stepPulses (forward : Bool) (c : Chip) : Chip :=
  (List.range 8).foldl (fun c o =>
    let p := vget c.time.pulse o
    if 2 ≤ p.mode ∨ !(p.state == .armed || p.state == .running) then c
    else if p.mode = 1 then modPulse o (fun p => if forward then p.goOn (max p.k (boundaryNotPassed c p)) else p.goOn (nextBoundary c p)) c
    else if forward && pointPassed c p 0 then fireLate o c else c) c

/-! ### Steps (R346) -/

/-- Steps the Sundial to a number of 2^-32 ns; cause 0 servo, 1 TIME.SET. -/
def stepSun (cause total : Nat) (c : Chip) : Chip :=
  let delta : Int := (total / 2 ^ 32 : Nat) - (sunNs c : Int)
  let (n, c) := satAdd 0x0A00 36 0 32 c.time.sun.steps 1 c
  let c := noteSeconds (modTime (fun x => { x with sun := { (x.sun.set c.now total) with everSet := true, steps := n } }) c)
  stepPulses (decide (0 ≤ delta)) (raise 0x0A01 2 0x7F (le 1 cause ++ zeros 3 ++ leS 8 delta) c)

/-! ### The servo (R353 to R356) -/

def ServoState.code : ServoState → Nat
  | .free => 0
  | .acquiring => 1
  | .locked => 2
  | .holdover => 3

/-- EV_PTP_STATE (R371). -/
def ptpState (kind port old new : Nat) (c : Chip) : Chip :=
  raise 0x0A00 1 (if kind = 0 then port else 0x7F)
    (le 1 kind ++ le 1 (if kind = 0 then port else 0xFF) ++ le 1 old ++ le 1 new ++ leS 4 (clampI (-2147483648) 2147483647 c.time.servo.lastOffset)) c

/-- The servo enters a state (R353, R354): LOCKED sets the Sundial's quality (R347), HOLDOVER holds the rate of `integ`. Offsets
withheld stay for the servo wherever it takes offsets (R361).
DEDUCED: log entry 147. -/
def enterServo (st : ServoState) (c : Chip) : Chip :=
  let old := c.time.servo.state
  if old = st then c
  else
    let c := modServo (fun x => { x with state := st, inCount := 0, outCount := 0, withheld := if st = .holdover ∨ st = .free then [] else x.withheld }) c
    let c := if st = .locked then modTime (fun x => { x with sun := { x.sun with everSet := true } }) c else c
    let c := if st = .holdover then setIncrement (max incrementMin (min incrementMax (incrementOf c.time.servo.integ))) c else c
    ptpState 1 0xFF old.code st.code c

/-- One million ppb in 2^-16 ppb. -/
abbrev rateLimit : Int := 1000000 * 65536

/-- An offset acts on the servo (R355, R356). DEDUCED: log entry 147. -/
def feedOffset (o : Int) (c : Chip) : Chip :=
  let v := c.time.servo
  if v.state = .free ∨ v.state = .holdover then c
  else
    let c := modServo (fun x => { x with lastOffset := o }) c
    let large := decide (v.stepThresholdNs < o.natAbs)
    if large ∧ (!v.acquireStepOnly ∨ v.state = .acquiring) then
      let c := if stepFits c (-o) then stepSun 0 ((sunTotal c.time.sun c.now : Int) - o * 2 ^ 32).toNat c else c
      enterServo .acquiring (modServo (fun x => { x with inCount := 0, outCount := 0 }) c)
    else
      let integ := if large then v.integ else clampI (-rateLimit) rateLimit (v.integ + v.ki * o)
      let adj := if large then (if o < 0 then -rateLimit else rateLimit) else clampI (-rateLimit) rateLimit (v.kp * o + integ)
      let c := setIncrement (max incrementMin (min incrementMax (incrementOf adj))) c
      let within := decide (o.natAbs ≤ v.lockThresholdNs)
      let c := modServo (fun x => { x with
        integ, adj, inCount := if within then x.inCount + 1 else 0, outCount := if within then 0 else x.outCount + 1 }) c
      let x := c.time.servo
      if x.state = .acquiring ∧ x.lockCount ≤ x.inCount then enterServo .locked c
      else if x.state = .locked ∧ x.lockCount ≤ x.outCount then enterServo .acquiring c
      else c

/-- The port that is SLAVE with its link up. -/
def slavePort (c : Chip) : Option Nat := (List.range 2).find? fun k => let e := vget c.time.eth k; e.portState == 9 && e.linkUp

/-- An offset of the source: it waits for the end of a Lodge restart (R25); withheld while LOCKED where it exceeds `path_step_ns` and delay
samples can come to judge it, and behind one that is (R361). DEDUCED: log entry 148. -/
def takeOffset (o : Int) (c : Chip) : Chip :=
  let v := c.time.servo
  if lodgeRestarts c then modServo (fun x => { x with waiting := x.waiting ++ [o] }) c
  else if (slavePort c).isSome ∧ (v.withheld ≠ [] ∨ (v.state = .locked ∧ v.pathStepNs < o.natAbs)) then modServo (fun x => { x with withheld := x.withheld ++ [(o, 0)] }) c
  else feedOffset o c

/-- Withheld offsets go to the servo in order, after the second delay sample (R361). DEDUCED: log entry 148. -/
def releaseOffsets : Nat → Chip → Chip
  | 0, c => c
  | n + 1, c =>
    match c.time.servo.withheld with
    | [] => c
    | (o, seen) :: rest =>
      if 2 ≤ seen ∨ o.natAbs ≤ c.time.servo.pathStepNs then releaseOffsets n (feedOffset o (modServo (fun x => { x with withheld := rest }) c)) else c

/-- Every withheld offset goes to the servo, in order: no delay sample can come to judge it. DEDUCED: log entry 148. -/
def releaseAll (c : Chip) : Chip :=
  c.time.servo.withheld.foldl (fun c y => feedOffset y.1 c) (modServo (fun x => { x with withheld := [] }) c)

/-- The source is lost, or comes back (R354). During a Lodge restart the servo's state stays, and it follows afterwards (R352). -/
def sourceLost (c : Chip) : Chip :=
  if c.time.servo.source = 0 then c
  else if lodgeRestarts c then modServo (fun x => { x with missed := some false }) c
  else enterServo .holdover c
def sourceBack (c : Chip) : Chip :=
  let v := c.time.servo
  if lodgeRestarts c then modServo (fun x => { x with missed := if v.missed.isSome ∨ v.state = .holdover then some true else none }) c
  else if v.state = .holdover ∧ v.holdUntil.isNone then enterServo .acquiring c
  else c

/-- The UTC offset from the first source that applies: the SLAVE port, LIFE.SET_CALENDAR, the last one recorded, 37 s (R512). -/
def refreshUtc (c : Chip) : Chip :=
  match if c.life.hold then none else (slavePort c).bind fun k => (vget c.time.eth k).utc with
  | some v => setUtcOffset 1 v c
  | none => match c.life.setOffset with
    | some v => setUtcOffset 2 v c
    | none => if c.life.totals.utcSource = 0 then c else setUtcOffset 3 c.life.totals.utcOffset c

/-- What a change of the PTP ports means for the calendar, and for a servo that follows them. -/
def followSlave (before : Option Nat) (c : Chip) : Chip :=
  let c := refreshUtc c
  if c.time.servo.source ≠ 1 then (if (slavePort c).isNone then releaseAll c else c)
  else match before, slavePort c with
    | some _, none => sourceLost c
    | none, some _ => sourceBack c
    | some a, some b => if a = b then c else sourceBack (sourceLost c)
    | none, none => c

/-- SERVO_OFFSET_SAMPLE (R355, R359): the offset that the timestamps of the SLAVE port and its mean path delay give, in ns; the port's
delayAsymmetry is taken off it. DEDUCED: log entry 148. -/
def offsetSample (measured : Int) (c : Chip) : Chip :=
  match slavePort c with
  | none => c
  | some k =>
    let ps := measured * 1000 - (vget c.time.eth k).delayAsymmetryPs
    let c := modEth k (fun e => { e with offsetFromMaster := divNearest (ps * 65536) 1000 }) c
    if c.time.servo.source = 1 then takeOffset (divNearest ps 1000) c else c

def execServoOffsetSample (t : Nat) (offset : Int) (s : State) : Host.Outcome State Fault Refusal :=
  .next (s.run t fun _ c => offsetSample offset c)

/-! ### Path delay (R360 to R362) -/

/-- A path-delay step: the mean of the two suspect samples, twice over, is `twice` ns. DEDUCED: log entry 148. -/
def pathStep (k : Nat) (old twice : Int) (c : Chip) : Chip :=
  let v := c.time.servo
  let c := raise 0x0A02 2 k (le 1 k ++ [0] ++ le 2 v.pathHoldS ++ leS 4 (old / 65536) ++ leS 4 (twice / 2)) c
  let (n, c) := satAdd 0x0A03 52 k 32 (vget c.time.eth k).pathSteps 1 c
  let c := modEth k (fun e => { e with mAvg := some (twice * 32768), suspect := none, pathSteps := n }) c
  if v.source = 0 then c
  else enterServo .holdover (modServo (fun x => { x with withheld := [], holdUntil := some (c.now + v.pathHoldS * 1000000000) }) c)

/-- PATH_DELAY_SAMPLE: a mean path delay in ns, on the SLAVE port (R360, R361). DEDUCED: log entry 148. -/
def delaySample (k : Nat) (m : Int) (c : Chip) : Chip :=
  if slavePort c ≠ some k ∨ lodgeRestarts c then c
  else
    let c := modEth k (fun e => { e with delayExchanges := wrapU 32 (e.delayExchanges + 1) }) c
    let e := vget c.time.eth k
    let limit : Int := c.time.servo.pathStepNs * 65536
    let judged : Bool × Chip := match e.mAvg with
      | none => (false, modEth k (fun e => { e with mAvg := some (m * 65536) }) c)
      | some a =>
        let d := m * 65536 - a
        if limit < d.natAbs then
          match e.suspect with
          | some s =>
            if decide (0 < s * 65536 - a) == decide (0 < d) then (true, pathStep k a (s + m) c) else (false, modEth k (fun e => { e with suspect := some m }) c)
          | none => (false, modEth k (fun e => { e with suspect := some m }) c)
        else
          let (n, c) := satAdd 0x0A03 48 k 32 e.pathOutliers (b2n e.suspect.isSome) c
          (false, modEth k (fun e => { e with mAvg := some (a + d / 16), suspect := none, pathOutliers := n }) c)
    if judged.1 then judged.2
    else
      let c := modServo (fun x => { x with withheld := x.withheld.map fun y => (y.1, y.2 + 1) }) judged.2
      releaseOffsets c.time.servo.withheld.length c

def execPathDelaySample (t : Nat) (port : Fin 2) (mean : Int) (s : State) : Host.Outcome State Fault Refusal :=
  .next (s.run t fun _ c => delaySample port mean c)

/-- PATH_HOLD_EXPIRY (R362). -/
def pathHoldExpiry (c : Chip) : Chip :=
  match c.time.servo.holdUntil with
  | none => c
  | some h =>
    if c.now < h ∨ lodgeRestarts c then c else enterServo .acquiring (modServo (fun x => { x with holdUntil := none }) c)

def execPathHoldExpiry (t : Nat) (s : State) : Host.Outcome State Fault Refusal :=
  .next (s.run t fun _ c => pathHoldExpiry c)

/-! ### 1PPS and 10 MHz (R344, R354, R357, R358) -/

/-- PPS_IN_EDGE: an edge of 1PPS_IN, accepted where it is of the selected polarity. -/
def ppsIn (rising : Bool) (c : Chip) : Chip :=
  if c.time.servo.source ≠ 2 ∨ rising = c.time.servo.ppsFalling then c
  else
    let o := ((sunNs c % 1000000000 : Nat) - c.time.servo.ppsInOffsetNs + 500000000) % 1000000000 - 500000000
    takeOffset o (sourceBack (modServo (fun x => { x with lastPps := some c.now }) c))

def execPpsInEdge (t : Nat) (rising : Bool) (s : State) : Host.Outcome State Fault Refusal :=
  .next (s.run t fun _ c => ppsIn rising c)

/-- PPS_IN_LOST: no edge for 1.5 s. -/
def ppsLost (c : Chip) : Chip :=
  if c.time.servo.source = 2 ∧ ((c.time.servo.lastPps.map fun x => decide (x + 1500000000 ≤ c.now)).getD true) then sourceLost c else c

def execPpsInLost (t : Nat) (s : State) : Host.Outcome State Fault Refusal :=
  .next (s.run t fun _ c => ppsLost c)

/-- What the servo missed while the Lodge restarted: the end of a path hold, its source lost or back (R352). DESIGN CHOICE: log entry 194. -/
def servoCatchUp (c : Chip) : Chip :=
  let missed := c.time.servo.missed
  let c := pathHoldExpiry (modServo (fun x => { x with missed := none }) c)
  match missed with
  | none => c
  | some false => sourceLost c
  | some true => sourceBack (sourceLost c)

/-- REF10M_LOSS: the PLL falls back to the 25 MHz reference. -/
def refLost (c : Chip) : Chip :=
  if c.time.sun.freqRef ≠ 1 then c
  else ptpState 2 0xFF 1 2 (modTime (fun x => { x with sun := { x.sun with freqRef := 2 } }) c)

def execRef10mLoss (t : Nat) (s : State) : Host.Outcome State Fault Refusal :=
  .next (s.run t fun _ c => refLost c)

/-- PPS_OUT_EDGE: the first tick of a whole Sundial second. -/
def ppsOut (c : Chip) : Chip :=
  let v := c.time.servo
  if v.ppsOutEnable && decide (sunNs c % 1000000000 ≤ 4) && ((v.ppsOutUntil.map fun x => decide (x ≤ c.now)).getD true) then
    emit (.ppsOut (v.ppsOutWidthMs * 1000000)) (modServo (fun x => { x with ppsOutUntil := some (c.now + x.ppsOutWidthMs * 1000000) }) c)
  else c

def execPpsOutEdge (t : Nat) (s : State) : Host.Outcome State Fault Refusal :=
  .next (s.run t fun _ c => ppsOut c)

/-! ### PTP ports (R348 to R352) -/

/-- A port takes PTP messages: enabled, PTP on, its link up, the domain that of the clock. -/
def ptpRuns (c : Chip) (k domain : Nat) : Bool :=
  let e := vget c.time.eth k
  e.enable && e.ptpEnable && e.linkUp && domain == c.time.clock.domain

/-- The port receives a PTP message (R348, R349): one on its transport, of its profile's kind, to its own address or a standard PTP
multicast address. PRESUMED: log entry 252. -/
def ptpAccepts (c : Chip) (k : Nat) (m : PtpMessage) : Bool :=
  let udp := (vget c.time.eth k).udp
  m.udp == udp && m.gptp == (c.time.clock.profile == 2) &&
  (m.dstMac == portMac c k || (if udp then [0x01005E000181, 0x01005E00006B] else [0x011B19000000, 0x0180C200000E]).contains m.dstMac)

/-- The clock identity: the EUI-64 formed from the address of ETH0 (R349). -/
def clockIdentity (c : Chip) : Nat := portMac c 0 / 2 ^ 24 * 2 ^ 40 + 0xFFFE * 2 ^ 24 + portMac c 0 % 2 ^ 24

/-- The device's own clock as best-master selection weighs it (R348). PRESUMED: log entry 149. -/
def ownClock (c : Chip) : Grandmaster :=
  let p := c.time.clock
  { priority1 := p.priority1, clockClass := p.clockClass, accuracy := Config.clockAccuracy % 256, variance := Config.clockVariance % 65536
    priority2 := p.priority2, identity := clockIdentity c, stepsRemoved := 0, sender := clockIdentity c * 65536 }

/-- The first difference of two lists of numbers puts the first list below the second. -/
def listBelow : List Nat → List Nat → Bool
  | x :: xs, y :: ys => decide (x < y) || (x == y && listBelow xs ys)
  | _, _ => false

/-- One grandmaster is better than another, or better by topology where they are the same: fewer steps, then the lower sender
(IEEE 1588-2019, data set comparison). PRESUMED: log entry 149. -/
def Grandmaster.better (a b : Grandmaster) : Bool :=
  if a.identity = b.identity then listBelow [a.stepsRemoved, a.sender] [b.stepsRemoved, b.sender]
  else listBelow [a.priority1, a.clockClass, a.accuracy, a.variance, a.priority2, a.identity]
    [b.priority1, b.clockClass, b.accuracy, b.variance, b.priority2, b.identity]

/-- The port on which the best master of all is heard: of two equal ones the lower port (R348). -/
def bestPort (c : Chip) : Option Nat :=
  match (vget c.time.eth 0).master, (vget c.time.eth 1).master with
  | some a, some b => some (if b.better a then 1 else 0)
  | some _, none => some 0
  | none, some _ => some 1
  | none, none => none

/-- The state best-master selection gives a port (R348): LISTENING (4) stays while no master is heard; MASTER (6), PASSIVE (7) or
SLAVE (9) by the comparison of the device's own clock with the best master of the port and of the device. PRESUMED: log entry 149. -/
def selectedState (c : Chip) (k : Nat) : Nat :=
  let own := ownClock c
  let e := vget c.time.eth k
  match bestPort c, e.master with
  | none, _ => if e.portState = 4 then 4 else 6
  | some b, here =>
    if e.portState = 4 ∧ here = none then 4
    else if 1 ≤ own.clockClass ∧ own.clockClass ≤ 127 then (if (here.map fun h => own.better h).getD true then 6 else 7)
    else if ((vget c.time.eth b).master.map fun g => own.better g).getD true then 6
    else if b = k then 9
    else match (vget c.time.eth b).master, here with
      | some g, some h => if g.identity = h.identity then 7 else 6
      | _, _ => 6

/-- The state a port enters when one is selected (R348): with `slave_only` LISTENING in place of MASTER; PASSIVE in place of a
second SLAVE. PRESUMED: log entry 149. -/
def allowedState (c : Chip) (k st : Nat) : Nat :=
  if st = 6 ∧ c.time.clock.slaveOnly then 4
  else if st = 9 ∧ (List.range 2).any (fun i => i != k && (vget c.time.eth i).portState == 9) then 7
  else st

/-- A port enters a state, and the servo follows (R353, R354). PRESUMED: log entry 149. -/
def setPortState (k st : Nat) (c : Chip) : Chip :=
  let old := (vget c.time.eth k).portState
  if old = st then c
  else
    let before := slavePort c
    let c := modEth k (fun e => { e with portState := st, mAvg := if st = 9 then none else e.mAvg, suspect := none, utc := none, announceAt := c.now, master := if st = 3 then none else e.master }) c
    followSlave before (ptpState 0 k old st c)

/-- Best-master selection runs: every port with PTP enters the state selected for it, the port selected SLAVE last (R348).
PRESUMED: log entry 149. -/
def selectMaster (c : Chip) : Chip :=
  let targets := ([0, 1].filter fun k => (vget c.time.eth k).portState != 3).map fun k => (k, selectedState c k)
  (targets.filter (fun y => y.2 != 9) ++ targets.filter fun y => y.2 == 9).foldl (fun c y => setPortState y.1 (allowedState c y.1 y.2) c) c

/-- A hardware timestamp with a board latency: a whole number of ns at most 4 ns from the Sundial plus that latency (R350).
DESIGN CHOICE: log entry 150. -/
def stamp (latencyPs : Int) (c : Chip) : Int × Chip :=
  let unit : Int := 1000 * 2 ^ 32
  let exact : Int := (sunTotal c.time.sun c.now : Int) * 1000 + latencyPs * 2 ^ 32
  let least := -((4 * unit - exact) / unit)
  freeInt least ((exact + 4 * unit) / unit - least).toNat c

/-- The grandmaster an Announce describes. -/
def grandmasterOf (m : PtpMessage) : Grandmaster :=
  { priority1 := m.gmPriority1 % 256, clockClass := m.gmClockClass % 256, accuracy := m.gmAccuracy % 256, variance := m.gmVariance % 65536
    priority2 := m.gmPriority2 % 256, identity := m.gmIdentity % 2 ^ 64, stepsRemoved := m.stepsRemoved % 65536, sender := m.parent % 2 ^ 80 }

/-- An Announce comes in on a port: it takes the place of the last from its sender, or of a worse master, and selection runs; the
SLAVE port's gives the UTC offset (R348, R512). PRESUMED: log entry 149. -/
def takeAnnounce (k : Nat) (m : PtpMessage) (c : Chip) : Chip :=
  let g := grandmasterOf m
  if ((vget c.time.eth k).master.map fun h => h.sender != g.sender && !g.better h).getD false then c
  else
    let c := selectMaster (modEth k (fun e => { e with announceAt := c.now, master := some g }) c)
    if (vget c.time.eth k).portState = 9 then
      refreshUtc (modEth k (fun e => { e with utc := if m.utcValid then some m.utcOffset else none }) c)
    else c

/-- PTP_MESSAGE_RECEIVED (R348 to R350, R512). PRESUMED: log entry 149. -/
def ptpReceive (k : Nat) (m : PtpMessage) (c : Chip) : Chip :=
  if !ptpRuns c k m.domain || !ptpAccepts c k m then c
  else
    let (ts, c) := if m.messageType < 4 then stamp (vget c.time.eth k).ingressLatencyPs c else ((vget c.time.eth k).rxTimestamp / 65536, c)
    let c := modEth k (fun e => { e with
      rxTimestamp := ts * 65536, requestTimestamp := if m.messageType = 2 then ts * 65536 else e.requestTimestamp, syncReceived := if m.messageType = 0 then wrapU 32 (e.syncReceived + 1) else e.syncReceived }) c
    if m.messageType = 0xB then takeAnnounce k m c else c

def execPtpMessageReceived (t : Nat) (port : Fin 2) (msg : PtpMessage) (s : State) : Host.Outcome State Fault Refusal :=
  .next (s.run t fun _ c => ptpReceive port msg c)

/-- Borusk firmware runs: from the end of boot, restarts apart (R25, R474, R541). DEDUCED: log entry 151. -/
def firmwareRuns (c : Chip) : Bool := c.modes.boot == .done && c.modes.notReady == .no && !c.modes.lodgeFailed

/-- A message leaves no queue entry: a one-step Sync or Pdelay_Resp, and every message that is not an event message (R351). -/
def leavesNoEntry (c : Chip) (messageType : Nat) : Bool := (!c.time.clock.twoStep && (messageType == 0 || messageType == 3)) || decide (4 ≤ messageType)

/-- The standard PTP multicast address of a message type (R349): that of peer delay messages, or the primary one. PRESUMED: log entry 252. -/
def ptpMac (messageType : Nat) : Nat := if [2, 3, 0xA].contains messageType then 0x0180C200000E else 0x011B19000000

/-- Where a message type goes (R349): over UDP, 224.0.0.107 or 224.0.1.129 at UDP port 319 for event messages and 320 for the others.
PRESUMED: log entry 252. -/
def ptpTo (c : Chip) (k messageType : Nat) : EthAddresses :=
  let peer := [2, 3, 0xA].contains messageType
  if (vget c.time.eth k).udp then
    ethTo c k (if peer then 0x01005E00006B else 0x01005E000181) (if peer then 0xE000006B else 0xE0000181) (if messageType < 4 then 319 else 320)
  else ethTo c k (ptpMac messageType) 0 0

/-- What the transmit hardware writes into a one-step message as it leaves (R351): the egress timestamp of a Sync (48-bit seconds and
32-bit ns), the turnaround of a Pdelay_Resp (its correctionField, in 2^-16 ns). -/
def oneStepBytes (messageType : Nat) (ts request : Int) : List Byte :=
  if messageType = 0 then be 6 (ts.toNat / 1000000000) ++ be 4 (ts.toNat % 1000000000)
  else (leS 8 (ts * 65536 - request)).reverse

/-- Sum of the big-endian 16-bit words of a list of bytes; a last odd byte counts as the upper one (RFC 768). -/
def words16 : List Byte → Nat
  | a :: b :: rest => a.toNat * 256 + b.toNat + words16 rest
  | [a] => a.toNat * 256
  | [] => 0

/-- The ones' complement of a ones' complement sum of 16-bit words; a result 0 is sent as all ones (RFC 768). -/
def onesChecksum (sum : Nat) : Nat := if sum % 65535 = 0 then 0xFFFF else 65535 - sum % 65535

/-- The UDP checksum that the transmit hardware puts on a one-step message (R351): over the IPv4 pseudo-header, the UDP header and the
message bytes the frame carries in `out`. PRESUMED: log entry 252. -/
def udpChecksum (a : EthAddresses) (data : List Byte) : List Byte :=
  be 2 (onesChecksum (words16 (be 4 a.srcIp ++ be 4 a.dstIp) + 17 + 2 * (8 + data.length) + 2 * a.dstPort + words16 data))

/-- One-step messages leave with their bytes written in and, over UDP, the checksum corrected to match (R351). -/
def oneStepFrame (c : Chip) (k messageType : Nat) (data : List Byte) : List Byte :=
  data ++ (if (vget c.time.eth k).udp then udpChecksum (ptpTo c k messageType) data else [])

/-- Borusk firmware reads the port's transmit timestamp queue while it runs; it keeps the entries of messages that a second message
follows (R352). DEDUCED: log entry 151. -/
def readTimestamps (k : Nat) (c : Chip) : Chip :=
  if firmwareRuns c then
    modEth k (fun e => { e with txts := [], owed := e.owed ++ e.txts.filter fun x => x.messageType == 0 || x.messageType == 3 }) c
  else c

/-- The event message that a Follow_Up or Pdelay_Resp_Follow_Up follows (R352). -/
def followed (messageType : Nat) : Option Nat := if messageType = 8 then some 0 else if messageType = 0xA then some 3 else none

/-- An entry matches a message that follows its own: by sequenceId and messageType (R352), in the domain. -/
def TxTimestamp.matches (x : TxTimestamp) (first sequence domain : Nat) : Bool :=
  x.messageType == first && x.sequence == sequence % 65536 && x.domain == domain

/-- PTP_MESSAGE_TRANSMIT (R351, R352): a Follow_Up or Pdelay_Resp_Follow_Up carries the timestamp of its entry, and is not sent
without one. DEDUCED: log entry 151. -/
def ptpTransmit (k messageType sequence domain : Nat) (c0 : Chip) : Chip :=
  let header := le 1 messageType ++ le 1 domain ++ be 2 sequence
  let c := readTimestamps k c0
  let send (body : List Byte) (c : Chip) : Chip := emit (.eth k 4 (ptpTo c k messageType) (header ++ body)) c
  if !ptpRuns c k domain then c
  else if 4 ≤ messageType then
    match followed messageType with
    | none => send [] c
    | some first => match (vget c.time.eth k).owed.find? fun x => x.matches first sequence domain with
      | none => c
      | some x => send (be 6 x.s ++ be 4 x.ns) (modEth k (fun e => { e with owed := e.owed.erase x }) c)
  else
    let (ts, c) := stamp (vget c.time.eth k).egressLatencyPs c
    if leavesNoEntry c messageType then
      emit (.eth k 4 (ptpTo c k messageType) (oneStepFrame c k messageType (header ++ oneStepBytes messageType ts (vget c.time.eth k).requestTimestamp))) c
    else
      let c := send [] c
      let e := vget c.time.eth k
      if 16 ≤ e.txts.length then
        let (n, c) := satAdd 0x0A03 56 k 32 e.txtsOverflows 1 c
        raiseLimited 0x0A03 2 k k (le 1 k ++ zeros 7 ++ le 4 n) 4 4 false 1 (modEth k (fun e => { e with txtsOverflows := n }) c)
      else
        let ns := (max 0 ts).toNat
        let entry : TxTimestamp := { sequence := sequence % 65536, messageType := messageType % 16, domain, s := ns / 1000000000, ns := ns % 1000000000, frac := 0 }
        modEth k (fun e => { e with txts := e.txts ++ [entry], txtsPeak := max e.txtsPeak (e.txts.length + 1) }) c

def execPtpMessageTransmit (t : Nat) (port : Fin 2) (messageType sequence domain : Nat) (s : State) : Host.Outcome State Fault Refusal :=
  .next (s.run t fun _ c => ptpTransmit port messageType sequence domain c)

/-- ETH_FRAME_RECEIVED (R349): ARP and ICMP echo requests for the port's address are answered; an ARP reply resolves an address (R267);
RTCP is taken in and ignored; every other frame is discarded. Fields stand in network byte order (R10). PRESUMED: log entry 252. -/
def ethReceive (k : Nat) (f : EthFrame) (c : Chip) : Chip :=
  let e := vget c.time.eth k
  if !e.enable || !e.linkUp then c
  else match f with
    | .arpRequest target ip mac =>
      if target = e.ipv4 then
        emit (.eth k 2 (ethTo c k mac ip 0) (be 2 2 ++ be 6 (portMac c k) ++ be 4 e.ipv4 ++ be 6 mac ++ be 4 ip)) c else c
    | .icmpEcho target ip mac data => if target = e.ipv4 then emit (.eth k 3 (ethTo c k mac ip 0) data) c else c
    | .arpReply ip mac => modEth k (fun e => { e with arp := ((ip, mac) :: e.arp.filter fun y => y.1 != ip).take 64 }) c
    | .rtcp _ => c
    | .other => c

def execEthFrameReceived (t : Nat) (port : Fin 2) (frame : EthFrame) (s : State) : Host.Outcome State Fault Refusal :=
  .next (s.run t fun _ c => ethReceive port frame c)

/-- ETH_LINK_CHANGE (R354); no link comes up in THERMAL-HALT and LOCKDOWN (R500, R527). PRESUMED: log entry 149. -/
def ethLink (k : Nat) (up : Bool) (c : Chip) : Chip :=
  let before := slavePort c
  followSlave before (modEth k (fun e => { e with linkUp := up && !c.modes.thermalHalt && !c.modes.lockdown }) c)

def execEthLinkChange (t : Nat) (port : Fin 2) (up : Bool) (s : State) : Host.Outcome State Fault Refusal :=
  .next (s.run t fun _ c => ethLink port up c)

/-- An interval of 2^log seconds, in ns. -/
def logInterval (log : Int) : Nat := if 0 ≤ log then 1000000000 * 2 ^ log.toNat else 1000000000 / 2 ^ log.natAbs

/-- No Announce has come for `announce_receipt_timeout` intervals of Announce messages. PRESUMED: log entry 149. -/
def announceMissing (c : Chip) (k : Nat) : Bool :=
  decide ((vget c.time.eth k).announceAt + c.time.clock.announceReceiptTimeout * logInterval c.time.clock.logAnnounce ≤ c.now)

/-- ANNOUNCE_RECEIPT_TIMEOUT: the port's master is gone; the port leaves SLAVE, and any state that waits on a master, for MASTER or
LISTENING, and selection runs again (R348). -/
def announceTimeout (k : Nat) (c : Chip) : Chip :=
  if [4, 7, 8, 9].contains (vget c.time.eth k).portState && announceMissing c k && !lodgeRestarts c then
    let c := modEth k (fun e => { e with master := none }) c
    selectMaster (setPortState k (allowedState c k 6) c)
  else c

def execAnnounceReceiptTimeout (t : Nat) (port : Fin 2) (s : State) : Host.Outcome State Fault Refusal :=
  .next (s.run t fun _ c => announceTimeout port c)

/-! ### TIME.GET and TIME.SET -/

/-- An output entry of section 1 (16 bytes); the next point is open where no point is to come. DEDUCED: log entry 146. -/
def pulseEntry (p : Pulse) (c : Chip) : List Byte × Chip :=
  let code := match p.state with
    | .idle => 0
    | .armed => 1
    | .running => 2
    | .done => 3
    | .late => 4
    | .rejected => 5
    | .cancelled => 6
  let (free, c) := freeNat c
  let next := if p.state = .armed ∨ p.state = .running then p.point p.k / 2 ^ 32 else free
  (le 1 code ++ le 1 p.mode ++ [0, 0] ++ le 4 p.emitted ++ le 8 next, c)

/-- Section 1 of TIME.GET. -/
def outputsAndCaptures (c : Chip) : List Byte × Chip :=
  let (bytes, c) := c.time.pulse.toList.foldl (fun (b, c) p => let (e, c) := pulseEntry p c; (b ++ e, c)) (([] : List Byte), c)
  (bytes ++ c.time.capture.toList.flatMap fun x => le 1 (b2n (x.edges != 0)) ++ le 1 x.edges ++ [0, 0] ++ le 4 x.captured ++ le 4 x.dropped ++ zeros 4, c)

/-- Section 0: the time, latched within 1 µs of the doorbell (R345), and the servo. DESIGN CHOICE: log entry 150. DEDUCED: log entry 151. -/
def timeAndServo (j : Job) (c : Chip) : List Byte × Chip :=
  let (free, c) := freeNat c
  let total := (j.doorbellS * 1000000000 + j.doorbellNs) * 2 ^ 32 + free % (1001 * 2 ^ 32)
  let v := c.time.servo
  let ns := total / 2 ^ 32
  (timeBytes (ns / 1000000000) (ns % 1000000000) ++ le 4 (total % 2 ^ 32) ++ leS 2 c.life.totals.utcOffset ++ le 8 c.time.sun.increment ++
   le 1 v.state.code ++ le 1 v.source ++ le 1 c.time.sun.freqRef ++ le 1 (packBits [timeDegraded c, v.holdUntil.isSome, c.time.sun.everSet]) ++
   leS 4 (clampI (-2147483648) 2147483647 v.lastOffset) ++ leS 4 (divNearest v.adj 65536) ++ le 4 c.time.sun.steps ++
   le 4 (match v.holdUntil with
    | some h => ceilDiv (h - c.now) 1000000
    | none => 0), c)

def timeGet (_ : Env) (j : Job) (c : Chip) : Reply :=
  checked [lenIs 4 j, inRange j.payload 0 1 0 1, reserved j.payload 1 3] c
    (let (b, c) := if rd j.payload 0 1 = 0 then timeAndServo j c else outputsAndCaptures c
     replyBody b c)

def execTimeGet (t : Nat) (mb : Fin 8) (s : State) : Host.Outcome State Fault Refusal :=
  .next (s.command 0x0A00 t mb timeGet)

def timeSet (_ : Env) (j : Job) (c : Chip) : Reply :=
  let p := j.payload
  let relative := rd p 0 1 == 1
  checked [lenIs 32 j, inRange p 0 1 0 1, reserved p 1 7, param 14 (relative || rd p 14 4 < 1000000000), reserved p 18 6,
      param 24 (!relative || stepFits c (rdS p 24 8)), stateRule c (c.time.servo.source != 1)] c
    (reply stOk (if relative then stepSun 1 ((sunTotal c.time.sun c.now : Int) + rdS p 24 8 * 2 ^ 32).toNat c
      else stepSun 1 ((rd p 8 6 * 1000000000 + rd p 14 4) * 2 ^ 32) c))

def execTimeSet (t : Nat) (mb : Fin 8) (s : State) : Host.Outcome State Fault Refusal :=
  .next (s.command 0x0A01 t mb timeSet)

/-! ### PTP.CONFIGURE, PTP.STATUS and SERVO.CONFIGURE -/

/-- The clock settings of item 0. -/
def ptpClockOf (p : List Byte) : PtpClock :=
  { profile := rd p 4 1, domain := rd p 5 1, priority1 := rd p 6 1, priority2 := rd p 7 1, clockClass := rd p 8 1, slaveOnly := bit (rd p 9 1) 0
    twoStep := bit (rd p 9 1) 1, logSync := rdS p 12 1, logAnnounce := rdS p 13 1, logMinDelayReq := rdS p 14 1, announceReceiptTimeout := rd p 15 1 }

/-- The port settings of item 1 laid over a port. -/
def EthPort.configured (e : EthPort) (p : List Byte) : EthPort :=
  { e with
    enable := rd p 4 1 == 1, speed := rd p 5 1, udp := rd p 6 1 == 1, ptpEnable := bit (rd p 7 1) 0, vlanTagged := bit (rd p 7 1) 1
    mac := rd p 8 6, ipv4 := rd p 16 4, netmask := rd p 20 4, gateway := rd p 24 4, vlanTci := rd p 28 2, delayAsymmetryPs := rdS p 32 4
    ingressLatencyPs := rdS p 36 4, egressLatencyPs := rdS p 40 4 }

/-- A port's PTP state after its configuration: DISABLED without PTP, LISTENING once PTP is on. PRESUMED: log entry 149. -/
def portAfterConfig (k : Nat) (c : Chip) : Chip :=
  let e := vget c.time.eth k
  selectMaster (if !(e.enable && e.ptpEnable) then setPortState k 3 c else if e.portState = 3 then setPortState k 4 c else c)

/-- Item 0 takes effect: best-master selection runs with the new clock; with `slave_only` a MASTER becomes LISTENING (R348). -/
def ptpClockApply (p : List Byte) (c : Chip) : Chip := selectMaster (modTime (fun x => { x with clock := ptpClockOf p }) c)

/-- Item 1 takes effect; another asymmetry puts a LOCKED or HOLDOVER servo into ACQUIRING (R359). -/
def ptpPortApply (p : List Byte) (c : Chip) : Chip :=
  let k := rd p 1 1
  let old := (vget c.time.eth k).delayAsymmetryPs
  let c := portAfterConfig k (modEth k (fun e => e.configured p) c)
  if old ≠ rdS p 32 4 ∧ (c.time.servo.state = .locked ∨ c.time.servo.state = .holdover) then
    enterServo .acquiring (modServo (fun x => { x with holdUntil := none }) c)
  else c

def ptpConfigure (_ : Env) (j : Job) (c : Chip) : Reply :=
  let p := j.payload
  let item := rd p 0 1
  if item = 0 then
    checked [lenIs 16 j, reserved p 2 2, inRange p 4 1 0 2, param 5 (decide (rd p 5 1 ≤ 127) && (rd p 4 1 != 2 || rd p 5 1 == 0)), param 9 (rd p 9 1 < 4),
        reserved p 10 2, inRangeS p 12 1 (-7) 1, inRangeS p 13 1 (-3) 4, inRangeS p 14 1 (-7) 6, inRange p 15 1 2 10,
        crossRule (rd p 4 1 != 2 || !(c.time.eth.toList.any (·.udp)))] c
      (reply stOk (ptpClockApply p c))
  else
    checked [lenIs 44 j, param 0 (item == 1), inRange p 1 1 0 1, reserved p 2 2, inRange p 4 1 0 1, inRange p 5 1 0 1, inRange p 6 1 0 1,
        param 7 (rd p 7 1 < 4), reserved p 14 2,
        param 28 (!bit (rd p 7 1) 1 || (decide (1 ≤ rd p 28 2 % 4096) && decide (rd p 28 2 % 4096 ≤ 4094))), reserved p 30 2,
        crossRule (rd p 6 1 != 1 || c.time.clock.profile != 2)] c
      (reply stOk (ptpPortApply p c))

def execPtpConfigure (t : Nat) (mb : Fin 8) (s : State) : Host.Outcome State Fault Refusal :=
  .next (s.command 0x0A02 t mb ptpConfigure)

/-- Grandmaster class and identity, parent port identity and steps removed (PTP.STATUS): those of the master the SLAVE port follows, one
step more than its Announce counts; the device's own where no port is SLAVE. PRESUMED: log entry 149. -/
def masterBytes (c : Chip) : List Byte × List Byte :=
  let g := match (slavePort c).bind fun k => (vget c.time.eth k).master with
    | some g => { g with stepsRemoved := wrapU 16 (g.stepsRemoved + 1) }
    | none => ownClock c
  (le 1 g.clockClass, le 8 g.identity ++ le 10 g.sender ++ le 2 g.stepsRemoved)

def ptpStatus (_ : Env) (j : Job) (c : Chip) : Reply :=
  let p := j.payload
  let k := rd p 0 1
  let e := vget c.time.eth k
  checked [lenIs 4 j, inRange p 0 1 0 1, reserved p 1 3] c
    (replyBody (le 1 e.portState ++ le 1 (b2n e.linkUp) ++ le 1 c.time.clock.profile ++ (masterBytes c).1 ++ (masterBytes c).2 ++
       leS 8 e.offsetFromMaster ++ leS 8 (e.mAvg.getD 0) ++ le 4 e.syncReceived ++ le 4 e.delayExchanges ++
       le 4 e.pathOutliers ++ le 4 e.pathSteps ++ le 4 e.txtsOverflows ++ le 1 e.txtsPeak ++ zeros 3)
      (modEth k (fun e => { e with txtsPeak := if firmwareRuns c then 0 else e.txts.length }) c))

def execPtpStatus (t : Nat) (mb : Fin 8) (s : State) : Host.Outcome State Fault Refusal :=
  .next (s.command 0x0A03 t mb ptpStatus)

/-- SERVO.CONFIGURE takes effect (R353, R344). -/
def servoApply (p : List Byte) (c : Chip) : Chip :=
  let f := rd p 2 1
  let old := c.time.servo.source
  let new := rd p 0 1
  let c := modServo (fun x => { x with
    source := new, acquireStepOnly := bit f 0, ppsFalling := bit f 1, ppsOutEnable := bit f 2, lockCount := rd p 3 1, kp := rd p 4 4, ki := rd p 8 4
    stepThresholdNs := rd p 12 4, lockThresholdNs := rd p 16 4, pathStepNs := rd p 20 4, pathHoldS := rd p 24 4, ppsInOffsetNs := rdS p 28 4
    ppsOutWidthMs := rd p 32 2 }) c
  let c := modTime (fun x => { x with sun := { x.sun with freqRef := rd p 1 1 } }) c
  if old = new then c
  else enterServo (if new = 0 then .free else .acquiring) (modServo (fun x => { x with holdUntil := none, withheld := [], lastPps := some c.now }) c)

def servoConfigure (_ : Env) (j : Job) (c : Chip) : Reply :=
  let p := j.payload
  checked [lenIs 36 j, inRange p 0 1 0 2, inRange p 1 1 0 1, param 2 (rd p 2 1 < 8), inRange p 3 1 1 255, inRange p 12 4 100 1000000000,
      inRange p 16 4 1 1000000, inRange p 20 4 10 1000000, inRange p 24 4 0 3600, inRange p 32 2 1 999, reserved p 34 2] c
    (reply stOk (servoApply p c))

def execServoConfigure (t : Nat) (mb : Fin 8) (s : State) : Host.Outcome State Fault Refusal :=
  .next (s.command 0x0A04 t mb servoConfigure)

end Sys2Proof.Machine
end

