-- ==== Sys2Proof/Machine/Pulse.lean ====
section
/-! DEFINITION. Pulse outputs and capture inputs (R363 to R369). -/
namespace Sys2Proof.Machine

/-! ### Running schedules (R363, R364, R366) -/

/-- Pulse outputs and capture inputs run: not in BOOT, RECOVERY, LOCKDOWN or THERMAL-HALT (R368). -/
def pulsesRun (c : Chip) : Bool := c.modes.boot == .done && !c.modes.lockdown && !c.modes.thermalHalt

/-- A schedule's next boundary is reached. -/
def boundaryReached (c : Chip) (p : Pulse) : Bool := (p.mode < 2 || c.trig.anchored) && decide (p.point p.k ≤ pulseNow c p)

/-- PULSE_BOUNDARY: a boundary is reached and its pulse starts; in a pulse still running, a boundary of a periodic schedule is not
emitted, while a one-shot, and the first point of a `reject_late` schedule programmed in that pulse, wait for its end (R364 to R366).
DEDUCED: log entry 146. -/
def pulseBoundary (o : Nat) (c : Chip) : Chip :=
  let p := vget c.time.pulse o
  if !pulsesRun c || !(p.state == .armed || p.state == .running) || !boundaryReached c p then c
  else if p.mode % 2 = 0 then (if p.inPulse then c else modPulse o (fun p => { p with state := .done }) (firePulse o c))
  else if p.inPulse && p.rejectLate && p.k == 0 && p.emitted == 0 then c
  else
    let c := if p.inPulse then c else firePulse o c
    modPulse o (fun p => ({ p with state := .running } : Pulse).goOn (p.k + 1)) c

def execPulseBoundary (t : Nat) (output : Fin 8) (s : State) : Host.Outcome State Fault Refusal :=
  .next (s.run t fun _ c => pulseBoundary output c)

/-- PULSE_WIDTH_END: the width of the pulse has passed and the output returns inactive, and the carriage of a head goes on (R335, R336); a one-shot point that fell within the pulse is then
late, and so is the first point of a `reject_late` schedule (R366). -/
def pulseWidthEnd (o : Nat) (c : Chip) : Chip :=
  let p := vget c.time.pulse o
  if !p.inPulse ∨ c.now < p.endsAt then c
  else
    let c := emit (.pulse o p.activeLow) (modPulse o (fun p => { p with inPulse := false }) c)
    let c := match headOfOutput c o with
      | some h => if marking c then towardFirst h c else c
      | none => c
    if (p.mode % 2 = 0 ∨ (p.rejectLate ∧ p.k = 0)) ∧ (p.state = .armed ∨ p.state = .late) ∧ p.emitted = 0 ∧ pointPassed c p 0 then
      (if p.rejectLate then pulseLate o 1 p (modPulse o (fun p => { p with state := .rejected }) c) else fireLate o c)
    else c

def execPulseWidthEnd (t : Nat) (output : Fin 8) (s : State) : Host.Outcome State Fault Refusal :=
  .next (s.run t fun _ c => pulseWidthEnd output c)

/-- Every output inactive and every schedule cancelled (R368). -/
def pulsesOff (c : Chip) : Chip :=
  (List.range 8).foldl (fun c o =>
    let p := vget c.time.pulse o
    let c := if p.inPulse then emit (.pulse o p.activeLow) c else c
    modPulse o (fun p => { p with inPulse := false, state := if p.state = .armed ∨ p.state = .running then .cancelled else p.state }) c) c

/-! ### Programming (R365, R366) -/

/-- The schedule a request asks for; `q` starts after `transaction_id`. -/
def pulseOf (q : List Byte) : Pulse :=
  let mode := rd q 1 1
  { mode, activeLow := bit (rd q 2 1) 0, rejectLate := bit (rd q 2 1) 1, start := if mode < 2 then rd q 4 6 * 1000000000 + rd q 10 4 else rd q 4 8
    period := rd q 16 8, width := rd q 24 4, count := rd q 28 4, state := .armed }

/-- A new schedule takes the place of the old one: a pulse in progress completes, and the output idles at the level of the new
polarity. DEDUCED: log entry 146. -/
def installPulse (o : Nat) (p : Pulse) (c : Chip) : Chip :=
  let old := vget c.time.pulse o
  let c := modPulse o (fun _ => { p with inPulse := old.inPulse, endsAt := old.endsAt }) c
  if old.activeLow ≠ p.activeLow ∧ !old.inPulse then emit (.pulse o p.activeLow) c else c

/-- The schedule is refused as late (R365). -/
def rejectsLate (c : Chip) (p : Pulse) : Bool := p.rejectLate && pointPassed c p 0

/-- Programs a schedule that is not refused. -/
def programPulse (o : Nat) (p : Pulse) (c : Chip) : Chip :=
  let c := installPulse o p c
  if !pointPassed c p 0 then c
  else if p.mode % 2 = 0 then fireLate o c
  else modPulse o (fun x => x.goOn (nextBoundary c x)) c

/-- A staged entry takes effect at N0: whether it was executed (R365). DEDUCED: log entry 146. -/
def pulseApply (q : List Byte) (c : Chip) : Bool × Chip :=
  let o := rd q 0 1
  let p := pulseOf q
  if rejectsLate c p then
    (false, pulseLate o 1 p (modPulse o (fun x => if x.state = .armed ∨ x.state = .running then x else { x with state := .rejected }) c))
  else (true, programPulse o p c)

/-- The fields of a request PULSE.SCHEDULE; ranges and rules between fields count where `now` is set, so at once for an immediate
request and at commit for a staged one (R303). -/
def pulseFields (now : Bool) (p : List Byte) : List Check :=
  let mode := rd p 5 1
  let x := pulseOf (p.drop 4)
  [rangeIf now (inRange p 4 1 0 7), inRange p 5 1 0 3, param 6 (rd p 6 1 < 4), reserved p 7 1,
   rangeIf now (param 14 (1 < mode || rd p 14 4 < 1000000000)), (if mode < 2 then reserved p 18 2 else reserved p 16 4),
   rangeIf now (param 20 (if mode = 1 then decide (40 * 2 ^ 32 ≤ x.period) else if mode = 3 then decide (8 * 2 ^ 32 ≤ x.period) else x.period == 0)),
   rangeIf now (inRange p 28 4 8 1000000000), reserved p 36 4, rangeIf now (crossRule (mode != 1 || decide (x.width * 2 ^ 32 < x.period)))]

/-- At commit: the ranges, and no enabled head may reserve the output. -/
def pulseValid (q : List Byte) (c : Chip) : Bool := (pulseFields true (zeros 4 ++ q)).all (·.ok) && (headOfOutput c (rd q 0 1)).isNone

/-- PULSE.SCHEDULE (R365, R366). -/
def pulseSchedule (_ : Env) (j : Job) (c : Chip) : Reply :=
  let p := j.payload
  let q := p.drop 4
  let o := rd p 4 1
  let mode := rd p 5 1
  let x := pulseOf q
  let free := [stateRule c (mode < 2 || c.trig.anchored), ownRule stBusy (headOfOutput c o).isNone]
  if rd p 0 4 ≠ 0 then stage 0x0A05 (lenIs 40 j :: pulseFields false p ++ free) j c
  else
    checked (lenIs 40 j :: pulseFields true p ++ free ++ [ownRule stBusy (!targetHeld c (0x0A05, o) 0), ownRule stLate (!rejectsLate c x)]) c
      (let c := programPulse o x c
       replyBody ((pulseEntry (vget c.time.pulse o) c).1.take 1 ++ zeros 3) c)

def execPulseSchedule (t : Nat) (mb : Fin 8) (s : State) : Host.Outcome State Fault Refusal :=
  .next (s.command 0x0A05 t mb pulseSchedule)

def pulseCancel (_ : Env) (j : Job) (c : Chip) : Reply :=
  let p := j.payload
  let o := rd p 0 1
  let x := vget c.time.pulse o
  checked [lenIs 4 j, inRange p 0 1 0 7, reserved p 1 3, ownRule stBusy ((headOfOutput c o).isNone && !targetHeld c (0x0A05, o) 0)] c
    (replyBody ((pulseEntry x c).1.take 1 ++ zeros 3 ++ le 4 x.emitted)
      (modPulse o (fun x => { x with state := if x.state = .armed ∨ x.state = .running then .cancelled else x.state }) c))

def execPulseCancel (t : Nat) (mb : Fin 8) (s : State) : Host.Outcome State Fault Refusal :=
  .next (s.command 0x0A06 t mb pulseCancel)

/-! ### Capture inputs (R369) -/

def modCapture (i : Nat) (f : Capture → Capture) (c : Chip) : Chip := modTime (fun x => { x with capture := vmod x.capture i f }) c

/-- The 32 bytes of a capture. -/
def captureBytes (i : Nat) (rising : Bool) (sequence : Nat) (total16 : Nat) (md : Nat) : List Byte :=
  let ns := total16 / 65536
  le 1 i ++ le 1 (b2n !rising) ++ [0, 0] ++ le 4 sequence ++ timeBytes (ns / 1000000000) (ns % 1000000000) ++ le 2 (total16 % 65536) ++ zeros 4 ++ le 8 md

/-- CAPTURE_EDGE: an edge at `now`, the first sample of a new level that then holds for `held` samples: accepted where the glitch filter
takes that level (R26). Its sequence number is the index of its entry in the ring (R203). Its timestamp is at most 2 ns off. DESIGN CHOICE: log entry 150. DEDUCED: log entry 153. -/
def captureEdge (i : Nat) (rising : Bool) (held : Nat) (c : Chip) : Chip :=
  let x := vget c.time.capture i
  if held < x.glitchSamples then c else
  let close := (x.lastEdge.map fun e => decide (c.now < e + 16)).getD false
  let c := modCapture i (fun x => { x with lastEdge := some c.now }) c
  if !pulsesRun c || !bit x.edges (if rising then 0 else 1) || close then c
  else
    let (e, c) := freeInt (-131072) 262144 c
    let total := (max 0 ((sunTotal c.time.sun c.now / 65536 : Nat) + e)).toNat
    let data := captureBytes i rising x.ring.head total (mdNow c)
    let c := modCapture i (fun x => { x with captured := wrapU 32 (x.captured + 1) }) c
    if !x.ring.enabled || x.ring.full || !hostWrites c then
      let (n, c) := satAdd 0x0A00 (136 + 16 * i) i 32 x.dropped 1 c
      modCapture i (fun x => { x with dropped := n }) c
    else
      let (ring, c) := ringPut x.ring data 0 x.dropped c
      modCapture i (fun x => { x with ring }) c

def execCaptureEdge (t : Nat) (input : Fin 4) (rising : Bool) (held : Nat) (s : State) : Host.Outcome State Fault Refusal :=
  .next (s.run t fun _ c => captureEdge input rising held c)

/-- CAPTURE.CONFIGURE. -/
def captureConfigure (_ : Env) (j : Job) (c : Chip) : Reply :=
  let p := j.payload
  let i := rd p 0 1
  let enable := rd p 1 1 != 0
  let old := (vget c.time.capture i).ring
  let new : Ring := { channel := rd p 3 1, irqCount := rd p 4 2, irqHoldoffUs := rd p 6 2, entryCount := rd p 8 4, entrySize := 32, base := rd p 16 8, headAddr := rd p 24 8 }
  checked ([lenIs 32 j, inRange p 0 1 0 3, inRange p 1 1 0 3, inRange p 2 1 0 15, inRange p 3 1 24 31, inRange p 6 2 0 10000,
      param 8 (isPow2 (rd p 8 4) && decide (64 ≤ rd p 8 4) && decide (rd p 8 4 ≤ 65536)), reserved p 12 4, param 16 (rd p 16 8 % 4096 == 0),
      param 24 (rd p 24 8 % 32 == 0)] ++ ringChecks c old enable new 0xFF) c
    (reply stOk (ringChannel old enable new 6 (modCapture i (fun x => { x with edges := rd p 1 1, glitchSamples := rd p 2 1, ring := old.change enable new }) c)))

def execCaptureConfigure (t : Nat) (mb : Fin 8) (s : State) : Host.Outcome State Fault Refusal :=
  .next (s.command 0x0A07 t mb captureConfigure)

end Sys2Proof.Machine
end

