-- ==== Sys2Proof/Machine/Auxiliary.lean ====
section
/-! DEFINITION. The auxiliary analog chain (R372 to R392). -/
namespace Sys2Proof.Machine

def modAux (k : Nat) (f : Aux → Aux) (c : Chip) : Chip := { c with aux := { c.aux with ch := vmod c.aux.ch k f } }
def modTone (d : Nat) (f : Tone → Tone) (c : Chip) : Chip := { c with aux := { c.aux with tone := vmod c.aux.tone d f } }

/-- The modes in which the chain runs (R374). -/
def auxRuns (c : Chip) : Bool := [4, 5, 6, 7, 8, 9, 10].contains (mode c)

/-- The largest code of an output. -/
abbrev codeMax : Int := 8388607

/-! ### Overload (R372) -/

/-- One modulator sample at the overload detector: a run of 64 equal samples sets overload, 1 024 samples without such a run clear it. -/
def Aux.watch (a : Aux) (b : Bool) : Aux :=
  let equal := if a.equal ≠ 0 ∧ b = a.lastBit then a.equal + 1 else 1
  let quiet := if 64 ≤ equal then 0 else a.quiet + 1
  { a with lastBit := b, equal, quiet, overload := if 64 ≤ equal then true else a.overload && decide (quiet < 1024) }

/-- How many modulator samples, 97.65625 ns apart and the last of them now, lie after an instant, not counting the last. -/
def samplesSince (c : Chip) (at_ : Nat) : Nat := 32 * (c.now - at_) / 3125

/-- Modulator samples through the overload detector, and whether it stood at overload with one that at most `within` samples follow. -/
def Aux.watchAll (within : Nat) : List Bool → Aux → Bool × Aux
  | [], a => (false, a)
  | b :: bs, a =>
    let a := a.watch b
    let (seen, last) := Aux.watchAll within bs a
    (seen || (a.overload && decide (bs.length ≤ within)), last)

/-- Modulator samples reach the overload detector; an overload at any of them during a calibration's capture counts in its verdict
(R383). -/
def auxWatch (k : Nat) (samples : List Bool) (c : Chip) : Chip :=
  let within := (c.aux.run.map fun r => samplesSince c r.startAt).getD 0
  let (seen, a) := Aux.watchAll within samples (vget c.aux.ch k)
  let c := modAux k (fun _ => a) c
  match c.aux.run with
  | some r =>
    if seen && bit r.mask k then
      { c with aux := { c.aux with run := some { r with capture := vmod r.capture k fun x => { x with overloaded := true } } } }
    else c
  | none => c

/-! ### The CIC decimator (R375, R385) -/

/-- One modulator sample into the integrators. -/
def Aux.integrate (a : Aux) (b : Bool) : Aux :=
  let i1 := wrapU 36 (vget a.integ 0 + if b then 1 else 2 ^ 36 - 1)
  let i2 := wrapU 36 (vget a.integ 1 + i1)
  let i3 := wrapU 36 (vget a.integ 2 + i2)
  { a with integ := #v[i1, i2, i3, wrapU 36 (vget a.integ 3 + i3)] }

/-- A difference modulo 2^36. -/
def minus36 (x y : Nat) : Nat := wrapU 36 (x + 2 ^ 36 - y % 2 ^ 36)

/-- The combs, and x_cic. -/
def Aux.comb4 (a : Aux) : Int × Aux :=
  let i4 := vget a.integ 3
  let c1 := minus36 i4 (vget a.comb 0)
  let c2 := minus36 c1 (vget a.comb 1)
  let c3 := minus36 c2 (vget a.comb 2)
  let y := wrapS 36 (minus36 c3 (vget a.comb 3))
  let s : Int := 4 * a.cicLog2 - 23
  let x := if s ≤ 0 then y * 2 ^ s.natAbs else asr (y + 2 ^ (s.natAbs - 1)) s.natAbs
  (clampI (-codeMax) codeMax x, { a with comb := #v[i4, c1, c2, c3] })

/-- Every integrator and comb cleared. -/
def Aux.clearCic (a : Aux) : Aux := { a with integ := Vector.replicate 4 0, comb := Vector.replicate 4 0 }

/-! ### The filter engine (R377, R378, R387) -/

/-- Half-band coefficients from the first tap to the last. -/
def halfband1 : List Int := [958, 0, -8478, 0, 40288, 65536, 40288, 0, -8478, 0, 958]
def halfband2 : List Int := [262, 0, -1412, 0, 3962, 0, -10810, 0, 40766, 65536, 40766, 0, -10810, 0, 3962, 0, -1412, 0, 262]

/-- A filter's output from its delay line, newest first. -/
def firOut (taps line : List Int) : Int :=
  clampI (-codeMax) codeMax (asr ((List.zipWith (· * ·) taps line).foldl (· + ·) 65536) 17)

/-- The output of the FIR, blended while a fade runs. -/
def Aux.firNow (a : Aux) : Int :=
  let y (b : Nat) := firOut (vget a.bank b).taps a.fir
  match a.fade with
  | some (f, j) => if f = 0 then y a.current else (((f : Int) - j) * y (1 - a.current) + j * y a.current + (f / 2 : Nat)) / f
  | none => y a.current

/-- What waits for an output boundary happens: the end of a fade, a swap, or the pending item (R386 to R388). DEDUCED: log entry 159. -/
def Aux.boundary (a : Aux) : Aux :=
  let a := match a.fade with
    | some (f, j) => if f ≤ j then { a with fade := none } else a
    | none => a
  if a.fade.isSome then a
  else
    let a := match a.swapNext with
      | some _ => a
      | none =>
        let a := match a.pendingLoad with
          | some b => { a with bank := vset a.bank (1 - a.current) b, pendingLoad := none }
          | none => a
        { a with swapNext := a.pendingSwap, pendingSwap := none }
    match a.swapNext with
    | some f => { a with current := 1 - a.current, swapNext := none, fade := if f = 0 then none else some (f, 0) }
    | none => a

/-- The output at a boundary, uncorrected, and the channel after it. -/
def Aux.filterOut (a : Aux) : Int × Aux :=
  let a := a.boundary
  (a.firNow, { a with fade := a.fade.map fun (x : Nat × Nat) => (x.1, x.2 + 1) })

/-- One modulator sample that lies d samples before an output boundary: the stages whose decimation period ends with it run.
An output where d = 0. DEDUCED: log entry 155. -/
def Aux.sample (a : Aux) (d : Nat) (b : Bool) : Option Int × Aux :=
  let r := 2 ^ a.cicLog2
  if a.single then
    let pos := d % a.decimation
    if 4 * r ≤ pos then (none, a.clearCic)
    else
      let a := a.integrate b
      if pos % r ≠ 0 then (none, a)
      else
        let (x, a) := a.comb4
        if pos = 0 then (some x, a.clearCic.filterOut.2) else (none, a)
  else
    let a := a.integrate b
    if d % r ≠ 0 then (none, a)
    else
      let (x, a) := a.comb4
      let a := { a with hb1 := if 1 ≤ a.halfbands then (x :: a.hb1).take 11 else a.hb1 }
      if 1 ≤ a.halfbands ∧ d % (2 * r) ≠ 0 then (none, a)
      else
        let x := if 1 ≤ a.halfbands then firOut halfband1 a.hb1 else x
        let a := { a with hb2 := if a.halfbands = 2 then (x :: a.hb2).take 19 else a.hb2 }
        if a.halfbands = 2 ∧ d % (4 * r) ≠ 0 then (none, a)
        else
          let x := if a.halfbands = 2 then firOut halfband2 a.hb2 else x
          let a := { a with fir := (x :: a.fir).take 128 }
          if d % a.decimation ≠ 0 then (none, a)
          else
            let (y, a) := a.filterOut
            (some y, a)

/-! ### Rates, delays and settling (R376, R379, R380, R384) -/

/-- g_f: the FIR's delay in its own input samples. -/
def AuxBank.delay (b : AuxBank) : Rat :=
  if b.phaseType = 0 then ((b.taps.length - 1 : Nat) : Rat) / 2
  else
    let h : Int := b.taps.foldl (· + ·) 0
    let ih : Int := (b.taps.mapIdx fun i x => (i : Int) * x).foldl (· + ·) 0
    if h = 0 then 0 else (ih : Rat) / (h : Rat)

/-- τ in modulator samples with a coefficient set. -/
def Aux.groupDelay (a : Aux) (b : AuxBank) : Rat :=
  let r : Nat := 2 ^ a.cicLog2
  if a.single then (2 * (r - 1) : Nat)
  else ((2 * (r - 1) + (if 1 ≤ a.halfbands then 5 * r else 0) + (if a.halfbands = 2 then 18 * r else 0) : Nat) : Rat) + b.delay * (r * 2 ^ a.halfbands : Nat)

/-- Settling length in modulator samples; 0 in single-cycle mode, whose outputs are never suppressed (R385). DEDUCED: log entry 156. -/
def Aux.settling (a : Aux) : Nat :=
  let r := 2 ^ a.cicLog2
  if a.single then 0
  else 4 * r + (if 1 ≤ a.halfbands then 11 * r else 0) + (if a.halfbands = 2 then 38 * r else 0) + (vget a.bank a.current).taps.length * r * 2 ^ a.halfbands

/-- Skew of channel k in modulator samples. -/
def Aux.skew (a : Aux) (k : Nat) : Rat := if a.single then (k * a.decimation / 8 : Nat) else (k * a.decimation : Nat) / 8

/-- Output rate in mHz. -/
def Aux.rateMhz (a : Aux) : Nat := (ratRound (10240000000 / (a.decimation : Rat))).toNat

/-- group_delay_16 and group_delay_ns. -/
def delayFields (tau : Rat) : List Byte := leS 4 (ratRound (16 * tau)) ++ leS 4 (ratRound (modulatorNs tau))

/-! ### Delivery (R382, R384, R389, R390) -/

/-- Writes the ring entry under way (R390). -/
def auxEntry (k : Nat) (c : Chip) : Chip :=
  let a := vget c.aux.ch k
  if a.entry = [] then c
  else
    let flags := packBits [a.current == 1, a.fade.isSome, a.entry.any fun v => v == codeMax || v == -codeMax, a.overload]
    let data := le 1 k ++ le 1 flags ++ le 1 a.entry.length ++ [0] ++ le 4 a.entrySequence ++ timeBytes a.entryS a.entryNs ++
      fit 12 (a.entry.flatMap (leS 3)) ++ [0, 0]
    let c := modAux k (fun a => { a with entry := [] }) c
    if !c.aux.ring.enabled || c.aux.ring.full || !hostWrites c then { c with aux := { c.aux with dropped := satU 32 (c.aux.dropped + 1) } }
    else
      let (ring, c) := ringPut c.aux.ring data 0 c.aux.dropped c
      { c with aux := { c.aux with ring } }

/-- A delivered output joins the channel's ring entry (R390). -/
def auxStream (k : Nat) (sequence : Nat) (s ns : Nat) (v : Int) (c : Chip) : Chip :=
  if !(vget c.aux.ch k).stream || !c.aux.ring.enabled then c
  else
    let c := modAux k (fun a =>
      if a.entry = [] then { a with entry := [v], entrySequence := sequence, entryS := s, entryNs := ns, entryAt := c.now } else { a with entry := a.entry ++ [v] }) c
    if (vget c.aux.ch k).entry.length < 4 then c else auxEntry k c

/-- An output that so many samples follow is captured for a calibration: its newest sample lies after the capture's start (R383). -/
def auxCaptured (c : Chip) (k following : Nat) : Bool :=
  (c.aux.run.map fun r => bit r.mask k && decide (following ≤ samplesSince c r.startAt)).getD false

/-- A delivered output that so many samples follow enters a running calibration (R383). -/
def auxCapture (k following : Nat) (v : Int) (c : Chip) : Chip :=
  match c.aux.run with
  | none => c
  | some r =>
    let x := vget r.capture k
    let n := 2 ^ r.avgLog2
    if !auxCaptured c k following || (if r.external then n else 2 * n) ≤ x.count then c
    else
      let half := x.count / (n / 2)
      { c with aux := { c.aux with run := some { r with capture := vset r.capture k { x with count := x.count + 1, sums := vmod x.sums half (· + v) } } } }

/-- Corrects an output (R382); with offset 0 and gain 1.0 while the channel is captured (R383). DEDUCED: log entry 161. -/
def Aux.correct (a : Aux) (captured : Bool) (x : Int) : Int :=
  clampI (-codeMax) codeMax (if captured then x else asr ((x - a.offset) * a.gain + 2 ^ 21) 22)

/-- An output whose newest modulator sample `following` samples follow up to now: delivered, or suppressed where that sample lies less
than the settling length after the cause (R384). DEDUCED: log entry 155. -/
def auxDeliver (k : Nat) (x : Int) (following : Nat) (c : Chip) : Chip :=
  let total := sunTotal c.time.sun c.now - following * 3125 * 2 ^ 27
  let c := modAux k (fun a => match a.nextCorrection with
    | some (o, g) => { a with offset := o, gain := g, nextCorrection := none }
    | none => a) c
  let a := vget c.aux.ch k
  let held := (a.suppress.map fun y => decide (32 * (c.now - y.2) < 3125 * (a.settling + following))).getD false
  if held then modAux k (fun a => { a with suppressed := satU 32 (a.suppressed + 1) }) c
  else
    let v := a.correct (auxCaptured c k following) x
    let ns := total / 2 ^ 32
    let (s, n) := secNs ns
    let c := match a.suppress with
      | some (cause, _) => raise 0x0C00 0 k (le 1 k ++ le 1 cause ++ [0, 0] ++ le 4 a.suppressed ++ le 4 a.sequence) c
      | none => c
    let instant : Rat := (total : Rat) / 2 ^ 32 - modulatorNs (a.groupDelay (vget a.bank a.current))
    let c := modAux k (fun a => { a with
      suppress := none, suppressed := 0, clipped := v == codeMax || v == -codeMax, value := v, valueSequence := a.sequence, valueS := s, valueNs := n
      sequence := wrapU 32 (a.sequence + 1), delivered := (instant, v) :: a.delivered }) c
    let c := (List.range 2).foldl (fun c d => modTone d (fun t => if t.enable && t.channel == k then { t with samples := v :: t.samples } else t) c) c
    auxCapture k following v (auxStream k a.sequence s n v c)

/-- Runs modulator samples through a channel: the outputs, each with how many samples follow it. -/
def Aux.run : List Bool → Aux → List (Int × Nat) × Aux
  | [], a => ([], a)
  | b :: bs, a =>
    let (y, a) := a.sample bs.length b
    let (ys, a) := Aux.run bs a
    ((match y with
      | some v => (v, bs.length) :: ys
      | none => ys), a)

/-- A single-cycle channel's multiplexer pin is high for the guard samples of a cycle (R385). -/
def muxCycle (a : Aux) (c : Chip) : Chip :=
  if a.single ∧ gpLive c a.muxGpio ∧ a.guardSamples ≠ 0 then emit (.muxStep a.muxGpio a.guardSamples) c else c

/-- The samples a channel filters at a boundary: in single-cycle mode whole cycles alone, so that samples ahead of the first are none
(R385). DEDUCED: log entry 155. -/
def Aux.cycles (a : Aux) (samples : List Bool) : List Bool := if a.single then samples.drop (samples.length % a.decimation) else samples

/-- AUX_OUTPUT_SAMPLE: the samples of a channel up to an output boundary. DEDUCED: log entry 155. -/
def auxOutput (k : Nat) (new : List Bool) (c : Chip) : Chip :=
  let samples := (vget c.aux.ch k).cycles ((vget c.aux.ch k).early ++ new)
  let a := vget c.aux.ch k
  if !auxRuns c || !a.enable || samples.isEmpty then c
  else
    let c := auxWatch k new c
    let a := { vget c.aux.ch k with early := [] }
    let (ys, a') := Aux.run samples a
    let c := modAux k (fun _ => a') c
    ys.foldl (fun c y => auxDeliver k y.1 y.2 (muxCycle a c)) c

def execAuxOutputSample (t : Nat) (ch : Fin 8) (samples : List Bool) (s : State) : Host.Outcome State Fault Refusal :=
  .next (s.run t fun _ c => auxOutput ch samples c)

/-- AUX_OVERLOAD_CHANGE (R372): the samples up to the one that sets or clears overload, ahead of their output boundary.
DEDUCED: log entry 155. -/
def auxOverload (k : Nat) (samples : List Bool) (c : Chip) : Chip :=
  if !auxRuns c || !(vget c.aux.ch k).enable then c
  else modAux k (fun a => { a with early := a.early ++ samples }) (auxWatch k samples c)

def execAuxOverloadChange (t : Nat) (ch : Fin 8) (samples : List Bool) (s : State) : Host.Outcome State Fault Refusal :=
  .next (s.run t fun _ c => auxOverload ch samples c)

/-- AUX_RING_ENTRY_TIMEOUT: 1 ms after the entry's first output. -/
def execAuxRingEntryTimeout (t : Nat) (ch : Fin 8) (s : State) : Host.Outcome State Fault Refusal :=
  .next (s.run t fun _ c => if (vget c.aux.ch ch).entryAt + 1000000 ≤ c.now then auxEntry ch c else c)

/-! ### Single-frequency detectors (R389) -/

/-- Cosine of a fraction of a turn, times 2^64, by its series. -/
def cosTurn (num den : Nat) : Int :=
  let x : Int := 115904311329233965478 * (num % den) / den
  let square := x * x / 2 ^ 64
  ((List.range 30).foldl (fun (p : Int × Int) k =>
    let term := -(p.2 * square) / (2 ^ 64 * ((2 * k + 1) * (2 * k + 2) : Nat))
    (p.1 + term, term)) (2 ^ 64, 2 ^ 64)).1

/-- Sine of a fraction of a turn, times 2^64. -/
def sinTurn (num den : Nat) : Int := cosTurn (4 * num + 3 * den) (4 * den)

/-- The recursion with the Q2.30 coefficient 2cos(2πf/r), in 48 bits: the outputs oldest first, those before them newest first, and the last
two sums. DESIGN CHOICE: log entry 157. -/
def goertzel (f decimation : Nat) (coefficient : Int) : List Int → List Int → Int × Int → Int × Int
  | [], _, s => s
  | x :: xs, seen, (s1, s2) =>
    let product := asr (coefficient * s1) 30 + (if coefficient * s1 % 2 ^ 30 = 0 then 0 else (Config.toneRound f decimation (x :: seen) % 2 : Nat))
    goertzel f decimation coefficient xs (x :: seen) (wrapS 48 (x + product - s2), s1)

/-- Greatest number of 2^-20 turns, built from its bits below 2^k, whose direction a vector of the first quadrant has reached. -/
def turnsFrom (re im : Int) : Nat → Nat → Nat
  | 0, r => r
  | k + 1, r =>
    let r' := r + 2 ^ k
    turnsFrom re im k (if re * sinTurn r' (2 ^ 20) ≤ im * cosTurn r' (2 ^ 20) then r' else r)

/-- The argument of a vector in 2^-20 turns, rounded down. -/
def turnsOf (re im : Int) : Nat :=
  if 0 < re ∧ 0 ≤ im then turnsFrom re im 18 0
  else if re ≤ 0 ∧ 0 < im then 2 ^ 18 + turnsFrom im (-re) 18 0
  else if re < 0 ∧ im ≤ 0 then 2 ^ 19 + turnsFrom (-re) (-im) 18 0
  else 3 * 2 ^ 18 + turnsFrom (-im) re 18 0

/-- Magnitude round(2|X| / N) and phase arg X of a block of outputs, oldest first, at a frequency in mHz (R389). The recursion's last sums
s1 and s2 give X = e^(−jω(N−1)) · (s1 − e^(−jω) · s2). DESIGN CHOICE: log entry 157. -/
def toneOf (f decimation : Nat) (xs : List Int) : Nat × Nat :=
  let n := xs.length
  let turn := f * decimation
  let full := 10240000000
  let coefficient := divNearest (cosTurn turn full) (2 ^ 33)
  let (s1, s2) := goertzel f decimation coefficient xs [] (0, 0)
  let power := (2 ^ 30 * (s1 * s1 + s2 * s2) - coefficient * s1 * s2).toNat
  let magnitude := (isqrt (16 * power / (2 ^ 30 * (n * n))) + 1) / 2
  let start := turnsOf (s1 * 2 ^ 64 - s2 * cosTurn turn full) (s2 * sinTurn turn full)
  let phase : Int := (start * full - turn * (n - 1) * 2 ^ 20 : Int) / (16 * full) + (Config.toneRound f decimation xs % 2 : Nat)
  (magnitude, (phase % 65536).toNat)

/-- TONE_BLOCK_END (R389). -/
def toneBlock (d : Nat) (c : Chip) : Chip :=
  let t := vget c.aux.tone d
  if !t.enable || t.blockLength = 0 || decide (t.samples.length < t.blockLength) then c
  else
    let xs := t.samples.reverse
    let (a, p) := toneOf t.frequencyMhz (vget c.aux.ch t.channel).decimation (xs.take t.blockLength)
    let magnitude := satU 32 a
    let phase := p % 65536
    let blocks := wrapU 32 (t.blocks + 1)
    let on := if t.on then !decide (magnitude < t.offThreshold) else decide (t.onThreshold ≤ magnitude)
    let c := modTone d (fun t => { t with samples := (xs.drop t.blockLength).reverse, on, phase, magnitude, blocks }) c
    if on = t.on then c else raise 0x0C01 1 d (le 1 d ++ le 1 (b2n on) ++ le 2 phase ++ le 4 magnitude ++ le 4 blocks) c

def execToneBlockEnd (t : Nat) (d : Fin 2) (s : State) : Host.Outcome State Fault Refusal :=
  .next (s.run t fun _ c => toneBlock d c)

/-! ### Causes of suppression (R384) -/

/-- A cause of suppression: the count starts anew, and a detector block on the channel is discarded; in single-cycle mode no
output is suppressed. DEDUCED: log entry 156. -/
def auxSuppress (k cause : Nat) (c : Chip) : Chip :=
  let c := modAux k (fun a => { a with suppress := if a.single then none else some (cause, c.now), suppressed := if a.suppress.isSome then a.suppressed else 0 }) c
  (List.range 2).foldl (fun c d => modTone d (fun t => if t.channel = k then { t with samples := [] } else t) c) c

/-- The chain starts: every enabled channel (R374, R384 cause 0). -/
def auxStart (c : Chip) : Chip := (List.range 8).foldl (fun c k => if (vget c.aux.ch k).enable then auxSuppress k 0 c else c) c

/-! ### AUX.CONFIGURE -/

/-- A channel with the settings of item 1; offset and gain follow at the next boundary. -/
def Aux.configured (a : Aux) (p : List Byte) : Aux :=
  { a with
    enable := rd p 4 1 == 1, single := rd p 5 1 == 1, cicLog2 := rd p 6 1, halfbands := rd p 7 1, firDecimLog2 := rd p 8 1, stream := rd p 9 1 == 1
    guardSamples := rd p 10 2, muxGpio := rd p 12 1, nextCorrection := some (rdS p 16 4, rd p 20 4) }

/-- Two settings decimate alike (R384 cause 1). -/
def Aux.runsAs (a b : Aux) : Bool :=
  a.enable == b.enable && a.single == b.single && a.cicLog2 == b.cicLog2 && a.halfbands == b.halfbands && a.firDecimLog2 == b.firDecimLog2

/-- R376 and R385. -/
def Aux.rateOk (a : Aux) : Bool :=
  if a.single then decide (6 ≤ a.cicLog2) else decide (10240000 ≤ 80000 * a.decimation) && decide (1250 * a.decimation ≤ 10240000)

/-- A lane with `flicker_enable` names the channel (R391). -/
def lampInUse (c : Chip) (k : Nat) : Bool :=
  (mappedLanes c).any fun l => (vget c.corr l).bank.params.flickerEnable && (vget c.corr l).bank.params.lampChannel == k

/-- Item 1 takes effect. -/
def auxChannel (p : List Byte) (c : Chip) : Reply :=
  let k := rd p 1 1
  let old := vget c.aux.ch k
  let c := modAux k (fun a => a.configured p) c
  let a := vget c.aux.ch k
  let c := if old.runsAs a then c else auxSuppress k 1 (modAux k (fun a => { a.clearCic with hb1 := [], hb2 := [], fir := [], early := [] }) c)
  replyBody (le 4 a.rateMhz ++ le 4 a.settling ++ le 4 (ratRound (modulatorNs (a.skew k))).toNat) c

/-- AUX.CONFIGURE; bytes that the request table shows as no field of an item are ignored. DESIGN CHOICE: log entry 258. -/
def auxConfigure (_ : Env) (j : Job) (c : Chip) : Reply :=
  let p := j.payload
  let item := rd p 0 1
  let start := [lenIs 32 j, inRange p 0 1 0 2]
  if item = 1 then
    checked (start ++ [inRange p 1 1 0 7, reserved p 2 2, inRange p 4 1 0 1, inRange p 5 1 0 1, inRange p 6 1 4 8, inRange p 7 1 0 2, inRange p 8 1 0 3,
        inRange p 9 1 0 1, inRange p 10 2 0 4095, param 12 (decide (rd p 12 1 ≤ 31) || rd p 12 1 == 0xFF), reserved p 13 3,
        inRangeS p 16 4 (-8388608) 8388607, inRange p 20 4 0x200000 0x800000, crossRule (({} : Aux).configured p).rateOk,
        stateRule c (!lampInUse c (rd p 1 1) || mode c == 4 || mode c == 5),
        ownRule stBusy (!gpSwitch c (rd p 12 1) && !gpMux c (rd p 1 1) (rd p 12 1))]) c (auxChannel p c)
  else if item = 2 then
    checked (start ++ [reserved p 2 2]) c
      (reply stOk ((setBits 8 (rd p 4 1)).foldl (fun c k => if (vget c.aux.ch k).enable then auxSuppress k 2 c else c) c))
  else
    let enable := bit (rd p 4 1) 0
    let old := c.aux.ring
    let new : Ring := { channel := rd p 5 1, irqCount := rd p 6 2, irqHoldoffUs := rd p 8 2, entryCount := rd p 12 4, entrySize := 32, base := rd p 16 8, headAddr := rd p 24 8 }
    checked (start ++ [reserved p 2 2, inRange p 4 1 0 1, inRange p 5 1 24 31, inRange p 8 2 0 10000,
        param 12 (isPow2 (rd p 12 4) && decide (64 ≤ rd p 12 4) && decide (rd p 12 4 ≤ 65536)), param 16 (rd p 16 8 % 4096 == 0), param 24 (rd p 24 8 % 32 == 0)] ++
        ringChecks c old enable new 7) c
      (reply stOk (ringChannel old enable new 7 { c with aux := { c.aux with ring := old.change enable new } }))

def execAuxConfigure (t : Nat) (mb : Fin 8) (s : State) : Host.Outcome State Fault Refusal :=
  .next (s.command 0x0C00 t mb auxConfigure)

/-! ### Coefficient banks (R381, R386 to R388) -/

/-- The set of a request; `q` starts after `transaction_id`. -/
def bankOf (q : List Byte) : AuxBank :=
  { taps := (List.range (rd q 2 2)).map fun i => rdS q (4 + 4 * i) 4, phaseType := rd q 1 1 }

/-- R381. -/
def AuxBank.ok (b : AuxBank) : Bool :=
  if b.phaseType = 0 then b.taps == b.taps.reverse else decide (2048 ≤ (b.taps.foldl (· + ·) 0).natAbs)

/-- Neither bank is idle: a fade runs. -/
def Aux.fading (a : Aux) : Bool := a.fade.isSome

/-- The one pending item of a channel is taken (R388). -/
def Aux.itemPending (a : Aux) : Bool := a.pendingLoad.isSome || a.pendingSwap.isSome

/-- A load takes effect, or is deferred to the end of the fade (R386). DEDUCED: log entry 159. -/
def auxLoadApply (q : List Byte) (c : Chip) : Chip :=
  modAux (rd q 0 1) (fun a => if a.fading then { a with pendingLoad := some (bankOf q) } else { a with bank := vset a.bank (1 - a.current) (bankOf q) }) c

/-- A swap is requested: at the next boundary, or pending behind a fade or another swap (R387, R388). DEDUCED: log entry 159. -/
def auxSwapApply (q : List Byte) (c : Chip) : Chip :=
  modAux (rd q 0 1) (fun a => if a.fading || a.swapNext.isSome then { a with pendingSwap := some (rd q 2 2) } else { a with swapNext := some (rd q 2 2) }) c

/-- The fields of a request AUX.LOAD_COEFFS, the ranges as `rangeIf` judges them. -/
def auxLoadFields (now : Bool) (p : List Byte) : List Check :=
  [rangeIf now (inRange p 4 1 0 7), inRange p 5 1 0 1, rangeIf now (inRange p 6 2 1 128)] ++
  (List.range (rd p 6 2)).map fun i => rangeIf now (inRangeS p (8 + 4 * i) 4 (-131072) 131071)

/-- The fields of a request AUX.SWAP_BANK, the ranges as `rangeIf` judges them. -/
def auxSwapFields (now : Bool) (p : List Byte) : List Check :=
  [rangeIf now (inRange p 4 1 0 7), reserved p 5 1,
   rangeIf now (param 6 (rd p 6 2 == 0 || (decide (16 ≤ rd p 6 2) && decide (rd p 6 2 ≤ 4096))))]

/-- The staged entries at commit. -/
def auxLoadValid (q : List Byte) : Bool := (auxLoadFields true (zeros 4 ++ q)).all (·.ok) && (bankOf q).ok
def auxSwapValid (q : List Byte) (c : Chip) : Bool :=
  (auxSwapFields true (zeros 4 ++ q)).all (·.ok) && (vget c.aux.ch (rd q 0 1)).enable

/-- AUX.LOAD_COEFFS (R385, R386). -/
def auxLoadCoeffs (_ : Env) (j : Job) (c : Chip) : Reply :=
  let p := j.payload
  let q := p.drop 4
  let b := bankOf q
  let a := vget c.aux.ch (rd p 4 1)
  let len := lenOk (p.length == 8 + 4 * rd p 6 2)
  let body (bank : Nat) := le 1 bank ++ zeros 3 ++ delayFields (a.groupDelay b)
  if rd p 0 4 ≠ 0 then
    let r := stage 0x0C01 (len :: auxLoadFields false p) j c
    if r.status = stOk then { r with body := body 0xFF } else r
  else
    checked (len :: auxLoadFields true p ++ [crossRule b.ok, ownRule stBusy (!a.fading && !a.itemPending && !targetHeld c (0x0C01, 0) 0)]) c (replyBody (body (1 - a.current)) (auxLoadApply q c))

def execAuxLoadCoeffs (t : Nat) (mb : Fin 8) (s : State) : Host.Outcome State Fault Refusal :=
  .next (s.command 0x0C01 t mb auxLoadCoeffs)

/-- AUX.SWAP_BANK (R387, R388). -/
def auxSwapBank (_ : Env) (j : Job) (c : Chip) : Reply :=
  let p := j.payload
  let q := p.drop 4
  let a := vget c.aux.ch (rd p 4 1)
  if rd p 0 4 ≠ 0 then stage 0x0C02 (lenIs 8 j :: auxSwapFields false p) j c
  else
    checked (lenIs 8 j :: auxSwapFields true p ++ [stateRule c a.enable, ownRule stBusy (!a.itemPending && !targetHeld c (0x0C01, 0) 0)]) c
      (replyBody (le 1 (b2n (a.fading || a.swapNext.isSome)) ++ zeros 3) (auxSwapApply q c))

def execAuxSwapBank (t : Nat) (mb : Fin 8) (s : State) : Host.Outcome State Fault Refusal :=
  .next (s.command 0x0C02 t mb auxSwapBank)

/-! ### AUX.TONE_CONFIGURE and AUX.READ -/

def auxToneConfigure (_ : Env) (j : Job) (c : Chip) : Reply :=
  let p := j.payload
  let a := vget c.aux.ch (rd p 2 1)
  checked [lenIs 20 j, inRange p 0 1 0 1, inRange p 1 1 0 1, inRange p 2 1 0 7, reserved p 3 1,
      param 4 (rd p 4 4 != 0 && decide (2 * rd p 4 4 * a.decimation < 10240000000)), inRange p 8 4 16 65536, crossRule (decide (rd p 16 4 ≤ rd p 12 4))] c
    (reply stOk (modTone (rd p 0 1) (fun _ => {
      enable := rd p 1 1 == 1, channel := rd p 2 1, frequencyMhz := rd p 4 4, blockLength := rd p 8 4, onThreshold := rd p 12 4, offThreshold := rd p 16 4 }) c))

def execAuxToneConfigure (t : Nat) (mb : Fin 8) (s : State) : Host.Outcome State Fault Refusal :=
  .next (s.command 0x0C03 t mb auxToneConfigure)

/-- Section 0 of AUX.READ, one channel. -/
def auxState (c : Chip) (a : Aux) : List Byte :=
  le 1 (if !a.enable || !auxRuns c then 0 else if a.suppress.isSome then 1 else 2) ++
  le 1 (packBits [a.current == 1, a.fading, a.clipped, a.overload, a.swapNext.isSome || a.pendingSwap.isSome]) ++ [0, 0] ++ leS 4 a.value ++
  le 4 a.valueSequence ++ timeBytes a.valueS a.valueNs ++ [0, 0]

def auxRead (_ : Env) (j : Job) (c : Chip) : Reply :=
  let p := j.payload
  checked [lenIs 4 j, inRange p 0 1 0 3, reserved p 1 3] c
    (replyBody (match rd p 0 1 with
      | 0 => c.aux.ch.toList.flatMap (auxState c)
      | 1 => (c.aux.ch.toList.mapIdx fun k a =>
          delayFields (a.groupDelay (vget a.bank a.current)) ++ le 4 (ratRound (modulatorNs (a.skew k))).toNat ++ le 4 a.rateMhz).flatten
      | 2 => c.aux.tone.toList.flatMap fun t => le 1 (b2n t.on) ++ le 1 t.channel ++ le 2 t.phase ++ le 4 t.magnitude ++ le 4 t.blocks ++ zeros 4
      | _ => c.aux.cal.toList.flatMap fun x => le 2 x.verdict ++ le 2 x.status ++ leS 4 x.offset ++ le 4 x.gain ++ le 4 x.repeatDeviation) c)

def execAuxRead (t : Nat) (mb : Fin 8) (s : State) : Host.Outcome State Fault Refusal :=
  .next (s.command 0x0C04 t mb auxRead)

/-! ### CAL.AUX (R383) -/

def calAux (_ : Env) (j : Job) (c : Chip) : Reply :=
  let p := j.payload
  let mask := rd p 0 1
  let external := rd p 1 1 == 1
  let second := external && rd p 2 1 == 1
  checked [lenIs 16 j, param 0 (mask != 0 && (setBits 8 mask).all fun k => (vget c.aux.ch k).enable), inRange p 1 1 0 1,
      param 2 (decide (rd p 2 1 ≤ if external then 1 else 0)), inRange p 3 1 8 16,
      param 4 (if external then decide (100000 ≤ rd p 4 4) && decide (rd p 4 4 ≤ 1150000) else rd p 4 4 == 1000000), inRange p 12 1 0 1, reserved p 13 3,
      stateRule c (mode c == 5 && (!second || (setBits 8 mask).all fun k => (vget c.aux.cal k).zero.isSome)), ownRule stBusy (!calibrating c)] c
    { status := stPending
      chip := { c with aux := { c.aux with run := some { mask, external, phase := rd p 2 1, avgLog2 := rd p 3 1, refUv := rd p 4 4, tolerance := rd p 8 4, apply := bit (rd p 12 1) 0, startAt := c.now } } } }

def execCalAux (t : Nat) (mb : Fin 8) (s : State) : Host.Outcome State Fault Refusal :=
  .next (s.command 0x0404 t mb calAux)

/-- How far the means of two halves of 2^(avg_log2 − 1) outputs lie apart. -/
def halvesApart (r : AuxRun) (a b : Int) : Rat := ((a - b).natAbs : Rat) / (2 ^ (r.avgLog2 - 1) : Nat)

/-- What the capture of a channel gives; a gain that no 32-bit field holds is free. DEDUCED: log entry 161. -/
def auxResult (r : AuxRun) (x : AuxCapture) (old : AuxCal) (c : Chip) : AuxCal × Chip :=
  let s (i : Nat) : Int := vget x.sums i
  let n : Nat := 2 ^ r.avgLog2
  let first := r.external && r.phase == 0
  let apart := if r.external then halvesApart r (s 0) (s 1) else max (halvesApart r (s 0) (s 1)) (halvesApart r (s 2) (s 3))
  let z : Rat := match r.external && r.phase == 1, old.zero with
    | true, some (v, d) => (v : Rat) / d
    | _, _ => ((s 0 + s 1 : Int) : Rat) / n
  let m : Rat := if r.external then ((s 0 + s 1 : Int) : Rat) / n else ((s 2 + s 3 : Int) : Rat) / n
  let (free, c) := freeNat c
  let gain : Int := if m = z then free % 2 ^ 32 else ratRound (2 ^ 22 * ((r.refUv : Rat) * 2 ^ 23 / 1200000) / (m - z))
  let unstable := decide ((r.tolerance : Rat) < apart)
  let range := !first && (m == z || decide (gain < 0x200000) || decide (0x800000 < gain))
  let verdict := packBits [unstable, range, x.overloaded]
  ({ old with
     verdict, status := calStatus verdict, repeatDeviation := satU 32 (ratRound apart).toNat
     offset := ratRound z, gain := if first then old.gain else if gain < 0 ∨ 2 ^ 32 ≤ gain then free % 2 ^ 32 else gain.toNat
     zero := if first then some (s 0 + s 1, n) else none }, c)

/-- CAL_AUX_DONE: every channel has its outputs (R383). -/
def calAuxDone (c : Chip) : Chip :=
  match c.aux.run with
  | none => c
  | some r =>
    let ks := setBits 8 r.mask
    if !(ks.all fun k => decide ((if r.external then 1 else 2) * 2 ^ r.avgLog2 ≤ (vget r.capture k).count)) then c
    else
      let c := ks.foldl (fun c k =>
        let (x, c) := auxResult r (vget r.capture k) (vget c.aux.cal k) c
        { c with aux := { c.aux with cal := vset c.aux.cal k x } }) { c with aux := { c.aux with run := none } }
      let verdict := ks.foldl (fun v k => Nat.lor v (vget c.aux.cal k).verdict) 0
      let c := if r.apply ∧ verdict = 0 ∧ !(r.external ∧ r.phase = 0) then
          ks.foldl (fun c k => modAux k (fun a => { a with nextCorrection := some ((vget c.aux.cal k).offset, (vget c.aux.cal k).gain) }) c) c
        else c
      calDone 0 2 r.phase (calStatus verdict) verdict c

def execCalAuxDone (t : Nat) (s : State) : Host.Outcome State Fault Refusal :=
  .next (s.run t fun _ c => calAuxDone c)

/-- CALIBRATE is left while a phase runs. DEDUCED: log entry 161. -/
def calAuxStop (c : Chip) : Chip :=
  match c.aux.run with
  | none => c
  | some r => calDone 0 2 r.phase stAborted 0 { c with aux := { c.aux with run := none } }

end Sys2Proof.Machine
end

