-- ==== Sys2Proof/Machine/Gang.lean ====
section
/-! DEFINITION. Ganging over the Sarec link: forming, exchange, splitting and re-joining (R393 to R409). -/
namespace Sys2Proof.Machine

/-- Sarec ports run: not while they are powered down in STANDBY, and not in THERMAL-HALT (R536, R500). -/
def sarecRuns (c : Chip) : Bool := [4, 5, 6, 7, 8, 9, 10].contains (mode c)

/-! ### Forming (R394) -/

/-- Position of the leader: the lowest node ID. -/
def Gang.leaderAt (g : Gang) : Option Nat := (List.range g.nodes.length).find? fun p => g.nodes.getD p 0 == g.leaderNode

/-- The members that can lead a partition: the original leader, and those with their own copy of the main encoder (R403).
DEDUCED: log entry 173. -/
def Gang.canLead (g : Gang) (p : Nat) : Bool := bit g.members p && (g.leaderAt == some p || bit g.encoders p)

/-- Position of the leader of the partition this member is in; none where it has none (R403). DEDUCED: log entry 173. -/
def Gang.partitionLeader (g : Gang) : Option Nat :=
  ((List.range g.nodes.length).filter g.canLead).foldl (fun best p => match best with
    | some q => if g.nodes.getD p 0 < g.nodes.getD q 0 then some p else some q
    | none => some p) none

/-- This member's role (R394, R403): 0 leader, 1 follower, 2 partition leader, 3 untriggered. DEDUCED: log entry 170. -/
def Gang.roleNow (g : Gang) : Nat :=
  match g.partitionLeader with
  | none => 3
  | some p => if p ≠ g.cfg.position then 1 else if g.leaderAt = some p then 0 else 2

/-- EV_GANG_SPLIT (R409). -/
def gangSplit (cause : Nat) (c : Chip) : Chip :=
  raise 0x0F00 3 0x7F (le 1 cause ++ le 1 c.gang.members ++ le 1 c.gang.role ++ [0] ++ le 8 c.trig.number) c

/-- GANG_FORM: the members have met over the links (R394). DEDUCED: log entry 170. -/
def gangForm (nodes : List Nat) (encoders : Nat) (overlaps : List Nat) (c : Chip) : Chip :=
  let g := c.gang
  if g.state ≠ .forming ∨ !sarecRuns c ∨ nodes.length ≠ g.cfg.size then c
  else if nodes.eraseDups.length ≠ nodes.length then
    gangSplit 2 (modGang (fun g => { g with nodeConflict := true, state := .notGanged, members := g.cfg.self, role := 0 }) c)
  else
    modGang (fun g =>
      let g := { g with
        nodes := nodes.map (· % 256), encoders := setBit encoders g.cfg.position g.cfg.localEncoder, overlaps, nodeConflict := false, leaderNode := nodes.foldl min 255, members := 2 ^ g.cfg.size - 1, state := .joined
        links := vmapIdx (fun b up => up || g.cfg.usesLink b) g.links }
      { g with role := g.roleNow }) { c with trig := { c.trig with pitchDue := true } }

def execGangForm (t : Nat) (nodes : List Nat) (encoders : Nat) (overlaps : List Nat) (s : State) : Host.Outcome State Fault Refusal :=
  .next (s.run t fun _ c => gangForm nodes encoders overlaps c)

/-! ### Exchange (R395 to R398, R400) -/

/-- A tag, with the pitch that applies at it, as the Sarec links carry it. DEDUCED: log entry 172. -/
def tagMessage (tag : Tag) (pitch : Option (Nat × Nat)) : List Byte :=
  tagBytes tag ++ match pitch with
    | some (n, d) => le 4 n ++ le 2 d
    | none => []

/-- The tag is that of the join trigger NJ: the leader's, at or beyond the join point (R407). DEDUCED: log entry 171. -/
def Gang.joinsAt (g : Gang) (tag : Tag) : Bool :=
  g.state == .rejoining && g.leaderAt != some g.cfg.position && (g.joinMd.map fun m => decide (m ≤ tag.md)).getD false

/-- SAREC_TAG_RECEIVED: a follower keeps its leader's tag, and the pitch that applies at it, until the trigger instant, and passes both on
to the members beyond it (R396, R397); a member that is to re-join takes the tag of the join trigger from the original leader (R407). -/
def tagReceived (tag : Tag) (pitch : Option (Nat × Nat)) (c : Chip) : Chip :=
  let g := c.gang
  let joins := g.joinsAt tag
  if !joins && !(g.formed && g.role == 1) then c
  else
    let ports := match if joins then g.leaderAt else g.partitionLeader with
      | some q => g.portsFrom q (if joins then 2 ^ g.cfg.size - 1 else g.members)
      | none => []
    sendSarec ports 0 (tagMessage tag pitch) (modGang (fun g => { g with
      tags := g.tags ++ [tag]
      pitches := match pitch with
        | some (n, d) => g.pitches ++ [(tag.number, n, d)]
        | none => g.pitches }) c)

def execSarecTagReceived (t : Nat) (tag : Tag) (pitch : Option (Nat × Nat)) (s : State) : Host.Outcome State Fault Refusal :=
  .next (s.run t fun _ c => tagReceived tag pitch c)

/-- The port toward the leader of the partition, where another member leads it: reports go there (R397). DEDUCED: log entry 172. -/
def offsetPorts (g : Gang) : List Nat :=
  match g.partitionLeader with
  | some q => if q = g.cfg.position then [] else (g.portToward q).toList
  | none => []

/-- A member's largest view offset as the Sarec links carry it. DEDUCED: log entry 172. -/
def offsetMessage (position offset : Nat) : List Byte := le 1 position ++ le 8 offset

/-- The join point goes on to every member (R407): from the original leader outward. DEDUCED: log entry 171. -/
def tellJoin (c : Chip) : Chip :=
  match c.gang.leaderAt, c.gang.joinMd with
  | some q, some md => sendSarec (c.gang.portsFrom q (2 ^ c.gang.cfg.size - 1)) 4 (le 8 md) c
  | _, _ => c

/-- SAREC_LATENCY_MEASURE (R396). -/
def latencyMeasure (link ns retried : Nat) (c : Chip) : Chip :=
  if !c.gang.portUp link then c
  else
    let (n, c) := satAdd 0x0F01 24 0 32 c.gang.framesRetried retried c
    modGang (fun g => { g with latency := vset g.latency link (satU 32 ns), framesRetried := n }) c

def execSarecLatencyMeasure (t : Nat) (link : Fin 2) (ns retried : Nat) (s : State) : Host.Outcome State Fault Refusal :=
  .next (s.run t fun _ c => latencyMeasure link ns retried c)

/-- A grid that holds from a line on joins those told before, where it is another. -/
def noteGrid {α : Type} [DecidableEq α] (line : Nat) (grid : α) (old : List (Nat × α)) : List (Nat × α) :=
  if (old.head?.map (·.2)) = some grid then old else ((line, grid) :: old).take 256

/-- GANG_EXCHANGE_RECEIVED (R395, R397, R398, R400, R407): a member passes on what others are to know too. DEDUCED: log entry 172. -/
def exchangeReceived (x : GangExchange) (c : Chip) : Chip :=
  if c.gang.cfg.size ≤ 1 then c
  else match x with
    | .samples line pixels column0 pitch =>
      modGang (fun g => { g with
        samples := ((line, pixels) :: g.samples.filter fun y => y.1 != line).take 256
        gridsAbove := noteGrid line (column0, pitch) g.gridsAbove }) c
    | .runs line blobs => modGang (fun g => { g with exchange := (g.exchange.filter fun y => y.1 != line) ++ [(line, blobs)] }) c
    | .lowerGrid line column0 pitch count => modGang (fun g => { g with gridsBelow := noteGrid line (column0, pitch, count) g.gridsBelow }) c
    | .viewOffset position offset =>
      sendSarec (offsetPorts c.gang) 3 (offsetMessage position offset)
        (modGang (fun g => { g with viewOffsets := (position, offset) :: g.viewOffsets.filter fun y => y.1 != position }) c)
    | .join md => if c.gang.state = .rejoining then tellJoin (modGang (fun g => { g with joinMd := some md }) c) else c

def execGangExchangeReceived (t : Nat) (x : GangExchange) (s : State) : Host.Outcome State Fault Refusal :=
  .next (s.run t fun _ c => exchangeReceived x c)

/-- A follower reports its largest view offset to its leader when its geometry changes (R397). -/
def reportOffsets (c : Chip) : Chip :=
  if c.gang.formed ∧ c.gang.role = 1 then
    sendSarec (offsetPorts c.gang) 3 (offsetMessage c.gang.cfg.position (maxOf ((mappedLanes c).map fun l => vget c.trig.geo.viewOffset l))) c
  else c

/-- The largest view offset of any member, as its reports have it (R397). -/
def gangOffset (c : Chip) : Nat := if c.gang.state = .notGanged then 0 else maxOf (c.gang.viewOffsets.map (·.2))

/-! ### Links lost, splitting (R402 to R404) -/

/-- SAREC_LINK_LOST: a ring sends its traffic the other way round; a chain, or a ring's second loss, splits the gang, whichever members the
link joined (R402, R403). -/
def sarecLost (link : Nat) (c : Chip) : Chip :=
  let c := modGang (fun g => { g with links := vset g.links link false }) c
  let g := c.gang
  if !g.cfg.usesLink link || !g.formed then c
  else
    let left := Nat.land g.reachable g.members
    if g.state ≠ .joined ∧ left = g.members then modGang (fun g => { g with state := .island, joinMd := none }) c
    else if left = g.members then c
    else
      let (n, c) := satAdd 0x0F01 20 0 32 g.splits 1 c
      let c := modGang (fun g =>
        let g := { g with members := left, state := .island, splits := n, lastSplitTrigger := c.trig.number, joinMd := none }
        { g with role := g.roleNow }) c
      gangSplit 0 c

def execSarecLinkLost (t : Nat) (link : Fin 4) (s : State) : Host.Outcome State Fault Refusal :=
  .next (s.run t fun _ c => sarecLost link c)

/-! ### Re-joining (R407) -/

/-- MD at which a join is scheduled from now. -/
def joinPoint (c : Chip) : Nat := hwmNow c + c.gang.cfg.rejoinDistance

/-- A join point is scheduled, and told to every member (R407). -/
def scheduleJoin (md : Nat) (c : Chip) : Chip := tellJoin (modGang (fun g => { g with joinMd := some md }) c)

/-- SAREC_LINK_HEALTHY: a link has carried valid frames for 1 s; once every link of the gang has, its members report REJOINING, and the
original leader may schedule the join (R407). -/
def sarecHealthy (link : Nat) (c : Chip) : Chip :=
  let c := modGang (fun g => { g with links := vset g.links link true }) c
  let g := c.gang
  if g.state ≠ .island ∨ !((List.range g.cfg.size).all fun b => !g.cfg.usesLink b || vget g.links b) then c
  else
    let c := modGang (fun g => { g with state := .rejoining }) c
    if g.cfg.autoRejoin ∧ g.leaderAt = some g.cfg.position then scheduleJoin (joinPoint c) c else c

def execSarecLinkHealthy (t : Nat) (link : Fin 4) (s : State) : Host.Outcome State Fault Refusal :=
  .next (s.run t fun _ c => sarecHealthy link c)

/-- A number of a line in flight after the local numbers move by `d` (R407 step 2). -/
def moveBy (d : Int) (n : Nat) : Nat := ((n : Int) + d).toNat

def Tag.moveBy (x : Tag) (d : Int) : Tag := { x with number := Sys2Proof.Machine.moveBy d x.number }
def Stitched.moveBy (x : Stitched) (d : Int) : Stitched := { x with tag := Tag.moveBy x.tag d }

/-- The line numbers a blob holds, moved. -/
def Blob.moveBy (b : Blob) (d : Int) : Blob :=
  let f := Sys2Proof.Machine.moveBy d
  { b with
    nFirst := f b.nFirst, nLast := f b.nLast, chainLine := f b.chainLine, absorbed := b.absorbed.map fun a => (f a.1, a.2)
    lowFirst := b.lowFirst.map f, highFirst := b.highFirst.map f, highOpen := b.highOpen.map fun x => (x.1, f x.2) }

/-- The member takes the leader's numbers: every line in flight moves with them, so that nothing in flight is lost (R407 step 2).
DEDUCED: log entry 171. -/
def renumber (number : Nat) (c : Chip) : Chip :=
  let d : Int := (number : Int) - c.trig.number
  let f := moveBy d
  if d = 0 then c
  else { c with
    trig := { c.trig with number, tags := c.trig.tags.map fun x => Tag.moveBy x d, leaderTags := c.trig.leaderTags.map f, delayFrom := vmapIdx (fun _ x => x.map f) c.trig.delayFrom, lastApplied := c.trig.lastApplied.map f }
    port := vmapIdx (fun _ x => { x with outstanding := x.outstanding.map fun o => { o with number := f o.number } }) c.port
    lane := vmapIdx (fun _ x => { x with buffer := x.buffer.map fun y => { y with number := f y.number }, lost := x.lost.map f }) c.lane
    corr := vmapIdx (fun _ x => { x with lastLine := x.lastLine.map f, reseed := x.reseed.map f }) c.corr
    seam := vmapIdx (fun _ x => { x with next := x.next.map fun y => (y.1, y.2.1, f y.2.2.1, y.2.2.2), taints := x.taints.map f, applies := x.applies.map f, appliedAt := f x.appliedAt }) c.seam
    older := c.older.map fun x => (f x.1, x.2)
    engines := { c.engines with
      shadow := c.engines.shadow.map fun x => (x.1, f x.2), blocks := c.engines.blocks.map fun b => (f b.1, b.2)
      copy := c.engines.copy.map fun x => { x with lastLine := x.lastLine.map f, reseed := x.reseed.map f } }
    perg := { c.perg with
      contributions := vmapIdx (fun _ ks => ks.map fun k => { k with number := f k.number }) c.perg.contributions, next := f c.perg.next
      out := c.perg.out.map fun x => x.moveBy d, recent := c.perg.recent.map fun x => x.moveBy d, takeoverAt := c.perg.takeoverAt.map fun y => (y.1, f y.2)
      expired := c.perg.expired.map fun x => (x.1, f x.2) }
    det := { c.det with
      delivered := c.det.delivered.map f, resets := c.det.resets.map fun x => (f x.1, x.2), rows := c.det.rows.map fun x => { x with line := x.line.moveBy d }
      out := c.det.out.map fun x => { x with line := x.line.moveBy d }, verdictUntil := f c.det.verdictUntil, last := c.det.last.map f }
    carry := { c.carry with
      open_ := c.carry.open_.map fun b => Blob.moveBy b d, regions := c.carry.regions.map fun r => (r.1, Blob.moveBy r.2 d)
      lastLine := c.carry.lastLine.map f, closed := c.carry.closed.map fun k => { k with blob := Blob.moveBy k.blob d } }
    rotunda := { c.rotunda with samples := c.rotunda.samples.map fun x => (f x.1, x.2) }
    gang := { c.gang with seam := { c.gang.seam with next := c.gang.seam.next.map fun y => (y.1, y.2.1, f y.2.2.1, y.2.2.2), taints := c.gang.seam.taints.map f } } }

/-- The join at trigger NJ: ISLAND ends, the members are told the pitch again, and EV_GANG_JOINED is raised (R407). DEDUCED: log entries 170 and 171. -/
def gangJoin (nj : Nat) (c : Chip) : Chip :=
  let c := modGang (fun g =>
    let g := { g with state := .joined, members := 2 ^ g.cfg.size - 1, joinTrigger := nj, joinMd := none, samples := [], exchange := [], importKeys := [],
                       gridsAbove := [], gridsBelow := [] }
    { g with role := g.roleNow }) { c with trig := { c.trig with pitchDue := true } }
  raise 0x0F01 1 0x7F (le 1 c.gang.cfg.size ++ le 1 c.gang.leaderNode ++ le 1 c.gang.members ++ [0] ++ le 8 nj) c

/-- The Sarec links are powered down: a configured gang forms again at the next working mode (R536). -/
def gangDown (c : Chip) : Chip :=
  modGang (fun g => { g with
    links := Vector.replicate 4 false, state := if 1 < g.cfg.size then .forming else .notGanged, members := g.cfg.self, role := 0, tags := [], pitches := []
    joinMd := none, samples := [], exchange := [], importKeys := [], gridsAbove := [], gridsBelow := [] }) c

/-! ### GANG.CONFIGURE and GANG.STATUS (R408) -/

/-- The field ranges of R149 that the gang seam shares; `p` is the request. -/
def gangSeamFields (p : List Byte) : List Check :=
  [param 4 (decide (2 ≤ rd p 4 2) && decide (rd p 4 2 ≤ 256) && rd p 4 2 % 2 == 0), inRange p 16 2 0 32767, inRange p 18 2 0 4095, inRange p 20 1 6 10,
   inRange p 21 1 1 8, inRange p 22 1 1 4]

/-- Action 0 takes effect: the gang of the settings forms anew, or is dissolved. -/
def gangConfigured (p : List Byte) (c : Chip) : Chip :=
  let f := rd p 3 1
  let cfg : GangCfg := { size := rd p 0 1, position := rd p 1 1, ring := rd p 2 1 == 1, autoRejoin := bit f 0, localEncoder := bit f 1, overlap := rd p 8 4, rejoinDistance := rd p 12 4 }
  let seam : Seam := { c.gang.seam with
    hard := bit f 2, track := bit f 3, zoneWidth := rd p 4 2, cutOffset := rd p 6 2, confThreshold := rd p 16 2, textureMin := rd p 18 2
    corrLinesLog2 := rd p 20 1, maxStepCd := rd p 21 1, maxStepMd := rd p 22 1 }
  modGang (fun g => { g with
    cfg, seam, state := if 1 < cfg.size then .forming else .notGanged, members := cfg.self, role := 0, nodes := [], encoders := 0, overlaps := [], nodeConflict := false
    gridsAbove := [], gridsBelow := [], joinMd := none, tags := [], pitches := [], samples := [], exchange := [], importKeys := []
    viewOffsets := [] }) c

def gangConfigure (_ : Env) (j : Job) (c : Chip) : Reply :=
  let p := j.payload
  let action := rd p 23 1
  let last := rd p 1 1 + 1 == rd p 0 1
  let zone := rd p 4 2
  checked ([lenIs 32 j, inRange p 0 1 1 4, param 1 (decide (rd p 1 1 < max 1 (rd p 0 1))), inRange p 2 1 0 1, param 3 (rd p 3 1 < 16)] ++ (gangSeamFields p).take 1 ++
      [param 6 (rd p 6 2 == 0xFFFF || decide (rd p 6 2 < zone)), param 8 (last || (decide (max 56 (zone + 8) ≤ rd p 8 4) && decide (rd p 8 4 ≤ 264))),
       inRange p 12 4 16000 2000000000] ++ (gangSeamFields p).drop 1 ++
      [inRange p 23 1 0 1, stateRule c (if action = 0 then mode c == 4 else c.gang.state == .island || c.gang.state == .rejoining)]) c
    (reply stOk (if action = 0 then gangConfigured p c
      else scheduleJoin (if rd p 24 8 = 0 then joinPoint c else rd p 24 8) c))

def execGangConfigure (t : Nat) (mb : Fin 8) (s : State) : Host.Outcome State Fault Refusal :=
  .next (s.command 0x0F00 t mb gangConfigure)

def GangState.code : GangState → Nat
  | .notGanged => 0
  | .forming => 1
  | .joined => 2
  | .island => 3
  | .rejoining => 4

/-- State of the gang seam, as in R153. -/
def gangSeamState (c : Chip) : Nat :=
  let s := c.gang.seam
  if !gangAbove c c.perg.next then 0 else if !s.track || ((gangSeam c (settingsOf c) c.perg.next).any fun v => v.zone.isNone) then 1 else if s.held then 3 else 2

def gangStatus (_ : Env) (j : Job) (c : Chip) : Reply :=
  let g := c.gang
  checked [lenIs 0 j] c
    (replyBody (le 1 g.state.code ++ le 1 g.role ++ le 1 g.members ++ le 1 (packBits [g.portUp 0, g.portUp 1, openAbove c c.perg.next || openBelow c c.perg.next, g.nodeConflict]) ++
      le 1 (if g.nodes.isEmpty then c.modes.nodeId else g.leaderNode) ++ le 1 c.modes.nodeId ++ le 1 (gangSeamState c) ++ leS 1 g.seam.dc ++ leS 1 g.seam.dm ++ [0] ++
      le 2 g.seam.confidence ++ le 4 (vget g.latency 0) ++ le 4 (vget g.latency 1) ++ le 4 g.splits ++ le 4 g.framesRetried ++ le 4 g.imports ++
      le 8 g.lastSplitTrigger ++ le 8 g.joinTrigger) c)

def execGangStatus (t : Nat) (mb : Fin 8) (s : State) : Host.Outcome State Fault Refusal :=
  .next (s.command 0x0F01 t mb gangStatus)

end Sys2Proof.Machine
end

