-- ==== Sys2Proof/Machine/Dram.lean ====
section
/-! DEFINITION. The DRAM subsystem of chapter 16: refresh, row disturbance, training, change of speed, scrubbing, temperature. -/
namespace Sys2Proof.Machine

/-- A channel that runs: not failed, and not in self-refresh (R411, R500, R537). DEDUCED: log entry 187. -/
def dramRuns (c : Chip) (k : Nat) : Bool :=
  c.modes.boot == .done && c.modes.base != .standby && !c.modes.thermalHalt && (vget c.dram.ch k).state != 3

/-! ### Refresh and row disturbance (R416, R417, R419, R421) -/

/-- Refreshes owed after a refresh interval (R417, R419): postponed in panic up to four, else all issued; never postponed at the
doubled rate. DEDUCED: log entry 180. -/
def owedAfter (d : DramChannel) (rank : Nat) : Nat :=
  if (d.writerPanic || d.belvederePanic) && !d.doubled then min 4 (vget d.owed rank + 1) else 0

/-- DRAM_REFRESH: a refresh interval of a rank ends, by which DRAM has taken the Belvedere's rows down to a number of bytes.
DEDUCED: log entry 180. -/
def dramRefresh (k rank belvedereLeft : Nat) (c : Chip) : Chip :=
  if !dramRuns c k || (vget c.dram.ch k).ranks ≤ rank then c
  else
    let c := belvedereFill (min belvedereLeft c.dram.belvedereUsed) c
    modCh k (fun d => { d with owed := vset d.owed rank (owedAfter d rank) }) c

def execDramRefresh (t : Nat) (ch : Fin 4) (rank : Fin 2) (belvedereLeft : Nat) (s : State) : Host.Outcome State Fault Refusal :=
  .next (s.run t fun _ c => dramRefresh ch rank belvedereLeft c)

/-- Refresh-management commands that so many activations of a row by one requester have called for (R421): one past 2 048, and one
after each further 512. -/
def rfmDue (n : Nat) : Nat := if n ≤ 2048 then 0 else 1 + (n - 2048) / 512

/-- Activations of a row by a requester in a table. -/
def activationsOf (table : List Activation) (bank row requester : Nat) : Nat :=
  ((table.find? fun a => a.bank == bank && a.row == row).map fun a => a.counts.getD requester 0).getD 0

/-- DRAM_ACTIVATION_LIMIT: the sampled table of a bank, 16 rows, where a requester's activations to a row have passed 2 048, or 512 more
(R421). Only ordinary and background requesters (rows 2 to 5 of the table of R415) are limited, once per bank and window. The spec
does not say which rows the table samples. DESIGN CHOICE: log entry 264. -/
def activationLimit (k bank : Nat) (rows : List (Nat × List Nat)) (c : Chip) : Chip :=
  if !dramRuns c k then c
  else
    let d := vget c.dram.ch k
    let table := (rows.take 16).map fun y => ({ bank, row := y.1, counts := y.2.take 6 } : Activation)
    let due := (table.map fun a => ((List.range 6).map fun q => rfmDue (a.counts.getD q 0) - rfmDue (activationsOf d.activations bank a.row q)).sum).sum
    let limited := (List.range 6).filter fun q => decide (2 ≤ q) && !d.throttled.contains (bank, q) && table.any fun a => decide (0 < rfmDue (a.counts.getD q 0))
    let (n, c) := satAdd 0x0D05 32 k 32 d.rfmIssued due c
    let (m, c) := satAdd 0x0D05 36 k 32 d.throttleEvents limited.length c
    modCh k (fun d => { d with
      rfmIssued := n, throttleEvents := m, activations := (d.activations.filter fun a => a.bank != bank) ++ table
      throttled := d.throttled ++ limited.map fun q => (bank, q) }) c

def execDramActivationLimit (t : Nat) (ch : Fin 4) (bank : Nat) (rows : List (Nat × List Nat)) (s : State) : Host.Outcome State Fault Refusal :=
  .next (s.run t fun _ c => activationLimit ch bank rows c)

/-- DRAM_REFRESH_WINDOW_END: the tables are cleared and limited requesters released (R421). -/
def execDramRefreshWindowEnd (t : Nat) (ch : Fin 4) (s : State) : Host.Outcome State Fault Refusal :=
  .next (s.run t fun _ c => modCh ch (fun d => { d with activations := [], throttled := [] }) c)

/-- Background activities run: not in STANDBY, BOOT, RECOVERY, THERMAL-HALT and LOCKDOWN (R22). -/
def backgroundRuns (c : Chip) : Bool := [4, 5, 6, 7, 8, 9, 10].contains (mode c)

/-- A real-time port of a channel is in panic: patrol scrub, DQS tracking and ZQ calibration yield to it (R22, R416). -/
def panicking (c : Chip) (k : Nat) : Bool := (vget c.dram.ch k).writerPanic || (vget c.dram.ch k).belvederePanic

/-- DRAM_ZQ_CALIBRATION: calibrates output impedances; nothing of it can be read (R424). -/
def execDramZqCalibration (t : Nat) (s : State) : Host.Outcome State Fault Refusal :=
  .next (s.run t fun _ c => c)

/-! ### Training (R422 to R425) -/

/-- The channel runs at its boot speed, whose training set is `fast`. -/
def DramChannel.runsFast (boot : Nat) (d : DramChannel) : Bool := d.speed == boot

/-- A byte lane's result at the running speed. -/
def DramChannel.lane (boot : Nat) (d : DramChannel) (l : Nat) : LaneTraining :=
  if d.runsFast boot then vget d.fast l else vget d.slow l

/-- Changes a byte lane's result at the running speed. -/
def DramChannel.modLane (boot l : Nat) (f : LaneTraining → LaneTraining) (d : DramChannel) : DramChannel :=
  if d.runsFast boot then { d with fast := vmod d.fast l f } else { d with slow := vmod d.slow l f }

/-- The last two runs agree: their centres lie within 3 steps (R422). -/
def runsAgree (new old : Nat × Nat × Nat) : Bool := decide (new.2.2 ≤ old.2.2 + 3) && decide (old.2.2 ≤ new.2.2 + 3)

/-- The more conservative of two runs (R423): the one whose centre lies nearer the middle of the overlap of the two eyes, the
earlier on a tie. Eyes reach half their width from their centre. DEDUCED: log entry 181. -/
def conservativeRun (new old : Nat × Nat × Nat) : Nat × Nat × Nat :=
  let lo (r : Nat × Nat × Nat) : Int := 2 * (r.2.2 : Int) - r.2.1
  let hi (r : Nat × Nat × Nat) : Int := 2 * (r.2.2 : Int) + r.2.1
  let mid := max (lo new) (lo old) + min (hi new) (hi old)
  let away (r : Nat × Nat × Nat) : Nat := (4 * (r.2.2 : Int) - mid).natAbs
  if away new < away old then new else old

/-- A byte lane's result after its runs, newest first, where they decide it: accepted when the last two agree, flagged after the
first two and 3 further runs that do not. DEDUCED: log entry 181. -/
def trainingResult (now : Nat) (temp : Int) (old : LaneTraining) (runs : List (Nat × Nat × Nat)) : Option LaneTraining :=
  match runs with
  | a :: b :: _ =>
    let delta : Int := (a.2.2 : Int) - b.2.2
    if runsAgree a b then
      some {
        eyePs := a.1, eyeSteps := a.2.1, centre := (a.2.2 + b.2.2) / 2, lastDelta := delta, attempts := runs.length - 1
        acceptedAt := now, tempAt := temp }
    else if 5 ≤ runs.length then
      let r := conservativeRun a b
      some { old with
        eyePs := r.1, eyeSteps := r.2.1, centre := r.2.2, lastDelta := delta, attempts := 4, flagged := true, conservative := true }
    else none
  | _ => none

/-- A retrain ends with a result: stored, counted, and raised (R425, R432). DEDUCED: log entry 181. -/
def retrainEnds (k lane cause : Nat) (x : LaneTraining) (c : Chip) : Chip :=
  let d := vget c.dram.ch k
  let (n, c) := satAdd 0x0D05 56 k 32 d.retrains 1 c
  let c := modCh k (fun d => { DramChannel.modLane c.dram.bootSpeed lane (fun _ => x) d with retrains := n }) c
  raise 0x0D08 (if x.flagged then 2 else 1) k
    ([0] ++ le 1 k ++ le 1 cause ++ le 1 lane ++ le 1 (b2n x.flagged) ++ le 2 d.speed ++ le 2 x.eyePs ++ le 2 x.centre) c

/-- DRAM_RETRAIN_STEP: a background run completes on the byte lane in training, or on the first that waits. -/
def retrainStep (k eyePs eyeSteps centre : Nat) (c : Chip) : Chip :=
  if !dramRuns c k then c
  else
    let d := vget c.dram.ch k
    let start : Option (Retrain × List (Nat × Nat)) := match d.training, d.queue with
      | some r, q => some (r, q)
      | none, (l, cause) :: q => some ({ lane := l, cause }, q)
      | none, [] => none
    match start with
    | none => c
    | some (r, queue) =>
      let r := { r with runs := (eyePs, eyeSteps, centre) :: r.runs }
      match trainingResult c.now d.temperature (d.lane c.dram.bootSpeed r.lane) r.runs with
      | none => modCh k (fun d => { d with training := some r, queue }) c
      | some x => retrainEnds k r.lane r.cause x (modCh k (fun d => { d with training := none, queue }) c)

def execDramRetrainStep (t : Nat) (ch : Fin 4) (eyePs eyeSteps centre : Nat) (s : State) : Host.Outcome State Fault Refusal :=
  .next (s.run t fun _ c => retrainStep ch eyePs eyeSteps centre c)

/-- One tracking measurement of a byte lane (R424): the centre moves one step where two in succession agree. -/
def LaneTraining.track (dir : Int) (x : LaneTraining) : LaneTraining :=
  let step : Int := if dir ≠ 0 ∧ dir = x.lastDirection then dir else 0
  { x with centre := ((x.centre : Int) + step).toNat, moved := x.moved + step, lastDirection := dir }

/-- DRAM_DQS_TRACKING: every byte lane of a channel; one that has moved 8 steps asks for a retrain (R425). -/
def dqsTracking (k : Nat) (directions : List Int) (c : Chip) : Chip :=
  if !backgroundRuns c || !dramRuns c k || panicking c k then c
  else
    let boot := c.dram.bootSpeed
    let one (d : DramChannel) (x : Int × Nat) : DramChannel :=
      let d := DramChannel.modLane boot x.2 (LaneTraining.track (if 0 < x.1 then 1 else if x.1 < 0 then -1 else 0)) d
      if 8 ≤ (d.lane boot x.2).moved.natAbs then d.request x.2 2 else d
    modCh k (fun d => ((directions.take 10).zip (List.range 10)).foldl one d) c

def execDramDqsTracking (t : Nat) (ch : Fin 4) (directions : List Int) (s : State) : Host.Outcome State Fault Refusal :=
  .next (s.run t fun _ c => dqsTracking ch directions c)

/-! ### Change of speed (R426, R427) -/

/-- Channels that can switch, in order. -/
def switchOrder (c : Chip) : List Nat := (List.range 4).filter fun k => (vget c.dram.ch k).state != 3

/-- Starts a switch to a speed, where some channel runs at another. -/
def startSwitch (v : Nat) (c : Chip) : Chip :=
  if (switchOrder c).all fun k => (vget c.dram.ch k).speed == v then c
  else modDram (fun d => { d with switching := some (v, switchOrder c) }) c

/-- Thermal enforcement asks for a speed; during a switch to the other speed the request waits (R427). -/
def requestSpeed (v : Nat) (c : Chip) : Chip :=
  match c.dram.switching with
  | none => startSwitch v c
  | some (w, _) => modDram (fun d => { d with pendingSpeed := if w = v then none else some v }) c

/-- The speed that the enforced level asks for (R426). -/
def levelSpeed (c : Chip) : Nat := if 2 ≤ c.health.level then 4800 else c.dram.bootSpeed

/-- DRAM_SPEED_SWITCH: the channel whose turn it is switches; a training run under way is discarded and every byte lane retrains
at the new speed. After the last channel, a request that waited starts its own switch. -/
def speedSwitch (k : Nat) (c : Chip) : Chip :=
  match c.dram.switching with
  | some (v, h :: rest) =>
    if h ≠ k then c
    else
      let c := modCh k (fun d => { d with speed := v, training := none, queue := (List.range 10).map fun l => (l, 3) }) c
      if rest.isEmpty then
        let c' := modDram (fun d => { d with switching := none, pendingSpeed := none }) c
        match c.dram.pendingSpeed with
        | some w => startSwitch w c'
        | none => c'
      else modDram (fun d => { d with switching := some (v, rest) }) c
  | _ => c

def execDramSpeedSwitch (t : Nat) (ch : Fin 4) (s : State) : Host.Outcome State Fault Refusal :=
  .next (s.run t fun _ c => speedSwitch ch c)

/-! ### Corrections, scrubbing and retirement (R425, R429, R431) -/

/-- The ring loses an extent without a spare: later extents move up by one in ring order. DEDUCED: log entry 183. -/
def shrinkRing (e n : Nat) (o : Orangery) : Orangery :=
  let move (l : List Nat) : List Nat := (l.filter (· != e)).map fun x => if e < x then x - 1 else x
  { o with
    blocks := o.blocks.map fun b => { b with extents := move b.extents }
    pins := o.pins.map fun p => { p with extents := move p.extents }
    extent := if o.extent = e then (o.extent + n - 2) % (n - 1) else if e < o.extent then o.extent - 1 else o.extent
    used := if o.extent = e then extentBytes else o.used }

/-- A ring extent is retired (R431): a spare takes its place, or the ring shrinks by one. What it held is gone. DEDUCED: log entry 183. -/
def retireExtent (k device e : Nat) (c : Chip) : Chip :=
  let n := ringExtents c
  if n ≤ e then c
  else
    let spare := decide (0 < c.dram.spareExtents)
    let (m, c) := satAdd 0x0D03 82 0 16 c.life.totals.retiredExtents 1 c
    let c := { c with
      dram := { c.dram with spareExtents := c.dram.spareExtents - 1, retired := c.dram.retired ++ [e] }
      life := { c.life with totals := { c.life.totals with retiredExtents := m } } }
    let c := modOrangery (fun o => let o := overwriteExtent e o
      if spare ∨ n ≤ 1 then o else shrinkRing e n o) c
    checkpoint (dramLog k 2 device 5 e c)

/-- DRAM_PATROL_SCRUB (R22): the reads with errors since its last row (R429 to R431). -/
def patrolScrub (k : Nat) (errors : List ReadError) (extent : Option Nat) (rewritten : Bool) (permille : Nat) (c : Chip) : Chip :=
  if !backgroundRuns c || !dramRuns c k || panicking c k then c
  else
    let c := errors.foldl (fun c e => takeRead true (extent.getD 0xFFFF) { e with ch := Fin.ofNat 4 k } c) c
    let c := modCh k (fun d => { d with scrubPermille := min 1000 permille }) c
    match extent with
    | some x => if rewritten && errors.any readFails then retireExtent k 0xFF x c else c
    | none => c

def execDramPatrolScrub (t : Nat) (ch : Fin 4) (errors : List ReadError) (extent : Option Nat) (rewritten : Bool) (permille : Nat) (s : State) :
    Host.Outcome State Fault Refusal :=
  .next (s.run t fun _ c => patrolScrub ch errors extent rewritten permille c)

/-! ### Temperature (R418 to R420, R425) -/

/-- One read of a DRAM thermal sensor (R420): 3 bad reads in succession fail it, 3 valid ones recover it. The median and the
substitute of the payload stand for die sensors; the spec gives none here, and no reading where the I3C read fails: free.
DESIGN CHOICE: log entry 184. -/
def sensorRead (k i : Nat) (read : Option Int) (c : Chip) : Chip :=
  let d := vget c.dram.ch k
  let valid := read.filter fun v => decide (-640 ≤ v) && decide (v ≤ 2000)
  let bad := if valid.isSome then 0 else min 3 (vget d.badReads i + 1)
  let good := if valid.isSome then min 3 (vget d.goodReads i + 1) else 0
  let was := bit d.sensorFailed i
  let fails := !was && bad == 3
  let recovers := was && good == 3
  let c := modCh k (fun d => { d with
    badReads := vset d.badReads i bad, goodReads := vset d.goodReads i good
    readings := vset d.readings i (valid.getD (vget d.readings i))
    sensorFailed := setBit d.sensorFailed i ((was || fails) && !recovers) }) c
  if fails || recovers then
    let (last, c) := match read with
      | some v => (leS 2 v, c)
      | none => freeBytes 2 c
    let (rest, c) := freeBytes 4 c
    raise 0x0D04 3 k ([1] ++ le 1 i ++ le 1 k ++ le 1 (b2n fails) ++ last ++ rest ++ [0, 0]) c
  else c

/-- Temperature of a channel (R418, R420): the maximum over its healthy sensors, 90 °C where every sensor has failed. -/
def channelTemperature (d : DramChannel) : Int :=
  match ((List.range d.sensors).filter fun i => !bit d.sensorFailed i).map (vget d.readings) with
  | [] => 1440
  | x :: xs => xs.foldl max x

/-- EV_THERMAL_WARN of a channel at 95 °C. DEDUCED: log entry 185. -/
def dramWarn (k : Nat) (reached : Bool) (c : Chip) : Chip :=
  raiseLimited 0x0D00 2 k (16 + k) ([1] ++ le 1 (b2n reached) ++ le 1 k ++ [0] ++ leS 2 (vget c.dram.ch k).temperature ++
    leS 2 1520 ++ le 4 0) 8 4 true 1 c

/-- The actions of R418 on a channel's new temperature, the catch-up of R419, and the retrains of R425. -/
def dramLevels (k : Nat) (c : Chip) : Chip :=
  let d := vget c.dram.ch k
  let temp := channelTemperature d
  let below82 := if temp < 1312 then min 3 (d.below82 + 1) else 0
  let below92 := if temp < 1472 then min 3 (d.below92 + 1) else 0
  let doubled := decide (1360 ≤ temp) || (d.doubled && below82 != 3)
  let limited := decide (1520 ≤ temp) || (d.limited && below92 != 3)
  let boot := c.dram.bootSpeed
  let c' := modCh k (fun d =>
    let d := { d with
      temperature := temp, below82, below92, doubled, limited
      owed := if doubled && !d.doubled then Vector.replicate 2 0 else d.owed }
    (List.range 10).foldl (fun d l => if d.state ≠ 3 ∧ 160 < (temp - (d.lane boot l).tempAt).natAbs then d.request l 0 else d) d) c
  if limited == d.limited then c' else dramWarn k limited c'

/-- The DRAM part of a housekeeping round: every sensor is read, whatever the state of its channel (R418). -/
def dramRound (reads : List (List (Option Int))) (c : Chip) : Chip :=
  (List.range 4).foldl (fun c k =>
    let rs := (reads.getD k []).take 7
    if rs.isEmpty then c
    else
      let c := modCh k (fun d => { d with sensors := rs.length }) c
      dramLevels k ((rs.zip (List.range 7)).foldl (fun c x => sensorRead k x.2 x.1 c) c)) c

/-! ### Training outside the background: boot and entry to CONFIGURE (R411, R424, R537) -/

/-- The training of a byte lane at boot: its runs, oldest first, one by one until they decide its result (R422, R423); none where they do
not, or it shows no eye. DEDUCED: log entry 181. -/
def bootLane (now : Nat) (temp : Int) : List (Nat × Nat × Nat) → List (Nat × Nat × Nat) → Option LaneTraining
  | _, [] => none
  | seen, r :: runs =>
    match trainingResult now temp {} (r :: seen) with
    | some x => if x.eyePs = 0 then none else some { x with acceptedAt := now, tempAt := temp }
    | none => bootLane now temp (r :: seen) runs

/-- What boot makes of one channel: its configuration and speed, and the results of its byte lanes at 4800 MT/s and at the boot speed. -/
def bootChannel (now : Nat) (speed : Nat) (x : BootDram) (d : DramChannel) : DramChannel :=
  let lane (runs : List (Nat × Nat × Nat)) : LaneTraining := (bootLane now (channelTemperature d) [] runs).getD {}
  { d with
    ranks := x.ranks, densityGb := x.densityGb, speed, state := 0, training := none, queue := []
    slow := vmapIdx (fun l _ => lane (x.slow.getD l [])) d.slow
    fast := vmapIdx (fun l _ => lane ((if speed = 4800 then x.slow else x.fast).getD l [])) d.fast }

/-- The configurations of R410. -/
def supportedDram (x : BootDram) : Bool := [(16, 1), (16, 2), (24, 1), (32, 1)].contains (x.densityGb, x.ranks)

/-- Every lane shows an eye and has a result at both speeds (R423). -/
def eyesOpen (speed : Nat) (x : BootDram) : Bool :=
  (List.range 10).all fun l => (bootLane 0 0 [] (x.slow.getD l [])).isSome && (speed == 4800 || (bootLane 0 0 [] (x.fast.getD l [])).isSome)

/-- The boot of the DRAM (R411): every channel present, like D0 and trained, at the highest speed all allow; else DRAM has failed. -/
def bootDram (xs : List (Option BootDram)) (c : Chip) : Chip :=
  let speeds := xs.filterMap fun x => x.map (·.maxSpeed)
  let speed := if speeds.all fun v => decide (6400 ≤ v) then 6400
    else if speeds.all fun v => decide (5600 ≤ v) then 5600 else 4800
  let first := (xs.getD 0 none).map fun x => (x.densityGb, x.ranks)
  let good (k : Nat) : Bool := match xs.getD k none with
    | some x => supportedDram x && first == some (x.densityGb, x.ranks) && eyesOpen speed x
    | none => false
  let c := (List.range 4).foldl (fun c k => modCh k (fun d =>
    if good k then bootChannel c.now speed ((xs.getD k none).getD default) d else { d with state := 3 }) c) c
  modDram (fun d => { d with bootSpeed := speed, failed := !((List.range 4).all good), switching := none, pendingSpeed := none }) c

/-- The retrain at entry to CONFIGURE from STANDBY (R537): a byte lane's runs, oldest first. R432 has no cause for it: free.
DEDUCED: log entry 181. -/
def entryRetrain (k lane : Nat) (runs : List (Nat × Nat × Nat)) (c : Chip) : Chip :=
  let d := vget c.dram.ch k
  if d.state = 3 then c
  else match trainingResult c.now d.temperature (d.lane c.dram.bootSpeed lane) (runs.reverse.take 5) with
    | none => c
    | some x =>
      let (cause, c) := freeNat c
      retrainEnds k lane (cause % 256) x c

/-! ### DRAM.STATUS -/

/-- State of a channel as section 0 reports it. -/
def channelState (c : Chip) (k : Nat) : Nat :=
  let d := vget c.dram.ch k
  if d.state = 3 then 3
  else if (c.dram.switching.bind fun x => x.2.head?) == some k then 2
  else if d.training.isSome then 1 else 0

/-- GiB of a channel (R410). -/
def DramChannel.gib (d : DramChannel) : Nat := d.ranks * (if d.densityGb = 16 then 32 else if d.densityGb = 24 then 48 else 64)

/-- Section 0; the bandwidths of the last second are free. DESIGN CHOICE: log entry 184. -/
def channelSection (k : Nat) (c : Chip) : List Byte × Chip :=
  let d := vget c.dram.ch k
  let (mbps, c) := freeBytes 8 c
  (le 1 (channelState c k) ++ le 1 d.ranks ++ le 1 d.densityGb ++ le 1 (b2n d.doubled) ++ le 2 d.speed ++ leS 2 d.temperature ++
   le 1 (maxOf d.owed.toList) ++ le 1 (d.sensorFailed % 128 + 128 * b2n d.limited) ++
   le 2 (packBits ((List.range 10).map fun l => (d.lane c.dram.bootSpeed l).flagged)) ++ le 4 d.gib ++
   le 4 d.corrected ++ le 4 d.uncorrected ++ le 8 d.failedDevices ++ le 4 d.rfmIssued ++ le 4 d.throttleEvents ++
   le 4 d.panicWriter ++ le 4 d.panicBelvedere ++ mbps ++ le 4 d.retrains ++ le 2 d.scrubPermille ++ le 2 c.dram.spareExtents, c)

/-- A training entry of section 1. -/
def trainingEntry (now speed lane : Nat) (x : LaneTraining) : List Byte :=
  le 2 speed ++ le 1 lane ++ le 1 (b2n x.flagged + 2 * b2n x.conservative) ++ le 2 x.eyePs ++ le 2 x.eyeSteps ++ le 2 x.centre ++
  leS 2 x.lastDelta ++ le 1 x.attempts ++ [0] ++ le 2 (satU 16 ((now - x.acceptedAt) / 1000000000))

/-- Section 1: the byte lanes at the running speed, then at the other stored speed. -/
def trainingSection (k : Nat) (c : Chip) : List Byte :=
  let d := vget c.dram.ch k
  let fast := (d.fast.toList.zip (List.range 10)).flatMap fun (x : LaneTraining × Nat) => trainingEntry c.now c.dram.bootSpeed x.2 x.1
  let slow := (d.slow.toList.zip (List.range 10)).flatMap fun (x : LaneTraining × Nat) => trainingEntry c.now 4800 x.2 x.1
  if d.runsFast c.dram.bootSpeed then fast ++ slow else slow ++ fast

/-- Section 2: the newest 32 log entries, newest first; places without an entry are zero. -/
def logSection (c : Chip) : List Byte :=
  fit 512 (c.dram.log.flatMap fun e =>
    timeBytes e.timeS e.timeNs ++ le 1 e.channel ++ le 1 e.kind ++ le 1 e.device ++ le 1 e.reader ++ le 2 e.extent)

def dramStatusCmd (_ : Env) (j : Job) (c : Chip) : Reply :=
  let p := j.payload
  checked [lenIs 4 j, param 0 (rd p 1 1 == 2 || decide (rd p 0 1 < 4)), inRange p 1 1 0 2, reserved p 2 2] c
    (if rd p 1 1 = 0 then let (b, c) := channelSection (rd p 0 1) c; replyBody b c
     else if rd p 1 1 = 1 then replyBody (trainingSection (rd p 0 1) c) c
     else replyBody (logSection c) c)

def execDramStatus (t : Nat) (mb : Fin 8) (s : State) : Host.Outcome State Fault Refusal := .next (s.command 0x0D05 t mb dramStatusCmd)

end Sys2Proof.Machine
end

