-- ==== Sys2Proof/Machine/Apply.lean ====
section
/-! DEFINITION. The Ledger's validation, commit and application (R303 to R312), with the pitch and geometry entries (R46 to R50, R56,
R600), and the triggers at which transactions apply: LINE_TRIGGER and FOLLOWER_TRIGGER. -/
namespace Sys2Proof.Machine

/-! ### Pitch and geometry entries -/

/-- A pitch entry takes effect: at once where no grid runs, else the grid changes with the trigger N0 (R46). DEDUCED: log entry 34. -/
def pitchApply (p : List Byte) (c : Chip) : Chip :=
  let t := { c.trig with pitchNum := rd p 0 4, pitchDen := rd p 4 2, pitchSince := true, pitchDue := true }
  { c with trig :=
      if c.trig.anchored ∧ c.trig.gridNum ≠ 0 then { t with rebase := true } else { t with gridNum := t.pitchNum, gridDen := t.pitchDen } }

/-- A pitch entry at commit: R46, R49 and R56 on the device, R49 on every member of the gang; never on a follower (R397). The rules
it shares with other entries are judged where its setting is the one in force after the transaction (R303, R600). -/
def pitchValid (inForce : Bool) (p : List Byte) (c : Chip) : Bool :=
  let far := c.trig.pitchNum != 0 && decide (97 * c.trig.pitchNum ≤ 2 * gangOffset c * c.trig.pitchDen)
  pitchOk (rd p 0 4) (rd p 4 2) && (!inForce || (delaysOk c && !far)) && !(c.gang.formed && c.gang.role == 1)

/-- A geometry entry takes effect at N0: it taints the seams (R128) and resets the model where it moves or widens the grid (R163). -/
def geometryApply (n0 : Nat) (p : List Byte) (c : Chip) : Chip :=
  let old := c.trig.geo
  let new := geometryOf p
  let resets := if new.cdPitch ≠ old.cdPitch ∨ new.column0 ≠ old.column0 then [(n0, 0, true)]
    else if old.columnCount < new.columnCount then [(n0, old.columnCount, false)] else []
  let c := taintSeams (fun _ => true) n0 { c with
    trig := { c.trig with geo := new, geometrySince := true }
    det := { c.det with resets := c.det.resets ++ resets } }
  reportOffsets (taintGang n0 c)

/-- The maps in force of mapped lanes meet R99 on the grid in force. -/
def gridOk (c : Chip) : Bool :=
  (mappedLanes c).all fun l =>
    let b := (vget c.corr l).bank
    b.map.isNone || b.columnsOk l (laneWidth c l) (exportOverlap c) c.trig.geo

/-- A geometry entry at commit (R56, R97, R151, R237); the rules it shares with other entries are judged where its setting is the one
in force after the transaction (R303, R600). DEDUCED: log entry 95. -/
def geometryValid (inForce : Bool) (p : List Byte) (c : Chip) : Bool :=
  geometryOk (geometryOf p) && (!inForce || (delaysOk c && gridOk c && seamsOk (fun _ => true) c && cellsOk c))

/-! ### Application (R309, R310) -/

/-- One entry takes effect at N0: whether it was executed, and the device. -/
def entryApply (n0 : Nat) (x : Tx) (e : Entry) (c : Chip) : Bool × Chip :=
  let p := e.payload
  match e.code with
  | 0x0303 => (true, pitchApply p c)
  | 0x0304 => (true, geometryApply n0 p c)
  | 0x0500 => (true, correctionApply n0 p c)
  | 0x0501 => (true, stitchApply n0 p c)
  | 0x0502 => (true, referenceApply n0 p c)
  | 0x0503 => (true, detectionApply p c)
  | 0x0504 => (true, filtersApply p c)
  | 0x0505 => (true, labellingApply p c)
  | 0x0506 => (true, classifierApply x.id e c)
  | 0x0507 => (true, recurrenceApply p c)
  | 0x0508 => (true, tilesApply p c)
  | 0x0B05 => (true, markApply p c)
  | 0x0B02 => moveApply p c
  | 0x0A05 => pulseApply p c
  | 0x0C01 => (true, auxLoadApply p c)
  | 0x0C02 => (true, auxSwapApply p c)
  | _ => (true, c)

/-- Lanes whose correction a transaction changes. DEDUCED: log entry 127. -/
def correctedLanes (x : Tx) : List Nat := ((x.entries.filter fun e => e.code == 0x0500).map fun e => rd e.payload 1 1).eraseDups

/-- Every entry of a transaction takes effect at N0: how many were not executed, and the device. The banks of the lanes it corrects
swap once; lanes whose line delay changes take it from N0 on (R50); inverse maps are those derived at validation (R97).
DEDUCED: log entries 35, 53 and 127. -/
def txApply (n0 : Nat) (x : Tx) (c : Chip) : Nat × Chip :=
  let (skipped, c') := x.entries.foldl (fun (y : Nat × Chip) e =>
    let (ok, c) := entryApply n0 x e y.2
    (if ok then y.1 else y.1 + 1, c)) (0, c)
  let moved (l : Nat) : Bool := c.trig.pitchNum != 0 && lineDelay c l != lineDelay c' l
  let c' := (correctedLanes x).foldl (fun c l => { c with corr := vmod c.corr l fun y => { y with bankNumber := 1 - y.bankNumber } }) c'
  let c' := { c' with trig := { c'.trig with
    delayFrom := vmapIdx (fun l d => if moved l then some n0 else d) c'.trig.delayFrom, lastApplied := some n0 } }
  (skipped, releaseSeams (raiseFd (deriveMaps x.derived c')))

/-! ### Validation (R303, R305) -/

/-- Sources whose unit an entry of a transaction turns off. DEDUCED: log entry 125. -/
def turnsOff (x : Tx) (source : Nat) : Bool :=
  x.entries.any fun e => e.code == 0x0504 && rd e.payload 1 1 == 0 && source == (if rd e.payload 0 1 = 3 then 8 else 5 + rd e.payload 0 1)

/-- One entry at commit, judged on the device as the whole transaction leaves it. DEDUCED: log entry 125. -/
def entryValid (x : Tx) (i : Nat) (e : Entry) (c : Chip) : Bool :=
  let p := e.payload
  let inForce := inForce x.entries i e
  match e.code with
  | 0x0303 => pitchValid inForce p c
  | 0x0304 => geometryValid inForce p c
  | 0x0500 =>
    let mapSet := x.entries.any fun y => y.code == 0x0500 && rd y.payload 0 1 == 2 && rd y.payload 1 1 == rd p 1 1
    correctionValid inForce mapSet p c &&
      (!inForce || !(rd p 0 1 == 2 || (rd p 0 1 == 0 && !mapSet)) || seamsOk (fun k => k == rd p 1 1 || k + 1 == rd p 1 1) c)
  | 0x0501 => stitchValid inForce p c
  | 0x0502 => referenceValid p c
  | 0x0503 => detectionValid (turnsOff x) p c
  | 0x0504 => filtersValid inForce p c
  | 0x0505 => labellingValid p
  | 0x0506 => classifierValid e
  | 0x0507 => recurrenceValid inForce p c
  | 0x0508 => tilesValid p c
  | 0x0B05 => markValid x.entries p c
  | 0x0B02 => moveValid p c
  | 0x0A05 => pulseValid p c
  | 0x0C01 => auxLoadValid p
  | 0x0C02 => auxSwapValid p c
  | _ => true

/-- The line store a configuration needs, at the detection delay it would run with (R177). -/
def storeNeeded (c : Chip) : Nat := lineStoreTotal c

/-- Index of the first entry that raises the line store, where the transaction passes its size (R177). DEDUCED: log entry 125. -/
def storeBlame (n0 : Nat) (x : Tx) (c : Chip) : Option Nat :=
  let steps := x.entries.foldl (fun (y : Chip × List Nat) e =>
    let c' := (entryApply n0 x e y.1).2
    (c', y.2 ++ [storeNeeded c'])) (c, [storeNeeded c])
  if 8388608 < storeNeeded steps.1 then
    (List.range x.entries.length).find? fun i => decide (steps.2.getD i 0 < steps.2.getD (i + 1) 0)
  else none

/-- The device with every ARMED transaction applied, in order of commit. DEDUCED: log entry 125. -/
def armedChip (c : Chip) : Chip := c.ledger.armed.foldl (fun y x => (txApply c.trig.number x y).2) c

/-- Index and command of the lowest invalid entry of a transaction. DEDUCED: log entry 125. -/
def invalidEntry (x : Tx) (c : Chip) : Option (Nat × Nat) :=
  let before := armedChip c
  let after := (txApply c.trig.number x before).2
  let blame := storeBlame c.trig.number x before
  (((List.range x.entries.length).find? fun i => match x.entries[i]? with
    | some e => !entryValid x i e after || blame == some i
    | none => false)).map fun i => (i, ((x.entries[i]?).map (·.code)).getD 0)

/-! ### Triggers and application -/

/-- The commit point of a transaction is reached by a tag (R304); a late one is reached by any (R307). -/
def Tx.reached (x : Tx) (tag : Tag) : Bool :=
  x.late || x.pointKind == 0 || (x.pointKind == 1 && decide (x.pointMd ≤ tag.md)) ||
  (x.pointKind == 2 && (decide (x.pointS < tag.timeS) || (x.pointS == tag.timeS && decide (x.pointNs ≤ tag.timeNs))))

/-- A transaction applies at N0: its entries, its outcome, and EV_LEDGER_APPLIED; one applied in CONFIGURE leaves the
ledger-applied flag to the tag of its N0 (R311). -/
def txApplied (n0 : Nat) (configure : Bool) (x : Tx) (c : Chip) : Chip :=
  let (skipped, c) := txApply n0 x (keepSettings n0 c)
  let c := if configure then { c with trig := { c.trig with appliedPending := true } } else c
  raise 0x0600 0 0x7F (le 4 x.id ++ le 6 n0 ++ le 1 (b2n x.late + 2 * b2n configure) ++ le 1 (satU 8 skipped))
    (closeTx { x with state := .applied, applied := n0 } c)

/-- The ARMED transactions that apply at a trigger: those reached, none before one committed earlier (R308). -/
def dueTxs (c : Chip) (tag : Tag) : List Tx := c.ledger.armed.takeWhile fun x => Tx.reached x tag

/-- Applies what is due at the trigger just issued; its tag takes the flags of R311 unless it is the leader's (R396).
DEDUCED: log entry 128. -/
def applyDue (own : Bool) (tag : Tag) (c : Chip) : Chip :=
  let xs := dueTxs c tag
  if xs.isEmpty then c
  else
    let flags := 16 + 128 * b2n (xs.any (·.late))
    let c := if own then modNewestTag (fun y => Tag.withFlags y flags) c else c
    xs.foldl (fun c x => txApplied tag.number false x c) c

/-- The pitch that applied at the trigger of a target starts its grid there (R46). DEDUCED: log entry 34. -/
def moveBase (target : Nat) (c : Chip) : Chip :=
  if !c.trig.rebase then c
  else { c with trig := { c.trig with base := target, j := 1, held := [], gridAt := tickNow c, gridNum := c.trig.pitchNum, gridDen := c.trig.pitchDen, rebase := false } }

/-- What every trigger brings with it once its settings stand: the roll samples (R229), and the lines of ports that are down (R71). -/
def afterTrigger (n : Nat) (c : Chip) : Chip := loseDownLines n (sampleRolls n c)

/-- The newest tag goes from the leader to the members of its partition, with the pitch where one applies at it or the members have not been
told it (R396, R397, R405). DEDUCED: log entries 128 and 172. -/
def sendTag (c : Chip) : Chip :=
  if c.gang.formed ∧ (c.gang.role = 0 ∨ c.gang.role = 2) then
    match c.trig.tags.head? with
    | none => c
    | some tag =>
      sendSarec (c.gang.portsFrom c.gang.cfg.position c.gang.members) 0
        (tagMessage tag (if c.trig.pitchDue then some (c.trig.pitchNum, c.trig.pitchDen) else none)) { c with trig := { c.trig with pitchDue := false } }
  else c

/-- The original leader's trigger reaches the join point (R407). -/
def joinDue (c : Chip) (md : Nat) : Bool :=
  c.gang.state == .rejoining && c.gang.leaderAt == some c.gang.cfg.position && (c.gang.joinMd.map fun m => decide (m ≤ md)).getD false

/-- LINE_TRIGGER: the generator issues the trigger that is due (R44, R47, R51). -/
def lineTrigger (c : Chip) : Chip :=
  if !triggerDue c then c
  else
    let target := targetMd c (c.trig.j + skippedTargets c)
    let c := issueTrigger c
    match c.trig.tags.head? with
    | none => c
    | some tag =>
      let c := applyDue true tag c
      let c := moveBase target c
      let c := if joinDue c tag.md then gangJoin tag.number c else c
      afterTrigger tag.number (sendTag c)

def execLineTrigger (t : Nat) (s : State) : Host.Outcome State Fault Refusal :=
  .next (s.run t fun _ c => lineTrigger c)

/-- The shadow grid of the leader's targets on a follower that counts its own encoder (R397): the next target is the first beyond the tag.
DEDUCED: log entry 128. -/
def shadowGrid (first : Bool) (tag : Tag) (pitch : Option (Nat × Nat × Nat)) (c : Chip) : Chip :=
  let c := if first then { c with trig := { c.trig with base := tag.md, j := 1 } } else c
  let at_ := lastTargetAt c tag.md
  match pitch with
  | some (_, n, d) => { c with trig := { c.trig with base := targetMd c at_, j := 1, gridNum := n, gridDen := d } }
  | none => { c with trig := { c.trig with j := max 1 (at_ + 1) } }

/-- A follower aligns its MD with a tag it takes, and with `local_encoder` its shadow grid (R396, R397). DEDUCED: log entry 128. -/
def alignMd (afresh : Bool) (tag : Tag) (pitch : Option (Nat × Nat × Nat)) (c : Chip) : Chip :=
  let first := !c.trig.anchored || afresh || c.trig.gridNum == 0
  let c := { c with trig := { c.trig with
    anchored := true, anchorAt := c.now, countRef := (mainEnc c).count, mdBase := tag.md, mdCount := tag.md, mdPrev := tag.md
    hwm := if first then tag.md else max c.trig.hwm tag.md } }
  let c := match pitch with
    | some (_, n, d) => { c with trig := { c.trig with pitchNum := n, pitchDen := d, rebase := false, pitchSince := true } }
    | none => c
  if c.gang.cfg.localEncoder then shadowGrid first tag pitch c else c

/-- FOLLOWER_TRIGGER: the oldest tag received is issued to this member's cameras as it stands (R396), also on a member that leads its
partition since, or has no leader left (R404). A member that re-joins takes the leader's number with it, and position-suspect where
its own differed (R407). DEDUCED: log entry 128. -/
def followerTrigger (c : Chip) : Chip :=
  match c.gang.tags with
  | [] => c
  | tag :: rest =>
    let joins := c.gang.joinsAt tag
    if !triggering c || !c.gang.formed || !(joins || c.gang.role != 0) then c
    else
      let pitch := c.gang.pitches.find? fun y => y.1 == tag.number
      let c := modGang (fun g => { g with tags := rest, pitches := g.pitches.filter fun y => y.1 != tag.number }) c
      let differs := tag.number != c.trig.number
      let c := renumber tag.number c
      let c := if joins then gangJoin tag.number c else c
      let tag := if joins && differs then Tag.withFlags tag 1 else tag
      let c := { c with trig := { c.trig with leaderTags := (tag.number :: c.trig.leaderTags).take 256 } }
      let before := c
      let c := alignMd joins tag pitch c
      let c := match pitch with
        | some _ => { c with trig := { c.trig with
            delayFrom := vmapIdx (fun l d => if before.trig.pitchNum ≠ 0 ∧ lineDelay before l ≠ lineDelay c l then some tag.number else d) c.trig.delayFrom } }
        | none => c
      let c := match pitch with
        | some _ => { c with older := (keepSettings tag.number before).older }
        | none => c
      let c := sendTrigger tag.number 0 (pushTag tag c)
      afterTrigger tag.number (applyDue false tag c)

def execFollowerTrigger (t : Nat) (s : State) : Host.Outcome State Fault Refusal :=
  .next (s.run t fun _ c => followerTrigger c)

/-! ### LEDGER.COMMIT -/

/-- Response fields of LEDGER.COMMIT. DEDUCED: log entry 126. -/
def commitBody (state reason command index applied : Nat) : List Byte := le 1 state ++ le 1 reason ++ le 2 command ++ le 4 index ++ le 8 applied

/-- Response for a transaction as it stands. DEDUCED: log entry 126. -/
def txBody (x : Tx) : List Byte := commitBody x.state.code x.rejectReason x.entryCommand x.entryIndex x.applied

/-- Replaces an OPEN transaction's state by ARMED. -/
def armTx (x : Tx) (c : Chip) : Chip :=
  { c with ledger := { c.ledger with opened := c.ledger.opened.filter (·.id != x.id), armed := c.ledger.armed ++ [{ x with state := .armed }] } }

/-- A time still lies ahead of the Sundial, as it stands after any step (R367). -/
def ahead (c : Chip) (s ns : Nat) : Bool :=
  let (s0, ns0) := clock c
  decide (s0 < s) || (s0 == s && decide (ns0 < ns))

/-- The commit of an OPEN transaction at a point (R305 to R307): validation, then application in CONFIGURE, or arming.
DEDUCED: log entry 126. -/
def commitTx (x : Tx) (kind md s ns : Nat) (c : Chip) : Reply :=
  let (derived, c) := (c.fresh, { c with fresh := c.fresh + 1 })
  let x := { x with derived, pointKind := kind, pointMd := md, pointS := s, pointNs := ns, late := false, rejectReason := 0, entryIndex := 0xFFFFFFFF, entryCommand := 0 }
  match invalidEntry x c with
  | some (i, code) =>
    let y := { x with state := .rejected, rejectReason := 1, entryIndex := i, entryCommand := code }
    { status := stBadParam, detail := 0xFFFF, body := txBody y, chip := ledgerRejected x.id 0 i code (closeTx y c) }
  | none =>
    if mode c = 4 then
      let n0 := c.trig.number
      replyBody (commitBody 2 0 0 0xFFFFFFFF n0) (txApplied n0 true x c)
    else
      let late := kind != 0 && ((c.trig.tags.head?).map (Tx.reached x)).getD false && (kind != 2 || !ahead c s ns)
      if late && x.rejectLate then
        let y := { x with pointKind := 0xFF, pointMd := 0, rejectReason := 2 }
        { status := stLate, body := txBody y, chip := ledgerRejected x.id 1 0xFFFFFFFF 0 (modTx x.id (fun _ => y) c) }
      else
        let c := armTx { x with late } c
        let c := if late then raise 0x0601 2 0x7F (le 4 x.id ++ le 6 c.trig.number ++ le 1 kind ++ [0]) c else c
        replyBody (commitBody 1 0 0 0xFFFFFFFF 0) c

/-- A malformed commit is answered with state OPEN. -/
def withOpenBody (r : Reply) : Reply := if r.status = stBadParam ∧ r.body = [] then { r with body := commitBody 0 0 0 0xFFFFFFFF 0 } else r

def ledgerCommit (_ : Env) (j : Job) (c : Chip) : Reply :=
  let p := j.payload
  let id := rd p 0 4
  let kind := rd p 4 1
  withOpenBody (checked
    [lenIs 32 j, inRange p 4 1 0 2, reserved p 5 3, param 8 (kind == 1 || rd p 8 8 == 0), param 16 (kind == 2 || rd p 16 6 == 0),
     param 22 (if kind = 2 then rd p 22 4 < 1000000000 else rd p 22 4 == 0), reserved p 26 6, param 4 (mode c != 4 || kind == 0),
     stateRule c (ledgerModes c), ownRule stNotFound (id != 0 && (findTx c id).isSome)] c
    (match openTx c id with
     | some x => commitTx x kind (rd p 8 8) (rd p 16 6) (rd p 22 4) c
     | none => { status := stBadState, detail := mode c, body := ((findTx c id).map txBody).getD [], chip := c }))

def execLedgerCommit (t : Nat) (mb : Fin 8) (error : Option ReadError) (s : State) : Host.Outcome State Fault Refusal :=
  .next (s.command 0x0601 t mb (withArea error ledgerCommit))

end Sys2Proof.Machine
end

