-- ==== Sys2Proof/Machine/Modes.lean ====
section
/-! DEFINITION. The mode machine (R531 to R538): requested transitions, entry and exit of the triggering modes, LOCKDOWN and
THERMAL-HALT, SYS.SET_MODE and SYS.GET_MODE. -/
namespace Sys2Proof.Machine

/-- Changes the mode machine. -/
def modModes (f : Modes → Modes) (c : Chip) : Chip := { c with modes := f c.modes }

/-! ### Conditions of a request (R533, R534) -/

/-- The base mode a requestable code names (R479). -/
def baseOf (code : Nat) : Option Base := [Base.standby, .configure, .calibrate, .inspect, .relay].find? fun b => b.code == code

/-- A base mode in which triggers run. -/
def Base.triggers : Base → Bool
  | .standby => false
  | .configure => false
  | .calibrate => true
  | .inspect => true
  | .relay => true

/-- The table of R533. -/
def transition : Base → Base → Bool
  | .standby, b => b == .configure
  | .configure, b => b != .configure
  | .calibrate, b => b == .standby || b == .configure || b == .inspect
  | .inspect, b => b == .standby || b == .configure || b == .relay
  | .relay, b => b == .standby || b == .configure || b == .inspect

/-- Every mapped port is READY or STREAMING. -/
def portsReady (c : Chip) : Bool :=
  (mappedLanes c).all fun l => match (vget c.lane l).port with
    | some p => [PortState.ready, .streaming].contains (vget c.port p).state
    | none => true

/-- The forward maps in force meet R96, R97 and R99; a lane without one yet produces no columns. DEDUCED: log entry 190. -/
def mapsReady (c : Chip) : Bool :=
  (mappedLanes c).all fun l =>
    let b := (vget c.corr l).bank
    b.mapOk (laneWidth c l) && b.columnsOk l (laneWidth c l) (exportOverlap c) c.trig.geo

/-- The conditions of R534 at an entry from CONFIGURE. -/
def triggersReady (c : Chip) : Bool :=
  laneMapped c 0 && portsReady c && c.trig.configuredSince && c.trig.pitchSince && c.trig.geometrySince && !c.dram.failed &&
  (mainEnc c).configured && delaysOk c && mapsReady c

/-- The check of R534 derives the inverse maps of the mapped lanes, and judges those (R97). DEDUCED: log entry 190. -/
def checkMaps (c : Chip) : Chip := releaseSeams (deriveMaps c.fresh { c with fresh := c.fresh + 1 })

/-- A request for a base mode other than the present one is allowed. DEDUCED: log entry 190. -/
def modeAllowed (c : Chip) (target : Base) : Bool :=
  transition c.modes.base target &&
  (!target.triggers || (if c.modes.base = .configure then triggersReady c else portsReady c))

/-! ### Parts of entry and exit -/

/-- A port powers down (R537): PWR_EN is deasserted and a discovery under way fails. A port turned around keeps its state.
DESIGN CHOICE: log entry 46. -/
def portOff (n : Nat) (c : Chip) : Chip :=
  let x := vget c.port n
  let c := modPort n (fun x => { x.idleLinks with
    state := if x.state = .device then .device else .off, power := false, discovery := none, relocked := false, outstanding := [] }) c
  match x.discovery with
  | some d => respond d.mb stHwFault 0 (discoverBody (vget c.port n) 0 0) c
  | none => c

/-- Every camera port powers down. DESIGN CHOICE: log entry 46. -/
def portsOff (c : Chip) : Chip := (List.range 16).foldl (fun c n => portOff n c) c

/-- The mapped ports change from one state to another. -/
def mappedPorts (old new : PortState) (c : Chip) : Chip :=
  (mappedLanes c).foldl (fun c l => match (vget c.lane l).port with
    | some p => modPort p (fun x => if x.state = old then { x with state := new } else x) c
    | none => c) c

/-- The running calibrations end with verdict bit 11 (R536). -/
def endCalibration (c : Chip) : Chip := calLinksStop (calAuxStop (calStop c))

/-- The measurement windows under way are spoilt by the change of mode (R128). DESIGN CHOICE: log entry 62. -/
def spoilSeams (c : Chip) : Chip :=
  (List.range 16).foldl (fun c k => modSeam k (fun s => { s with taints := c.trig.number :: s.taints }) c) c

/-- What starts anew at an entry to CALIBRATE or INSPECT: lines before it enter as z = 0 (R167), Fd is F after CONFIGURE and after RELAY
(R176, R535), and the windows of the streak detector count from the entry (R169, R535). DEDUCED: log entry 75. -/
def startDet (old : Base) (c : Chip) : Chip :=
  let c := evaluateStreaks c
  let blank (r : DetRow) : DetRow := { r with z := r.z.map fun _ => 0, compared := r.compared.map fun _ => false, raw := r.raw.map fun _ => 0 }
  { c with det := { c.det with
      rows := if old = .calibrate then c.det.rows.map blank else [], fd := if old = .calibrate then c.det.fd else filterDelay c
      runA := 0, runB := 0 } }

/-- The masks owed of lines that DET has received are given and labelled, and the open blobs close as partial (R189).
DEDUCED: log entry 75. -/
def flushMasks (c : Chip) : Chip :=
  let c := (List.range c.det.rows.length).foldl (fun c _ => match lastMasks c with
    | some m => deliverMask m c
    | none => c) c
  let c := c.det.out.foldl (fun c m => labelMask (settingsAt c m.line.tag.number) m c) c
  let c := { c with det := { c.det with out := [] } }
  pruneOlder (closeAllBlobs c)

/-- Entry to a triggering mode (R534 to R536). -/
def enterTriggering (target : Base) (c : Chip) : Chip :=
  let old := c.modes.base
  let c := endHoming c
  let c := if old = .calibrate then endCalibration c else c
  let c := if old = .inspect then flushMasks (spoilSeams (endMarking c)) else c
  let c := mappedPorts .ready .streaming c
  let c := if old = .configure then passTargets (if c.trig.anchored then c else anchorMd c) else c
  let c := match target with
    | .calibrate => startDet old c
    | .inspect => startDet old c
    | .standby | .configure | .relay => c
  let c := modModes (fun m => { m with base := target }) c
  if target = .inspect ∧ old ≠ .relay then rotundaEnter c else c

/-- Entry to STANDBY (R537, R306). -/
def enterStandby (c : Chip) : Chip :=
  modModes (fun m => { m with base := .standby }) (gangDown (portsOff (abortOpen (abortArmed (endHoming c)))))

/-- Entry to CONFIGURE from STANDBY, once the engines and the DRAM have been tested (R173, R534, R537). -/
def enterConfigure (failed : Nat) (runs : List (Nat × Nat × List (Nat × Nat × Nat))) (c : Chip) : Chip :=
  let c := endHoming c
  let c := runs.foldl (fun c x => entryRetrain x.1 x.2.1 x.2.2 c) (bindEngines failed c)
  let plane (k : Nat) : Plane := if k < 4 then { source := k + 1 } else {}
  let c := { c with
    det := { c.det with bands := [], planes := vmapIdx (fun k _ => plane k) c.det.planes }
    trig := { c.trig with configuredSince := false, pitchSince := false, geometrySince := false } }
  auxStart (modModes (fun m => { m with base := .configure }) c)

/-- The first step of leaving a triggering mode for CONFIGURE or STANDBY (R536): triggering stops, and with it marking, the ARMED
transactions, a calibration and the shadow period (R136). -/
def startDrain (target : Base) (mb : Nat) (c : Chip) : Chip :=
  let c := modModes (fun m => { m with change := .drain target mb }) c
  endCalibration (abortArmed (endHoming (endMarking (interruptShadow c))))

/-- Every triggered line has been completed as far as the mode runs its stages (R536). DEDUCED: log entry 192. -/
def drained (c : Chip) : Bool :=
  (mappedLanes c).all (fun l => match (vget c.lane l).port with
    | some p => (vget c.port p).outstanding.isEmpty
    | none => true) &&
  c.perg.next == c.trig.number && c.perg.out.isEmpty && (c.modes.base == .relay || (lastMasks c).isNone) && c.det.out.isEmpty

/-- The history lines still in staging are written (R536, R247). DEDUCED: log entry 192. -/
def writeStaged (c : Chip) : Chip :=
  let c := flushBlocks c
  (List.range c.orangery.staging.length).foldl (fun c _ => blockWrite true c) c

/-- SYS.SET_MODE answers (R479). -/
def modeBody (c : Chip) : List Byte := le 1 (mode c) ++ le 1 c.modes.previous ++ [0, 0] ++ le 4 (conditions c)

/-- The change of base mode under way ends in the mode it asked for. -/
def changeDone (mb : Nat) (c : Chip) : Chip :=
  let c := reportMode (modModes (fun m => { m with change := .none }) c)
  respond mb stOk 0 (modeBody c) c

/-- A change of base mode under way ends because the device has left the base modes. DEDUCED: log entry 191. -/
def changeFails (c : Chip) : Chip :=
  let fail (mb : Nat) : Chip := respond mb stBadState (mode c) [] (modModes (fun m => { m with change := .none }) c)
  match c.modes.change with
  | .none => c
  | .selfTest mb => fail mb
  | .drain _ mb => fail mb

/-! ### THERMAL-HALT and LOCKDOWN (R500, R527, R538) -/

/-- ALARM_N is asserted (R500, R504, R527, R546). -/
def alarm (c : Chip) : Bool := c.modes.thermalHalt || c.modes.lockdown || c.modes.lodgeFailed || c.supply.unstable

/-- What THERMAL-HALT and LOCKDOWN stop alike: triggers, and with them the open blobs (R189) and the shadow period (R136), marks, axes,
pulse outputs, ARMED transactions, calibrations, cameras, Sarec and Ethernet. DESIGN CHOICE: log entry 46. -/
def stopWork (c : Chip) : Chip :=
  let c := if c.modes.base = .inspect then closeAllBlobs c else c
  let c := pulsesOff (disableAxes (endMarking (interruptShadow c)))
  let c := gangDown (portsOff (endCalibration (abortArmed c)))
  ethLink 1 false (ethLink 0 false c)

/-- A cause entry of the life record, kind 4: the first part of the totals (R508). DESIGN CHOICE: log entry 193. -/
def causeEntry (c : Chip) : Chip := journalAdd 4 0 (sliceB (totalsBytes c) 0 42) c

/-- Entry to THERMAL-HALT (R500): it is latched. DEDUCED: log entry 191. -/
def enterHalt (c : Chip) : Chip :=
  if c.modes.thermalHalt then c
  else
    let c := causeEntry (stopWork (modModes (fun m => { m with thermalHalt := true }) c))
    changeFails (reportMode c)

/-- The LOCKDOWN latch takes effect (R526, R527): at once, except in THERMAL-HALT and on the boot timeline. Every DMA channel halts
(R451). DEDUCED: log entry 191. -/
def enterLockdown (c : Chip) : Chip :=
  if c.modes.thermalHalt || c.modes.lockdown || !(c.modes.boot == .done || c.modes.boot == .recovery) then c
  else
    let c := endSessions (stopWork (modModes (fun m => { m with lockdown := true }) c))
    let halt (d : Dma) : Dma := if d.state = .active ∨ d.state = .owned then { d with state := .halted } else d
    changeFails (reportMode { c with pcie := { c.pcie with dma := vmapIdx (fun _ d => halt d) c.pcie.dma } })

/-! ### Rows -/

/-- SYS.SET_MODE (R533 to R537). DEDUCED: log entry 190. -/
def setMode (env : Env) (j : Job) (c : Chip) : Reply :=
  let old := c.modes.base
  match baseOf (rd j.payload 0 1) with
  | none => checked [lenIs 4 j, param 0 false] c (reply stOk c)
  | some b =>
    checked [lenIs 4 j, reserved j.payload 1 3] c
     (let c := if old = .configure ∧ b.triggers then checkMaps c else c
      checked
      [stateRule c (b == old || modeAllowed c b), ownRule stBusy (c.modes.change == .none),
       ⟨!(b == .configure && old == .standby && c.dram.failed), stHwFault, 1, 8⟩] c
      (if b = old then replyBody (modeBody c) c
       else if old = .standby then replyLater (modModes (fun m => { m with change := .selfTest env.mb }) c)
       else if old.triggers && !b.triggers then replyLater (startDrain b env.mb c)
       else
         let c := reportMode (if b = .standby then enterStandby c else enterTriggering b c)
         replyBody (modeBody c) c))

def execSysSetMode (t : Nat) (mb : Fin 8) (s : State) : Host.Outcome State Fault Refusal :=
  .next (s.command 0x0102 t mb setMode)

/-- CONFIGURE_SELF_TEST_DONE: `failed` has a bit per engine, `runs` the training runs of each byte lane (R537). -/
def selfTestEnds (failed : Nat) (runs : List (Nat × Nat × List (Nat × Nat × Nat))) (c : Chip) : Chip :=
  match c.modes.change with
  | .selfTest mb => changeDone mb (enterConfigure failed runs c)
  | .none => c
  | .drain _ _ => c

def execConfigureSelfTestDone (t : Nat) (failed : Nat) (runs : List (Nat × Nat × List (Nat × Nat × Nat))) (s : State) :
    Host.Outcome State Fault Refusal :=
  .next (s.run t fun _ c => selfTestEnds failed runs c)

/-- A port whose links have locked again without a complete line since returns to READY in a mode without triggers (R73).
DEDUCED: log entry 192. -/
def relockedReady (c : Chip) : Chip :=
  (List.range 16).foldl (fun c n =>
    if (vget c.port n).relocked then linkUp n c.trig.number (modPort n (fun x => { x with state := .ready, relocked := false }) c) else c) c

/-- MODE_EXIT_DRAIN_COMPLETE: steps 3 and 4 of R536, and the new mode is entered. DEDUCED: log entry 192. -/
def drainEnds (c : Chip) : Chip :=
  match c.modes.change with
  | .drain target mb =>
    if !drained c then c
    else
      let c := writeStaged (closeAllBlobs (if c.modes.base = .relay then c else spoilSeams c))
      let c := abortArmed (mappedPorts .streaming .ready c)
      changeDone mb (if target = .standby then enterStandby c else modModes (fun m => { m with base := target }) (relockedReady c))
  | .none => c
  | .selfTest _ => c

def execModeExitDrainComplete (t : Nat) (s : State) : Host.Outcome State Fault Refusal := .next (s.run t fun _ c => drainEnds c)

/-- MODE_CONDITION_REPORT (R532): Borusk firmware reports, once boot has ended. -/
def execModeConditionReport (t : Nat) (s : State) : Host.Outcome State Fault Refusal :=
  .next (s.run t fun _ c => if c.modes.boot = .done ∧ firmwareRuns c then reportMode c else c)

/-- SYS.GET_MODE. -/
def getMode (_ : Env) (j : Job) (c : Chip) : Reply :=
  checked [lenIs 0 j] c
    (replyBody (le 1 (mode c) ++ le 1 c.health.level ++ [0, 0] ++ le 4 (conditions c) ++ le 4 (satU 32 ((c.now - c.modes.since) / 1000000)) ++
      le 1 c.modes.previous ++ [0, 0, 0]) c)

def execSysGetMode (t : Nat) (mb : Fin 8) (s : State) : Host.Outcome State Fault Refusal :=
  .next (s.command 0x0103 t mb getMode)

end Sys2Proof.Machine
end

