-- ==== Sys2Proof/Machine/Lodge.lean ====
section
/-! DEFINITION. The Lodge: lockstep recovery (R545, R546), firmware banks, staging and activation (R481 to R483, R515 to
R517). -/
namespace Sys2Proof.Machine

/-- Changes the firmware banks. -/
def modFw (f : Firmware → Firmware) (c : Chip) : Chip := { c with fw := f c.fw }

/-- The active bank (R516): the one that the copy of the boot record with the higher sequence names, of those whose CRC holds. -/
def Firmware.bootBank (f : Firmware) : Nat :=
  let a := vget f.record 0
  let b := vget f.record 1
  if b.sound && (!a.sound || decide (a.sequence < b.sequence)) then b.bank else a.bank

/-- The boot record is written, twice: each copy with the sequence after the highest (R516). -/
def Firmware.writeRecord (bank : Nat) (f : Firmware) : Firmware :=
  let n := max (vget f.record 0).sequence (vget f.record 1).sequence + 1
  { f with record := Vector.replicate 2 { sequence := n, bank } }

/-- The fused anti-rollback step. -/
def rollbackStep (c : Chip) : Nat := (vget c.sec.fuses 3).fused

/-- EV_FW_READY (R483): the bank running and a result. -/
def fwReady (result : Nat) (c : Chip) : Chip :=
  let b := c.fw.running
  raise 0x0101 1 0x7F (le 1 b ++ le 1 result ++ [0, 0] ++ le 4 (vget c.fw.version b) ++ le 4 (rollbackStep c)) c

/-- The mailboxes with a command in progress. -/
def busyMailboxes (c : Chip) : List Nat := (List.range 8).filter fun mb => (vget c.mbx.mb mb).job.isSome

/-! ### Lockstep recovery -/

/-- A core mismatch or a watchdog expiry (R545): both cores halt. The fourth within 60 s asks for a fresh load of the running bank, as
an activation does: commands in progress are answered ST_HW_FAULT and sessions end (R546). DESIGN CHOICE: log entry 194. -/
def lockstepStarts (c : Chip) : Chip :=
  if !firmwareRuns c || c.modes.boot != .done then c
  else
    let c := modModes (fun m => { m with shownMode := mode c, shownConditions := conditions c }) c
    let recent := c.now :: c.modes.recoveries.filter fun t => decide (c.now < t + 60000000000)
    let c := modModes (fun m => { m with recoveries := recent }) c
    if recent.length < 4 then modModes (fun m => { m with notReady := .lockstep c.now }) c
    else
      let c := (busyMailboxes c).foldl (fun c mb => respond mb stHwFault 4 [] c) c
      let c := endSessions (dropAnswers { c with mbx := { c.mbx with mb := vmapIdx (fun _ m => { m with orphan := none }) c.mbx.mb } })
      modModes (fun m => { m with notReady := .activation c.now, recoveries := [] }) (modFw (fun f => { f with activating := none }) c)

/-- What waited for the Lodge goes on, now that it is back: answers, PTP servo updates and firmware's own events (R25).
DESIGN CHOICE: log entry 194. -/
def lodgeBack (c : Chip) : Chip :=
  let waiting := c.time.servo.waiting
  raiseWaiting (waiting.foldl (fun c o => takeOffset o c) (servoCatchUp (modServo (fun x => { x with waiting := [] }) (respondWaiting c))))

/-- The cores run again from the last checkpoint: EV_LODGE_RECOVERED with the duration in µs, the commands run again and the recoveries
since boot (R545, R514). DESIGN CHOICE: log entry 194. -/
def lockstepEnds (c : Chip) : Chip :=
  match c.modes.notReady with
  | .lockstep start =>
    let n := satU 32 (c.modes.recoveryCount + 1)
    let c := lodgeBack (modModes (fun m => { m with notReady := .no, recoveryCount := n }) c)
    raise 0x0D0A 2 0x7F (le 4 (satU 32 ((c.now - start) / 1000)) ++ le 1 (busyMailboxes c).length ++ [0, 0, 0] ++ le 4 n) c
  | .no | .boot _ | .activationPending | .activation _ => c

/-- LOCKSTEP_RECOVERY. -/
def execLockstepRecovery (t : Nat) (ended : Bool) (s : State) : Host.Outcome State Fault Refusal :=
  .next (s.run t fun _ c => if ended then lockstepEnds c else lockstepStarts c)

/-- LODGE_CHECKPOINT (R545). -/
def execLodgeCheckpoint (t : Nat) (s : State) : Host.Outcome State Fault Refusal :=
  .next (s.run t fun _ c => if firmwareRuns c then modModes (fun m => { m with checkpointAt := c.now }) c else c)

/-! ### Images (R515) -/

/-- The security version of an image. -/
def imageSecurity (x : List Byte) : Nat := rd x 8 4

/-- The header, the root key and the signature of an image hold (R515, the rollback condition apart). -/
def imageSigned (x : List Byte) : Bool :=
  let key := sliceB x 16 96
  x.take 4 == ascii "BRSK" && decide (256 ≤ x.length) && rd x 12 4 == x.length - 256 && decide (imageSecurity x ≤ 96) &&
  Config.sha384 key == Config.rootHash && Config.ecdsaVerify key (Config.sha384 (x.take 160 ++ x.drop 256)) (sliceB x 160 96)

/-! ### Staging (R481) -/

/-- The response of SYS.FW_STAGE. -/
def stageBody (staged bank version security : Nat) : List Byte := le 4 staged ++ le 1 bank ++ [0, 0, 0] ++ le 4 version ++ le 4 security

/-- The bank that is written: the one that is not running. DEDUCED: log entry 195. -/
def stageBank (c : Chip) : Nat := 1 - c.fw.running

/-- A complete image is verified and written, and its bank becomes valid (R481). DEDUCED: log entry 195. -/
def stageEnds (x : List Byte) (c : Chip) : Reply :=
  let b := stageBank c
  let c := modFw (fun f => { f with stage := none }) c
  if !imageSigned x then { status := stAuthFail, detail := 0, chip := c }
  else if imageSecurity x < rollbackStep c then { status := stAuthFail, detail := 1, chip := c }
  else
    let c := modFw (fun f => { f with
      valid := vset f.valid b true, version := vset f.version b (rd x 4 4), security := vset f.security b (imageSecurity x) }) c
    replyBody (stageBody x.length b (rd x 4 4) (imageSecurity x)) c

/-- The bank to be written holds no valid image from the first write on. DEDUCED: log entry 195. -/
def stageWrite (data : List Byte) (c : Chip) : Chip :=
  let b := stageBank c
  emit (.flashWrite (2 + b) data) (modFw (fun f => { f with valid := vset f.valid b false, version := vset f.version b 0 }) c)

def fwStage (env : Env) (j : Job) (c : Chip) : Reply :=
  let p := j.payload
  let chunks := rd p 0 1 == 1
  let first := bit (rd p 1 1) 0
  let last := bit (rd p 1 1) 1
  let n := rd p 2 2
  let total := rd p 8 4
  let held := (c.fw.stage.map fun x => x.data).getD []
  let before := if first then [] else held
  let size := if first then total else (c.fw.stage.map fun x => x.length).getD 0
  let busy := (c.fw.stage.map fun x => x.mb != env.mb % 8).getD false || c.modes.notReady == .activationPending
  let data := sliceB p 16 n
  checked
    ([lenOk (p.length == if chunks then 16 + n else 16), inRange p 0 1 0 1, param 1 (rd p 1 1 < 4), param 2 (!chunks || (1 ≤ n && n ≤ 4000)),
      param 4 (if chunks then true else rd p 4 4 % 32 == 0 && decide (rd p 4 4 + total ≤ 0x10000000)),
      param 8 (if chunks && !first then total == 0 else 1 ≤ total && total ≤ 16777216), reserved p 12 4, ownRule stBusy (!busy)] ++
     (if chunks then [ownParam 4 (rd p 4 4 == before.length && (first || c.fw.stage.isSome)), ownParam 2 (decide (before.length + n ≤ size)),
        crossRule (!last || before.length + n == size)] else [])) c
    (if !chunks then
      (let x := env.bulk.readBytes (rd p 4 4) total
       stageEnds x (stageWrite x c))
     else
      (let c := stageWrite data c
       let x := before ++ data
       if last then stageEnds x c
       else replyBody (stageBody x.length (stageBank c) 0 0) (modFw (fun f => { f with stage := some { mb := env.mb % 8, length := size, data := x } }) c)))

/-- SYS.FW_STAGE: a flash write that a supply hold makes wait has not ended yet (R481). -/
def execSysFwStage (t : Nat) (mb : Fin 8) (s : State) : Host.Outcome State Fault Refusal :=
  .next (s.run t fun s0 c =>
    if c.supply.held then c else runJob (fun j => j.code == 0x0105 && j.rawCode == 0x0105) mb (fun who => fwStage ⟨who, s0.bulk⟩) c)

/-! ### Activation (R482, R517) -/

/-- SYS.FW_ACTIVATE. In RECOVERY it writes the boot record, sessions end and boot goes on (R471, R542). DEDUCED: log entry 196. -/
def fwActivate (_ : Env) (j : Job) (c : Chip) : Reply :=
  let b := rd j.payload 0 1
  checked
    [lenIs 4 j, inRange j.payload 0 1 0 1, reserved j.payload 1 3, ownParam 0 (b != c.fw.running && vget c.fw.valid b), ownRule stBusy c.fw.stage.isNone] c
    (if c.modes.boot = .recovery then
      reply stPending (endSessions (modModes (fun m => { m with boot := .booting, primary := 1 }) (modFw (fun f => { f.writeRecord b with running := b }) c)))
     else
      reply stPending (modModes (fun m => { m with notReady := .activationPending }) (modFw (fun f => { f with activating := some b }) c)))

def execSysFwActivate (t : Nat) (mb : Fin 8) (s : State) : Host.Outcome State Fault Refusal :=
  .next (s.command 0x0106 t mb fwActivate)

/-- The restart begins once no command is being run (R482 steps 2 and 3). DESIGN CHOICE: log entry 194. -/
def restartBegins (c : Chip) : Chip :=
  if c.modes.notReady = .activationPending ∧ !((busyMailboxes c).any fun mb => ((vget c.mbx.mb mb).job.map fun j => !j.waiting).getD false) then
    modModes (fun m => { m with notReady := .activation c.now, shownMode := mode c, shownConditions := conditions c }) c
  else c

/-- Burns the anti-rollback step up to a value, one change per step (R517); a step that does not verify ends it, and the change stays
used (R523). DEDUCED: log entry 196. -/
def burnStep : Nat → Nat → Chip → Chip
  | 0, _, c => c
  | n + 1, target, c =>
    let f := vget c.sec.fuses 3
    if target ≤ f.fused then c
    else
      let good := Config.burnVerifies c.fresh
      let f := { f with used := f.used + 1, fused := f.fused + b2n good, inEffect := f.fused + b2n good }
      let c := { c with fresh := c.fresh + 1, sec := { c.sec with fuses := vset c.sec.fuses 3 f } }
      if good then burnStep n target c else c

/-- After the new image has run: the boot record, the step, and the older image that now fails R515 (R517). DEDUCED: log entry 196. -/
def recordActivation (c : Chip) : Chip :=
  let b := c.fw.running
  let c := modFw (Firmware.writeRecord b) c
  let target := vget c.fw.security b
  if target ≤ rollbackStep c then c
  else
    let c := checkpoint (burnStep 96 target c)
    modFw (fun f => { f with valid := vmapIdx (fun i v => v && decide (rollbackStep c ≤ vget f.security i)) f.valid }) c

/-- The restart ends (R482, R546): on the new image, or on the previous one where it does not verify. The fresh load of R546 that does
not complete leaves the Lodge halted. DESIGN CHOICE: log entry 194. DEDUCED: log entry 196. -/
def restartEnds (ok : Bool) (c : Chip) : Chip :=
  match c.modes.notReady with
  | .activation _ =>
    match c.fw.activating with
    | some b =>
      let c := lodgeBack (endSessions (modModes (fun m => { m with notReady := .no }) (modFw (fun f => { f with activating := none }) c)))
      if ok then recordActivation (fwReady 1 (modFw (fun f => { f with running := b }) c)) else fwReady 2 c
    | none =>
      if ok then fwReady 1 (lodgeBack (modModes (fun m => { m with notReady := .no }) c))
      else modModes (fun m => { m with lodgeFailed := true }) c
  | .no | .boot _ | .activationPending | .lockstep _ => c

/-- FW_ACTIVATION_RESTART. -/
def execFwActivationRestart (t : Nat) (begins ok : Bool) (s : State) : Host.Outcome State Fault Refusal :=
  .next (s.run t fun _ c => if begins then restartBegins c else restartEnds ok c)

end Sys2Proof.Machine
end

