-- ==== Sys2Proof/Machine/Health.lean ====
section
/-! DEFINITION. Housekeeping (R489 to R507): the round, thresholds and throttling, supplies, the SRAM scrub, HEALTH.STATUS,
THERMAL.CONFIGURE and THERMAL.ACK_REQUEST. -/
namespace Sys2Proof.Machine

/-- Changes the housekeeping block. -/
def modHealth (f : Health → Health) (c : Chip) : Chip := { c with health := f c.health }

/-- Changes the supplies and the SRAM record. -/
def modSupply (f : Supply → Supply) (c : Chip) : Chip := { c with supply := f c.supply }

/-- Changes the totals of the life record. -/
def modTotals (f : Totals → Totals) (c : Chip) : Chip := { c with life := { c.life with totals := f c.life.totals } }

/-! ### Sensors, groups and the die temperature (R490 to R493) -/

/-- The groups next to a group (table "Hot-spot groups"). -/
def adjacent (g : Nat) : List Nat :=
  [[1, 2], [0, 3], [0, 3, 4], [1, 2, 5], [2, 5, 6], [3, 4, 7], [4, 7], [5, 6]].getD g []

/-- The sensors of a group. -/
def groupSensors (g : Nat) : List Nat := [3 * g, 3 * g + 1, 3 * g + 2]

/-- The sensors of a group and of those next to it. -/
def nearSensors (g : Nat) : List Nat := (g :: adjacent g).flatMap groupSensors

/-- A conversion within −55 °C to +150 °C (R490). -/
def validReading (x : Int) : Bool := decide (-880 ≤ x) && decide (x ≤ 2400)

/-- A sensor that counts: not failed, and its conversion valid. -/
def Health.counts (h : Health) (s : Nat) : Bool := !vget h.failed s && validReading (vget h.sensors s)

/-- The median a sensor is held against (R491); none where no other sensor counts. DEDUCED: log entry 200. -/
def Health.median (h : Health) (s : Nat) : Option Rat :=
  match ((nearSensors (s / 3)).filter fun o => o != s && h.counts o).map fun o => ((vget h.sensors o : Int) : Rat) with
  | [] => none
  | xs => some (Sys2Proof.Machine.median xs)

/-- The sensor deviates by more than 12 °C, or is invalid, in this round (R491). -/
def Health.deviates (h : Health) (s : Nat) : Bool :=
  !validReading (vget h.sensors s) || match h.median s with
    | some m => decide (192 < ((vget h.sensors s : Int) : Rat) - m) || decide (192 < m - (vget h.sensors s : Int))
    | none => false

/-- Greatest of a list; none where it is empty. -/
def greatest : List Int → Option Int
  | [] => none
  | x :: xs => some (xs.foldl max x)

/-- A group has a failed sensor: its value is the substitute (R492). -/
def Health.substituted (h : Health) (g : Nat) : Bool := (groupSensors g).any (vget h.failed)

/-- Value of a group (R492, R493); the value before where no sensor counts. DEDUCED: log entry 200. -/
def Health.groupValue (h : Health) (g : Nat) : Int :=
  let readings (ss : List Nat) : List Int := (ss.filter h.counts).map (vget h.sensors)
  if h.substituted g then
    let v := ((greatest (readings (nearSensors g))).map (· + 128)).getD (vget h.groups g)
    (vget h.pinned g).elim v (max v)
  else (greatest (readings (groupSensors g))).getD (vget h.groups g)

/-- The hottest group: the first with the die temperature. -/
def Health.hottest (h : Health) : Nat := ((List.range 8).find? fun g => vget h.groups g == h.dieTemp).getD 0

/-- The groups pinned (R493), a bit each. -/
def Health.pinnedBits (h : Health) : Nat := packBits (h.pinned.toList.map Option.isSome)

/-- The failed sensors, a bit each. -/
def Health.failedBits (h : Health) : Nat := packBits h.failed.toList

/-- The round's conversions, the deviating runs, the sensors that fail with it, and the group values. DEDUCED: log entry 200. -/
def Health.convert (h : Health) (die : List Int) : Health :=
  let h := { h with sensors := vmapIdx (fun s v => die.getD s v) h.sensors }
  let runs := vmapIdx (fun s n => if h.deviates s then min 3 (n + 1) else 0) h.badRuns
  let failed := vmapIdx (fun s f => f || vget runs s == 3) h.failed
  let h := { h with badRuns := runs, failed }
  let groups := vmapIdx (fun g _ => h.groupValue g) h.groups
  { h with
    groups, dieTemp := (greatest groups.toList).getD h.dieTemp
    pinned := vmapIdx (fun g p => if p.isNone && decide (2 ≤ ((groupSensors g).filter (vget failed)).length) then some (vget groups g) else p) h.pinned }

/-- EV_TSENSOR_FAIL of a die sensor (R491, R514): `before` is the block before the round. -/
def sensorFailEvent (before : Health) (s : Nat) (c : Chip) : Chip :=
  let h := c.health
  let m : Int := (({ h with failed := before.failed } : Health).median s).elim 0 Rat.floor
  raise 0x0D04 3 s ([0] ++ le 1 s ++ le 1 (s / 3) ++ [1] ++ leS 2 (vget h.sensors s) ++ leS 2 m ++ leS 2 (vget h.groups (s / 3)) ++ [0, 0]) c

/-! ### Thresholds (R494 to R497) -/

/-- A threshold after a round at a die temperature: reached after 3 rounds at or above it, released after 3 below it less 3 °C. -/
def Threshold.round (x : Threshold) (die : Int) : Threshold :=
  if x.reached then
    let n := if die < x.value - 48 then x.below + 1 else 0
    if 3 ≤ n then { x with reached := false, above := 0, below := 0 } else { x with below := n }
  else
    let n := if x.value ≤ die then x.above + 1 else 0
    if 3 ≤ n then { x with reached := true, above := 0, below := 0 } else { x with above := n }

/-- Level 1 is enforced (R497): the latch is set and the request is over. -/
def Health.enforce (h : Health) : Health := { h with level1Latch := true, state := .enforced }

/-- The enforced level (R497). -/
def Health.levelNow (h : Health) : Nat :=
  max (max (b2n h.level1Latch) (if h.level2.reached then 2 else 0)) (max (if h.level3.reached then 3 else 0) h.levelFloor)

/-- A change of the enforced level, with its event (R497, R514) and what R498 starts and stops at once. -/
def changeLevel (cause : Nat) (c : Chip) : Chip :=
  let h := c.health
  let new := h.levelNow
  let old := h.level
  if new = old then c
  else
    let tail := leS 2 h.dieTemp ++ [0, 0] ++ le 4 c.trig.number
    let c := modHealth (fun h => { h with level := new }) c
    let c := if old < new then raise 0x0D02 3 0x7F (le 1 old ++ le 1 new ++ le 1 cause ++ le 1 h.hottest ++ tail) c
      else raise 0x0D03 1 0x7F (le 1 old ++ le 1 new ++ le 1 0 ++ [0] ++ tail) c
    let c := if old = 0 then suspendViews c else if new = 0 then resumeViews c else c
    if decide (2 ≤ old) == decide (2 ≤ new) then c else requestSpeed (levelSpeed c) c

/-- EV_THERMAL_WARN of the die. -/
def warnEvent (c : Chip) : Chip :=
  let h := c.health
  raiseLimited 0x0D00 2 0x7F 0 ([0] ++ le 1 (b2n h.warn.reached) ++ le 1 h.hottest ++ [0] ++ leS 2 h.dieTemp ++ leS 2 h.warn.value ++ le 4 0) 8 4 true 1 c

/-- The request threshold is reached (R495): THROTTLE_REQ_N is asserted and the grace time starts. -/
def requestThrottle (c : Chip) : Chip :=
  let c := modHealth (fun h => { h with
    state := .grace, throttleReq := true, acknowledged := false, extensionUsed := false, graceEnd := c.now + h.graceMs * 1000000 }) c
  let h := c.health
  raiseLimited 0x0D01 3 0x7F 0 (leS 2 h.dieTemp ++ le 1 h.hottest ++ [0] ++ le 4 h.graceMs ++ le 4 0) 8 4 true 1 c

/-- The request threshold is released (R495, R497): the request is withdrawn. DEDUCED: log entry 201. -/
def withdrawRequest (c : Chip) : Chip :=
  let c := modHealth (fun h => { h with state := .none, throttleReq := false, level1Latch := false }) c
  if c.health.level = 0 then
    raise 0x0D03 1 0x7F ([0, 0, 1, 0] ++ leS 2 c.health.dieTemp ++ [0, 0] ++ le 4 c.trig.number) c
  else c

/-- The thresholds at the end of a round. Where the spent grace time leaves a request pending, a die temperature at or above the
request threshold enforces level 1 at once (R495). -/
def thresholds (c : Chip) : Chip :=
  let old := c.health
  let die := old.dieTemp
  let c := modHealth (fun h => { h with
    warn := h.warn.round die, request := h.request.round die, level2 := h.level2.round die, level3 := h.level3.round die
    halt := if h.halt.reached then h.halt else h.halt.round die }) c
  let h := c.health
  let c := if h.warn.reached == old.warn.reached then c else warnEvent c
  let c := if h.request.reached && !old.request.reached then requestThrottle c
    else if !h.request.reached && old.request.reached then withdrawRequest c else c
  let spent := c.health.state == .spent && decide (h.request.value ≤ die)
  let c := if spent then modHealth Health.enforce c else c
  let rises := (h.level2.reached && !old.level2.reached) || (h.level3.reached && !old.level3.reached)
  let c := if rises then modHealth Health.enforce c else c
  let c := changeLevel (if rises then (if h.substituted h.hottest then 2 else 1) else 0) c
  if h.halt.reached && !old.halt.reached then enterHalt c else c

/-- GRACE_TIME_EXPIRY: the first round that completes at or after the end of the grace time has completed (R495). DEDUCED: log entry 201. -/
def graceEnds (c : Chip) : Chip :=
  let h := c.health
  if h.state ≠ .grace ∨ h.roundAt < h.graceEnd then c
  else if h.request.value ≤ h.dieTemp then changeLevel 0 (modHealth Health.enforce c)
  else modHealth (fun h => { h with state := .spent }) c

def execGraceTimeExpiry (t : Nat) (s : State) : Host.Outcome State Fault Refusal := .next (s.run t fun _ c => graceEnds c)

/-! ### What a round adds to the life record (R508, R511) -/

/-- The thermal-cycle tracker after a round. -/
def cycleRound (c : Chip) : Chip :=
  let die := c.health.dieTemp
  let x := c.life
  match x.cyclePeak with
  | none =>
    let low := if c.health.rounds = 0 then die else min x.cycleLow die
    { c with life := { x with cycleLow := low, cyclePeak := if low + 640 ≤ die then some die else none } }
  | some p =>
    if die ≤ p - 640 then
      let (n, c) := satAdd 0x0D03 8 0 32 x.totals.thermalCycles 1 c
      modTotals (fun y => { y with thermalCycles := n }) { c with life := { c.life with cycleLow := die, cyclePeak := none } }
    else { c with life := { x with cyclePeak := some (max p die) } }

/-- Hours of power and seconds at each level, from rounds of 8 ms. DEDUCED: log entry 201. -/
def hoursRound (c : Chip) : Chip :=
  let n := c.health.rounds + 1
  let c := if n % 450000 = 0 then
      (let (v, c) := satAdd 0x0D03 0 0 32 c.life.totals.powerOnHours 1 c
       modTotals (fun y => { y with powerOnHours := v }) c)
    else c
  let l := c.health.level
  if n % 125 = 0 ∧ l ≠ 0 then
    let (v, c) := satAdd 0x0D03 (16 + 4 * (l - 1)) 0 32 (vget c.life.totals.throttleS (l - 1)) 1 c
    modTotals (fun y => { y with throttleS := vset y.throttleS (l - 1) v }) c
  else c

/-- Equivalent seconds of the budget (R511). -/
abbrev agingBudget : Nat := 350640 * 3600

/-- The aging index, thousandths of the budget. -/
def agingPermille (c : Chip) : Nat := satU 32 (c.life.totals.aging * 1000 / (2 ^ 32 * agingBudget))

/-- exp(x), x and the result scaled by 2^64: the series of x/16, then four squarings. -/
def expScaled (x : Int) : Int :=
  let one : Int := 2 ^ 64
  let y := x / 16
  let e := (List.range 24).foldr (fun (k : Nat) a => one + y * a / (one * (k + 1))) one
  let square (a : Int) : Int := a * a / one
  square (square (square (square e)))

/-- 2^32 · 0.008 · exp(8123.5 · (1/358.15 − 1/(tj + 273.15))) for a temperature in 1/16 °C (R511). DESIGN CHOICE: log entry 6. -/
def agingStep (die : Int) : Nat :=
  let x : Rat := 16247 / 2 * (20 / 7163 - 1600 / (100 * die + 437040)) * 2 ^ 64
  (expScaled x.floor * 8 / (1000 * 2 ^ 32)).toNat + Config.agingRounding die % 2

/-- The aging index after a round; its 1/16 h saturate in the record. -/
def agingRound (c : Chip) : Chip :=
  let a := c.life.totals.aging + agingStep c.health.dieTemp
  let cap := (2 ^ 32 - 1) * 225 * 2 ^ 32
  noteSaturated 0x0D03 12 0 32 (satU 32 (a / 2 ^ 32 / 225)) (modTotals (fun y => { y with aging := min cap a }) c)

/-! ### The round -/

/-- Request state as HEALTH.STATUS reports it. -/
def Request.code : Request → Nat
  | .none => 0
  | .grace => 1
  | .spent => 2
  | .enforced => 3

/-- `flags` of HEALTH.STATUS. -/
def healthFlags (c : Chip) : Nat :=
  packBits [c.health.throttleReq, c.health.acknowledged, c.health.extensionUsed, c.supply.unstable, c.supply.exhausted,
    noSpare c, decide (800 ≤ agingPermille c), alarm c]

/-- Four temperatures as a 64-bit register. -/
def tempRegister (xs : List Int) : Nat := fromLe (xs.flatMap (leS 2))

/-- The HK registers as a round leaves them (R593). -/
def hkRegisters (c : Chip) : Vector Nat 5 :=
  let h := c.health
  #v[fromLe (leS 2 h.dieTemp ++ le 1 (h.level + 4 * h.levelFloor + 16 * h.state.code) ++ le 1 (healthFlags c) ++ le 1 h.pinnedBits),
     h.failedBits, tempRegister (h.groups.toList.take 4), tempRegister (h.groups.toList.drop 4), tempRegister (c.dram.ch.toList.map (·.temperature))]

/-- A housekeeping round completes (R489 to R500). DEDUCED: log entry 200. -/
def housekeepingRound (r : Round) (c : Chip) : Chip :=
  let before := c.health
  let c := if r.references then modHealth (fun h =>
      { h.convert r.die with railMv := vmapIdx (fun m v => r.rails.getD m v) h.railMv }) c
    else
      (let (n, c) := satAdd 0x0D00 14 0 16 before.roundsDiscarded 1 c
       modHealth (fun h => { h.convert h.sensors.toList with roundsDiscarded := n }) c)
  let c := ((List.range 24).filter fun s => vget c.health.failed s && !vget before.failed s).foldl (fun c s => sensorFailEvent before s c) c
  let c := dramRound r.dram c
  let c := if c.health.failed.toList.all id then enterHalt c else c
  let c := thresholds c
  let c := modHealth (fun h => { h with
    levelFloor := if h.pinnedBits = before.pinnedBits then h.levelFloor else max h.levelFloor h.level
    high := if h.rounds = 0 then h.dieTemp else max h.high h.dieTemp, low := if h.rounds = 0 then h.dieTemp else min h.low h.dieTemp }) c
  let c := agingRound (hoursRound (cycleRound c))
  let c := modHealth (fun h => { h with rounds := h.rounds + 1, roundAt := c.now }) c
  modHealth (fun h => { h with registers := hkRegisters c }) c

def execHousekeepingRound (t : Nat) (round : Round) (s : State) : Host.Outcome State Fault Refusal :=
  .next (s.run t fun _ c => housekeepingRound round c)

/-! ### Supplies (R502 to R505) -/

/-- Row of the table "Supply monitors" that a monitor stands in. -/
def railOf (m : Nat) : Nat :=
  if m < 16 then 0 else if m < 18 then 1 else if m < 22 then 2 else if m < 24 then 3 else if m < 28 then 4 else m - 23

/-- EV_SUPPLY_WARN (R514). -/
def supplyWarn (m kind lowest durationUs : Nat) (c : Chip) : Chip :=
  raise 0x0D05 2 m (le 1 m ++ le 1 (railOf m) ++ le 1 kind ++ [0] ++ le 2 (satU 16 lowest) ++ le 2 (satU 16 durationUs) ++ le 4 0) c

/-- SUPPLY_DIP (R503, R504). DEDUCED: log entry 202. -/
def supplyDip (m lowest durationUs : Nat) (c : Chip) : Chip :=
  let (n, c) := satAdd 0x0D00 144 0 32 c.supply.dipsSinceBoot 1 c
  let (k, c) := satAdd 0x0D03 28 0 32 c.life.totals.supplyDips 1 c
  let dips := c.now :: c.supply.dipTimes.filter fun t => decide (c.now < t + 1000000000)
  let c := modTotals (fun y => { y with supplyDips := k }) (modSupply (fun x => { x with
    dipsSinceBoot := n, dipTimes := dips, lastDip := some c.now, lastExcursion := c.now, held := true, outside := x.outside.filter (· != m) }) c)
  let c := supplyWarn m 0 lowest durationUs c
  if 16 < dips.length ∧ !c.supply.unstable then supplyWarn m 3 lowest durationUs (modSupply (fun x => { x with unstable := true }) c) else c

def execSupplyDip (t : Nat) (monitor : Fin 32) (lowest durationUs : Nat) (s : State) : Host.Outcome State Fault Refusal :=
  .next (s.run t fun _ c => supplyDip monitor lowest durationUs c)

/-- SUPPLY_EXCURSION_SUSTAINED: the excursion has lasted 10 ms, and the rail is still outside its band (R503). -/
def execSupplyExcursionSustained (t : Nat) (monitor : Fin 32) (lowest : Nat) (s : State) : Host.Outcome State Fault Refusal :=
  .next (s.run t fun _ c => supplyWarn monitor 1 lowest 10000 (modSupply (fun x => { x with
    lastExcursion := c.now, outside := x.outside.filter (· != monitor.val) ++ [monitor.val] }) c))

/-- SUPPLY_OVER (R503). -/
def execSupplyOver (t : Nat) (monitor : Fin 32) (lowest durationUs : Nat) (s : State) : Host.Outcome State Fault Refusal :=
  .next (s.run t fun _ c => supplyWarn monitor 2 lowest durationUs (modSupply (fun x => { x with lastExcursion := c.now }) c))

/-- SUPPLY_HOLD_END (R503). -/
def execSupplyHoldEnd (t : Nat) (s : State) : Host.Outcome State Fault Refusal :=
  .next (s.run t fun _ c => if c.supply.outside.isEmpty && decide (c.supply.lastExcursion + 100000000 ≤ c.now) then modSupply (fun x => { x with held := false }) c else c)

/-- SUPPLY_UNSTABLE_CLEAR (R504); the event names no monitor's excursion: its figures are free. DEDUCED: log entry 202. -/
def unstableClears (c : Chip) : Chip :=
  if c.supply.unstable && (c.supply.lastDip.map fun t => decide (t + 10000000000 ≤ c.now)).getD true then
    let (m, c) := freeNat c
    let (low, c) := freeNat c
    let (dur, c) := freeNat c
    supplyWarn (m % 32) 4 low dur (modSupply (fun x => { x with unstable := false }) c)
  else c

def execSupplyUnstableClear (t : Nat) (s : State) : Host.Outcome State Fault Refusal := .next (s.run t fun _ c => unstableClears c)

/-! ### SRAM (R506, R507) -/

/-- Pool of an uncorrectable word, in the order of R19. -/
def SramHit.pool : SramHit → Nat
  | .buffer _ _ _ _ => 0
  | .table _ _ _ => 1
  | .store _ _ _ => 2
  | .model _ _ => 3
  | .label _ => 4
  | .staging _ _ => 5
  | .dma => 6
  | .window => 7
  | .abacus => 8
  | .cell _ _ _ => 8
  | .belvedere _ => 9
  | .lodge => 10
  | .reserve => 11

/-- Columns of a list from one on, changed. -/
def mapRange {α : Type} (first count : Nat) (f : α → α) (xs : List α) : List α :=
  xs.mapIdx fun i x => if first ≤ i ∧ i < first + count then f x else x

/-- A word of a lane input buffer is lost: its pixels are invalid in that line. -/
def bufferHit (lane line first count : Nat) (c : Chip) : Chip :=
  { c with lane := vmod c.lane lane fun x => { x with
      buffer := x.buffer.map fun y => if y.number = line then { y with lost := y.lost ++ (List.range count).map (first + ·) } else y } }

/-- A label is lost: its blob is counted as a dropped record (R507, R205). DESIGN CHOICE: log entry 203. -/
def labelHit (key : Nat) (c : Chip) : Chip :=
  match c.carry.open_.find? fun b => b.key == key with
  | none => c
  | some b =>
    let mine (r : Run) : Bool := match r.owner with
      | .blob k => k == key
      | .region _ => false
    let c := { c with carry := { c.carry with open_ := c.carry.open_.filter (fun b => b.key != key), runs := c.carry.runs.filter fun r => !mine r } }
    let (sequence, c) := takeDefect c
    let id := c.modes.nodeId * 2 ^ 56 + sequence
    placeGap (dropRecord { data := le 8 id ++ timeBytes b.timeS b.timeNs ++ zeros 110, id, mdFirst := b.mdFirst, mdLast := b.mdLast } c)

/-- What an uncorrectable word does to what it holds (R507). DESIGN CHOICE: log entry 203. -/
def sramStrike (h : SramHit) (c : Chip) : Chip :=
  match h with
  | .buffer lane line first count => bufferHit lane line first count c
  | .table lane first count =>
    let (d, c) := freeNat c
    let until_ := c.now + d % 10000001
    { c with corr := vmod c.corr lane fun x => { x with broken := (x.broken.filter fun y => decide (c.now < y.2)) ++ (List.range count).map fun i => (first + i, until_) } }
  | .store line first count =>
    { c with det := { c.det with rows := c.det.rows.map fun r =>
        if r.line.tag.number = line then { r with z := mapRange first count (fun _ => 0) r.z, compared := mapRange first count (fun _ => false) r.compared } else r } }
  | .model first count => { c with det := { c.det with model := mapRange first count (fun e => { e with n := 0 }) c.det.model } }
  | .label key => labelHit key c
  | .staging lane span =>
    match c.orangery.staging.find? fun b => b.lane == lane && b.span == span with
    | some b =>
      let c := modOrangery (fun o => { o with staging := o.staging.filter fun y => !(y.lane == lane && y.span == span) }) c
      dropBlock b (writerFill (stagingUsed c.orangery) c)
    | none => c
  | .abacus => { c with abacus := { c.abacus with blank := true } }
  | .cell roll i j => { c with rotunda := { c.rotunda with cells := c.rotunda.cells.filter fun y => !(y.roll == roll && y.i == i && y.j == j) } }
  | .belvedere stream => dropFrame stream 3 c
  | .lodge => lockstepStarts c
  | .dma | .window | .reserve => c

/-- An uncorrectable word is read: counted, raised each time, and handled (R507). -/
def sramUncorrectable (h : SramHit) (addr : Nat) (c : Chip) : Chip :=
  let (n, c) := satAdd 0x0D00 152 0 32 c.supply.sramUncorrected 1 c
  let (k, c) := satAdd 0x0D03 40 0 32 c.life.totals.eccUncorrected 1 c
  let c := modTotals (fun y => { y with eccUncorrected := k }) (modSupply (fun x => { x with sramUncorrected := n }) c)
  sramStrike h (raise 0x0D07 3 0x7F ([1] ++ le 1 (SramHit.pool h) ++ [0, 0] ++ le 4 addr ++ le 4 c.trig.number) c)

/-- A word is corrected (R506). DESIGN CHOICE: log entry 204. -/
def sramCorrect (pool addr : Nat) (c : Chip) : Chip :=
  let (n, c) := satAdd 0x0D00 148 0 32 c.supply.sramCorrected 1 c
  let (k, c) := satAdd 0x0D03 36 0 32 c.life.totals.eccCorrected 1 c
  let c := modTotals (fun y => { y with eccCorrected := k }) (modSupply (fun x => { x with sramCorrected := n }) c)
  raiseLimited 0x0D06 1 0x7F (100 + pool) ([1] ++ le 1 pool ++ [0, 0] ++ le 4 0 ++ le 4 addr) 4 4 false 1 c

/-- A row that needed correction on two consecutive passes is replaced while a spare row remains (R506). DESIGN CHOICE: log entry 203. -/
def replaceRow (x : Supply) : Supply :=
  if x.rowsUsed < Config.spareRows then { x with rowsUsed := x.rowsUsed + 1 } else { x with exhausted := true }

/-- What SECDED makes of a word with flipped bits (R506): 0 sound, 1 corrected, 2 uncorrectable. What it makes of three or more is open.
DESIGN CHOICE: log entry 203. -/
def secded (flipped : List Nat) (c : Chip) : Nat × Chip :=
  let n := (flipped.filter (· < 72)).eraseDups.length
  if n ≤ 2 then (n, c) else let (x, c) := freeNat c; (x % 3, c)

/-- One word of a pass, and the rows corrected so far (R506, R507). -/
def scrubWord (w : SramWord) (x : List (Nat × Nat) × Chip) : List (Nat × Nat) × Chip :=
  match secded w.flipped x.2 with
  | (0, c) => (x.1, c)
  | (1, c) => (x.1 ++ [(SramHit.pool w.hit, w.row)], sramCorrect (SramHit.pool w.hit) w.addr c)
  | (_, c) => (x.1, sramUncorrectable w.hit w.addr c)

/-- SRAM_SCRUB: a pass ends. -/
def sramScrub (words : List SramWord) (c : Chip) : Chip :=
  if !backgroundRuns c then c
  else
    let (rows, c) := words.foldl (fun x w => scrubWord w x) (([] : List (Nat × Nat)), c)
    let rows := rows.eraseDups
    let again := rows.filter c.supply.rowsOnce.contains
    modSupply (fun x => { again.foldl (fun x _ => replaceRow x) x with rowsOnce := rows.filter fun y => !again.contains y }) c

def execSramScrub (t : Nat) (words : List SramWord) (s : State) : Host.Outcome State Fault Refusal :=
  .next (s.run t fun _ c => sramScrub words c)

/-! ### Commands -/

/-- Milliseconds left of the grace time; 0 when none runs. -/
def graceRemaining (c : Chip) : Nat := if c.health.state = .grace then (c.health.graceEnd - c.now) / 1000000 else 0

/-- The response of HEALTH.STATUS. -/
def healthBody (c : Chip) : List Byte :=
  let h := c.health
  leS 2 h.dieTemp ++ le 1 h.level ++ le 1 h.levelFloor ++ le 1 h.state.code ++ le 1 (healthFlags c) ++ le 2 (graceRemaining c) ++
  le 4 h.failedBits ++ le 1 h.pinnedBits ++ [0] ++ le 2 h.roundsDiscarded ++ (h.groups.toList.flatMap (leS 2)) ++
  (h.sensors.toList.flatMap (leS 2)) ++ (h.railMv.toList.flatMap (le 2)) ++ le 4 c.supply.dipsSinceBoot ++ le 4 c.supply.sramCorrected ++
  le 4 c.supply.sramUncorrected ++ le 4 (Config.spareRows - c.supply.rowsUsed) ++ le 4 (agingPermille c)

/-- HEALTH.STATUS; with `set_telemetry` it sets the event enable and the telemetry ring (R513, R595). -/
def healthStatus (_ : Env) (j : Job) (c : Chip) : Reply :=
  let p := j.payload
  let set := bit (rd p 0 1) 0
  let enable := bit (rd p 1 1) 1
  let old := c.life.ring
  let new : Ring := { channel := rd p 2 1, irqCount := rd p 4 2, irqHoldoffUs := rd p 6 2, entryCount := rd p 8 4, entrySize := 128,
                      base := rd p 16 8, headAddr := rd p 24 8 }
  checked ([lenIs 32 j, param 0 (rd p 0 1 < 2)] ++
      (if set then [param 1 (rd p 1 1 < 4), inRange p 2 1 24 31, reserved p 3 1, inRange p 6 2 0 10000,
        param 8 (isPow2 (rd p 8 4) && decide (64 ≤ rd p 8 4) && decide (rd p 8 4 ≤ 65536)), reserved p 12 4,
        param 16 (rd p 16 8 % 4096 == 0), param 24 (rd p 24 8 % 32 == 0)] ++ ringChecks c old enable new 8 else [])) c
    (let c := if set then
        ringChannel old enable new 8 { c with life := { c.life with ring := old.change enable new, telemetryEvent := bit (rd p 1 1) 0 } }
      else c
     replyBody (healthBody c) c)

def execHealthStatus (t : Nat) (mb : Fin 8) (s : State) : Host.Outcome State Fault Refusal :=
  .next (s.command 0x0D00 t mb healthStatus)

/-- THERMAL.CONFIGURE (R501): thresholds may be lowered, never raised above their defaults. -/
def thermalApply (p : List Byte) (c : Chip) : Chip :=
  modHealth (fun h => { h with
    warn := { h.warn with value := rdS p 0 2 }, request := { h.request with value := rdS p 2 2 }, level2 := { h.level2 with value := rdS p 4 2 }
    level3 := { h.level3 with value := rdS p 6 2 }, halt := { h.halt with value := rdS p 8 2 }, graceMs := rd p 12 4 }) c

def thermalConfigure (_ : Env) (j : Job) (c : Chip) : Reply :=
  let p := j.payload
  checked [lenIs 16 j, inRangeS p 0 2 960 1520, param 2 (decide (rdS p 2 2 ≤ 1600)), param 4 (decide (rdS p 4 2 ≤ 1680)),
      param 6 (decide (rdS p 6 2 ≤ 1760)), param 8 (decide (rdS p 8 2 ≤ 1888)), reserved p 10 2, inRange p 12 4 10 10000,
      crossRule (strictlyRising ((List.range 5).map fun i => rdS p (2 * i) 2))] c
    (reply stOk (thermalApply p c))

def execThermalConfigure (t : Nat) (mb : Fin 8) (s : State) : Host.Outcome State Fault Refusal :=
  .next (s.command 0x0D01 t mb thermalConfigure)

/-- THERMAL.ACK_REQUEST (R496). -/
def thermalAck (_ : Env) (j : Job) (c : Chip) : Reply :=
  let x := rd j.payload 0 4
  checked [lenIs 4 j, param 0 (x ≤ c.health.graceMs), stateRule c (c.health.state == .grace && (x == 0 || !c.health.extensionUsed))] c
    (let c := modHealth (fun h => { h with
       acknowledged := true, throttleReq := false, extensionUsed := h.extensionUsed || x != 0, graceEnd := h.graceEnd + x * 1000000 }) c
     replyBody (le 4 (graceRemaining c) ++ le 1 c.health.level ++ [0, 0, 0]) c)

def execThermalAckRequest (t : Nat) (mb : Fin 8) (s : State) : Host.Outcome State Fault Refusal :=
  .next (s.command 0x0D02 t mb thermalAck)

end Sys2Proof.Machine
end

