-- ==== Sys2Proof/Machine/Life.lean ====
section
/-! DEFINITION. The life record (R508 to R513): summaries, checkpoints, the journal in flash and its recovery, telemetry,
LIFE.READ and LIFE.SET_CALENDAR. -/
namespace Sys2Proof.Machine

/-! ### Entries (R508, R509) -/

/-- LIFE_SUMMARY: the totals at offsets 0 to 39 and the highest and lowest die temperature of the period, whole °C. -/
def lifeSummary (c : Chip) : Chip :=
  let h := c.health
  let c := journalAdd 0 0 ((totalsBytes c).take 40 ++ leS 1 (h.high / 16) ++ leS 1 (h.low / 16)) c
  modHealth (fun h => { h with high := h.dieTemp, low := h.dieTemp }) c

def execLifeSummary (t : Nat) (s : State) : Host.Outcome State Fault Refusal := .next (s.run t fun _ c => lifeSummary c)

/-- LIFE_CHECKPOINT: every 24 h (R509). -/
def execLifeCheckpoint (t : Nat) (s : State) : Host.Outcome State Fault Refusal := .next (s.run t fun _ c => checkpoint c)

/-- The 64 bytes of an entry. -/
def journalBytes (e : JournalEntry) (sequence : Nat) : List Byte :=
  let x := le 1 e.kind ++ le 1 e.part ++ [0, 0] ++ le 4 sequence ++ timeBytes e.timeS e.timeNs ++ fit 42 e.body
  x ++ le 4 (crc32 x)

/-- The 24 bytes of an audit entry (R473). -/
def auditBytes (e : AuditEntry) : List Byte :=
  timeBytes e.timeS e.timeNs ++ le 2 e.command ++ le 1 e.cls ++ le 1 e.mailbox ++ le 2 e.status ++ le 4 e.digest ++ zeros 4

/-- The next entry to write: the oldest of the write queue, else the oldest of the audit queue, and the device without it.
DEDUCED: log entry 210. -/
def nextEntry (c : Chip) : Option (JournalEntry × Chip) :=
  match c.life.queue with
  | e :: rest => some (e, { c with life := { c.life with queue := rest } })
  | [] => match c.mbx.audit with
    | a :: rest =>
      let (s, ns) := clock c
      some ({ kind := 2, part := 0, timeS := s, timeNs := ns, body := fit 42 (auditBytes a) }, { c with mbx := { c.mbx with audit := rest } })
    | [] => none

/-- LIFE_JOURNAL_WRITE: an entry is written to area A and then to area B, unless a supply hold or a Lodge restart makes it wait (R25,
R503, R508). An area keeps the full sectors and the one being written; the sector ahead is erased. DEDUCED: log entry 210. -/
def journalWrite (c : Chip) : Chip :=
  if c.supply.held || !firmwareRuns c then c
  else match nextEntry c with
    | none => c
    | some (e, c) =>
      let bytes := journalBytes e c.life.nextSequence
      let next := wrapU 32 (c.life.nextSequence + 1)
      let kept := 65408 + next % 64
      emit (.flashWrite 1 bytes) (emit (.flashWrite 0 bytes) { c with life := { c.life with
        nextSequence := next, areaA := (bytes :: c.life.areaA).take kept, areaB := (bytes :: c.life.areaB).take kept } })

def execLifeJournalWrite (t : Nat) (s : State) : Host.Outcome State Fault Refusal := .next (s.run t fun _ c => journalWrite c)

/-! ### Recovery at boot (R201, R508, R510, R512) -/

/-- An entry's CRC holds. -/
def entrySound (x : List Byte) : Bool := x.length == 64 && rd x 60 4 == crc32 (x.take 60)

/-- An area whose entries with a failing CRC are replaced by their copies in the other (R508). -/
def mendArea (area other : List (List Byte)) : List (List Byte) :=
  area.mapIdx fun i x => if entrySound x then x else (other[i]?).elim x fun y => if entrySound y then y else x

/-- Body of an entry. -/
def entryBody (x : List Byte) : List Byte := sliceB x 18 42

/-- Totals at offsets 0 to 39. -/
def Totals.withCounters (y : Totals) (p : List Byte) : Totals :=
  { y with
    powerOnHours := rd p 0 4, powerCycles := rd p 4 4, thermalCycles := rd p 8 4, aging := rd p 12 4 * 225 * 2 ^ 32
    throttleS := #v[rd p 16 4, rd p 20 4, rd p 24 4], supplyDips := rd p 28 4, supplyResets := rd p 32 4, eccCorrected := rd p 36 4 }

/-- Totals of a checkpoint's 216 bytes. -/
def totalsOf (p : List Byte) : Totals :=
  { (({} : Totals).withCounters p) with
    eccUncorrected := rd p 40 4, utcSource := if rd p 49 1 = 0 then 0 else 3, utcOffset := if rd p 49 1 = 0 then 37 else rdS p 50 2
    auditEntries := rd p 52 4, nextDefect := rd p 56 8, takeovers := vmapIdx (fun e _ => rd p (64 + e) 1) (Vector.replicate 17 0)
    retiredExtents := rd p 82 2, entriesDropped := rd p 84 4, lines := vmapIdx (fun l _ => rd p (88 + 8 * l) 8) (Vector.replicate 16 0) }

/-- The newest entries of a kind, and of a part where one is given: index from the newest, and body. -/
def newestEntry (area : List (List Byte)) (kind part : Nat) : Option (Nat × List Byte) :=
  ((List.range area.length).zip area).findSome? fun (x : Nat × List Byte) =>
    if rd x.2 0 1 = kind ∧ rd x.2 1 1 = part then some (x.1, entryBody x.2) else none

/-- The bytes of the newest whole checkpoint and how many entries are newer than its first part. -/
def newestCheckpoint (area : List (List Byte)) : Option (Nat × List Byte) :=
  match newestEntry area 3 5 with
  | none => none
  | some (i, _) =>
    let parts := (List.range 6).map fun k => newestEntry (area.drop i) 3 k
    if parts.all Option.isSome then some (i + ((parts.headD none).map (·.1)).getD 0, (parts.filterMap fun p => p.map (·.2)).flatten) else none

/-- The body of the newest entry of a kind, where it is newer than the newest checkpoint. -/
def newerEntry (area : List (List Byte)) (kind : Nat) : Option (List Byte) :=
  match newestEntry area kind 0, newestCheckpoint area with
  | some (i, b), some (k, _) => if i < k then some b else none
  | some (_, b), none => some b
  | none, _ => none

/-- The defect sequence on record: that of the newest checkpoint, or of a newer defect-sequence entry (R201). -/
def recordedDefect (area : List (List Byte)) : Nat :=
  match newerEntry area 5 with
  | some b => rd b 0 8
  | none => ((newestCheckpoint area).map fun x => (totalsOf x.2).nextDefect).getD 0

/-- The defect sequence a boot starts at (R201). DEDUCED: log entry 211. -/
def bootDefect (area : List (List Byte)) : Nat :=
  if area.isEmpty then 0 else min (2 ^ 56 - 1) (recordedDefect area / 2 ^ 32 * 2 ^ 32 + 2 * 2 ^ 32)

/-- The totals the life record gives at boot: the newest checkpoint, the counters of a newer summary, and the defect sequence. DEDUCED: log entry 211. -/
def recoverTotals (area : List (List Byte)) : Totals :=
  let y := ((newestCheckpoint area).map fun x => totalsOf x.2).getD {}
  let y := match newerEntry area 0 with
    | some b => y.withCounters b
    | none => y
  { y with nextDefect := bootDefect area }

/-- The totals at boot, from areas in which each damaged entry is replaced by its copy (R508); a defect sequence that starts in another range of 2^32 goes into the life record (R201). -/
def recoverLife (c : Chip) : Chip :=
  let area := mendArea c.life.areaA c.life.areaB
  let c := { c with life := { c.life with areaA := area, areaB := mendArea c.life.areaB c.life.areaA, totals := recoverTotals area } }
  if bootDefect area / 2 ^ 32 = recordedDefect area / 2 ^ 32 then c else journalAdd 5 0 (le 8 (bootDefect area)) c

/-! ### Telemetry (R513) -/

/-- The snapshot of 128 bytes. -/
def snapshot (c : Chip) : List Byte :=
  let (s, ns) := clock c
  le 4 c.life.telemetrySequence ++ le 1 c.health.level ++ le 1 (mode c) ++ leS 2 c.health.dieTemp ++ timeBytes s ns ++ [0, 0] ++
  (c.health.groups.toList.flatMap (leS 2)) ++ (c.dram.ch.toList.flatMap fun d => leS 2 d.temperature) ++ (c.health.railMv.toList.flatMap (le 2)) ++
  le 4 (conditions c) ++ le 8 c.life.linesLastS ++ le 4 (satU 32 c.life.recordsLastS) ++ le 4 c.health.failedBits

/-- TELEMETRY: every second of Sundial time. DEDUCED: log entry 211. -/
def telemetry (c : Chip) : Chip :=
  let c := if c.life.telemetryEvent then
      raise 0x0103 0 0x7F (leS 2 c.health.dieTemp ++ le 1 c.health.level ++ le 1 (mode c) ++ le 4 (conditions c) ++ le 4 (satU 32 c.life.recordsLastS)) c
    else c
  let r := c.life.ring
  let c := if r.enabled && !r.full && hostWrites c then
      (let (r, c) := ringPut r (snapshot c) 0 0 c
       { c with life := { c.life with ring := r } })
    else c
  { c with life := { c.life with telemetrySequence := wrapU 32 (c.life.telemetrySequence + 1), linesLastS := 0, recordsLastS := 0 } }

def execTelemetry (t : Nat) (s : State) : Host.Outcome State Fault Refusal := .next (s.run t fun _ c => telemetry c)

/-! ### Commands -/

/-- The journal entries that section 1 returns: up to `count`, in ascending sequence, from `back` entries before the newest. -/
def journalPart (area : List (List Byte)) (back count : Nat) : List (List Byte) :=
  ((area.take (back + 1)).drop (back + 1 - count)).reverse

def lifeRead (_ : Env) (j : Job) (c : Chip) : Reply :=
  let p := j.payload
  let sec := rd p 0 1
  checked ([lenIs 10 j, inRange p 0 1 0 1, reserved p 1 3] ++ (if sec = 1 then [inRange p 8 2 1 62] else [])) c
    (if sec = 0 then replyBody (totalsBytes c) c
     else
       let es := journalPart c.life.areaA (rd p 4 4) (rd p 8 2)
       replyBody (le 2 es.length ++ [0, 0] ++ le 4 ((c.life.areaA.head?.map fun x => rd x 4 4).getD 0) ++ es.flatten) c)

def execLifeRead (t : Nat) (mb : Fin 8) (s : State) : Host.Outcome State Fault Refusal := .next (s.command 0x0D03 t mb lifeRead)

/-- LIFE.SET_CALENDAR (R512). -/
def lifeSetCalendar (_ : Env) (j : Job) (c : Chip) : Reply :=
  let p := j.payload
  checked [lenIs 4 j, inRangeS p 0 2 (-1000) 1000, param 2 (rd p 2 1 < 2), reserved p 3 1] c
    (reply stOk (refreshUtc { c with life := { c.life with hold := bit (rd p 2 1) 0, setOffset := some (rdS p 0 2) } }))

def execLifeSetCalendar (t : Nat) (mb : Fin 8) (s : State) : Host.Outcome State Fault Refusal := .next (s.command 0x0D04 t mb lifeSetCalendar)

end Sys2Proof.Machine
end

