-- ==== Sys2Proof/Machine/Security.lean ====
section
/-! DEFINITION. The Gatehouse (R518 to R530): sessions, fuses, the key store, debug access and the tamper monitor. -/
namespace Sys2Proof.Machine

/-- Changes the Gatehouse. -/
def modSec (f : Security → Security) (c : Chip) : Chip := { c with sec := f c.sec }

/-! ### Challenges and proofs (R518, R520) -/

/-- The challenge outstanding on a mailbox: that of SEC.UNLOCK, or that of SEC.SESSION_OPEN. -/
def challengeOf (c : Chip) (unlock : Bool) (mb : Nat) : Option Challenge :=
  (vget (if unlock then c.sec.unlockChallenges else c.sec.challenges) mb).filter fun x => decide (c.now < x.expires)

/-- Sets or clears it. -/
def setChallenge (unlock : Bool) (mb : Nat) (x : Option Challenge) (c : Chip) : Chip :=
  modSec (fun s => if unlock then { s with unlockChallenges := vset s.unlockChallenges mb x } else { s with challenges := vset s.challenges mb x }) c

/-- Action 0: a challenge of 32 bytes that the spec leaves open, for 10 s. -/
def newChallenge (unlock : Bool) (mb : Nat) (c : Chip) : Reply :=
  let (bytes, c) := freeBytes 32 c
  replyBody (bytes ++ le 4 10000) (setChallenge unlock mb (some { value := bytes, expires := c.now + 10000000000 }) c)

/-- What a proof comes to. -/
inductive Proof where
  | holds | fails | keyAbsent
  deriving DecidableEq, Repr

/-- Judges a proof of a class on a mailbox (R518). DEDUCED: log entry 215. -/
def judge (c : Chip) (challenge : List Byte) (mb cls : Nat) (p : List Byte) : Proof :=
  let m := challenge ++ le 8 Config.serial ++ le 1 mb ++ le 1 cls
  if cls = 2 then
    match integratorKey c with
    | none => .keyAbsent
    | some key => if Config.hmacSha384 key m == sliceB p 8 48 then .holds else .fails
  else
    let key := sliceB p 8 96
    if Config.sha384 key == Config.serviceHash && Config.ecdsaVerify key (Config.sha384 m) (sliceB p 104 96) then .holds else .fails

/-- A failed proof is counted; from the eighth in succession on it starts 60 s of refusal (R520). DEDUCED: log entry 215. -/
def proofFailed (mb kind cls : Nat) (c : Chip) : Chip :=
  let n := satU 32 (c.sec.failures + 1)
  sessionEvent mb kind cls 0 (modSec (fun s => { s with
    failures := n, lockoutUntil := if 8 ≤ n then some (c.now + 60000000000) else s.lockoutUntil }) c)

/-- The length a request needs (R529). -/
def proofLength (p : List Byte) : Nat := if rd p 0 1 = 1 then (if rd p 1 1 = 3 then 200 else 56) else 8

/-- Checks that SEC.SESSION_OPEN and SEC.UNLOCK share; `idle` checks `idle_s`. -/
def proofChecks (c : Chip) (unlock : Bool) (mb : Nat) (j : Job) (idle : Check) : List Check :=
  let p := j.payload
  [lenOk (p.length == proofLength p), inRange p 0 1 0 1, inRange p 1 1 2 3, param 1 (unlock || mb == 0 || rd p 1 1 == 2), reserved p 2 2, idle,
   stateRule c (!unlock || c.modes.lockdown), stateRule c (rd p 0 1 == 0 || (challengeOf c unlock mb).isSome),
   ownRule stBusy ((c.sec.lockoutUntil.map fun t => decide (t ≤ c.now)).getD true)]

/-- A new session on a mailbox takes the place of the old one (R519). -/
def openSession (mb cls idleS : Nat) (c : Chip) : Chip :=
  let c := endSession mb 4 c
  let id := c.sec.nextSession
  sessionEvent mb 0 cls id (modSec (fun s => { s with
    nextSession := if id = 0xFFFFFFFF then 1 else id + 1
    sessions := vset s.sessions mb (some { cls, id, idleS, lastCommand := c.now }) }) c)

/-- SEC.SESSION_OPEN. DEDUCED: log entry 215. -/
def sessionOpen (env : Env) (j : Job) (c : Chip) : Reply :=
  let p := j.payload
  let cls := rd p 1 1
  checked (proofChecks c false env.mb j (inRange p 4 4 60 86400)) c
    (if rd p 0 1 = 0 then newChallenge false env.mb c
     else
       let x := ((challengeOf c false env.mb).map (·.value)).getD []
       let c := setChallenge false env.mb none c
       match judge c x env.mb cls p with
       | .keyAbsent => { status := stAuthFail, detail := 2, chip := c }
       | .fails => { status := stAuthFail, detail := 0, chip := proofFailed env.mb 2 cls c }
       | .holds =>
         let c := openSession env.mb cls (rd p 4 4) (modSec (fun s => { s with failures := 0, lockoutUntil := none }) c)
         replyBody (le 1 cls ++ [0, 0, 0] ++ le 4 (((vget c.sec.sessions env.mb).map (·.id)).getD 0)) c)

def execSecSessionOpen (t : Nat) (mb : Fin 8) (s : State) : Host.Outcome State Fault Refusal := .next (s.command 0x0E00 t mb sessionOpen)

/-- SEC.SESSION_CLOSE. -/
def sessionClose (env : Env) (j : Job) (c : Chip) : Reply :=
  checked [lenIs 0 j, ownRule stNotFound (vget c.sec.sessions env.mb).isSome] c (reply stOk (endSession env.mb 1 c))

def execSecSessionClose (t : Nat) (mb : Fin 8) (s : State) : Host.Outcome State Fault Refusal := .next (s.command 0x0E01 t mb sessionClose)

/-- SEC.UNLOCK (R528): a proof clears the latch; the device stays in LOCKDOWN until the next power cycle. DEDUCED: log entry 215. -/
def secUnlock (env : Env) (j : Job) (c : Chip) : Reply :=
  let p := j.payload
  let cls := rd p 1 1
  checked (proofChecks c true env.mb j (reserved p 4 4)) c
    (if rd p 0 1 = 0 then newChallenge true env.mb c
     else
       let x := ((challengeOf c true env.mb).map (·.value)).getD []
       let c := setChallenge true env.mb none c
       match judge c x env.mb cls p with
       | .keyAbsent => { status := stAuthFail, detail := 2, chip := c }
       | .fails => { status := stAuthFail, detail := 0, chip := proofFailed env.mb 6 cls c }
       | .holds =>
         let c := modSec (fun s => { s with failures := 0, lockoutUntil := none, latch := false }) c
         replyBody (le 1 cls ++ zeros 7) (sessionEvent env.mb 5 cls 0 c))

def execSecUnlock (t : Nat) (mb : Fin 8) (s : State) : Host.Outcome State Fault Refusal := .next (s.command 0x0E06 t mb secUnlock)

/-- SESSION_CHALLENGE_EXPIRY (R518). -/
def execSessionChallengeExpiry (t : Nat) (mb : Fin 8) (unlock : Bool) (s : State) : Host.Outcome State Fault Refusal :=
  .next (s.run t fun _ c => if (challengeOf c unlock mb).isNone then setChallenge unlock mb none c else c)

/-- SESSION_IDLE_TIMEOUT (R519). -/
def sessionIdle (mb : Nat) (c : Chip) : Chip :=
  match vget c.sec.sessions mb with
  | some x => if x.lastCommand + x.idleS * 1000000000 ≤ c.now then endSession mb 3 c else c
  | none => c

def execSessionIdleTimeout (t : Nat) (mb : Fin 8) (s : State) : Host.Outcome State Fault Refusal :=
  .next (s.run t fun _ c => sessionIdle mb c)

/-- PROOF_LOCKOUT_END (R520). -/
def execProofLockoutEnd (t : Nat) (s : State) : Host.Outcome State Fault Refusal :=
  .next (s.run t fun _ c => modSec (fun x => { x with lockoutUntil := x.lockoutUntil.filter fun u => decide (c.now < u) }) c)

/-! ### Fuses (R522, R523) -/

/-- Changes a setting allows. -/
def changesAllowed (k : Nat) : Nat := [4, 8, 16, 96, 1].getD k 0

/-- Every INTEGRATE session ends (R519). -/
def endIntegrate (c : Chip) : Chip :=
  (List.range 8).foldl (fun c mb => if ((vget c.sec.sessions mb).map fun x => x.cls == 2).getD false then endSession mb 4 c else c) c

/-- The value a write asks for: for setting 2, 0 asks for the next generation. DEDUCED: log entry 216. -/
def fuseTarget (c : Chip) (p : List Byte) : Nat :=
  if rd p 0 1 = 2 ∧ rd p 2 2 = 0 then (vget c.sec.fuses 2).fused + 1 else rd p 2 2

/-- A value that the fuse table gives the setting. -/
def fuseValueOk (c : Chip) (p : List Byte) : Bool :=
  let v := rd p 2 2
  match rd p 0 1 with
  | 0 => decide (v ≤ 1)
  | 1 => decide (v ≤ 255)
  | 2 => v == 0 || (decide (v ≤ 16) && (v == (vget c.sec.fuses 2).fused || v == (vget c.sec.fuses 2).fused + 1))
  | 4 => v == 1
  | _ => false

/-- Burns a setting: the change is used even where the burn does not verify (R523). DEDUCED: log entry 216. -/
def burn (k v : Nat) (c : Chip) : Bool × Chip :=
  let good := Config.burnVerifies c.fresh
  let f := vget c.sec.fuses k
  let f := { f with used := f.used + 1, fused := if good then v else f.fused, inEffect := if good && decide (2 ≤ k) then v else f.inEffect }
  (good, checkpoint { c with fresh := c.fresh + 1, sec := { c.sec with fuses := vset c.sec.fuses k f } })

/-- The response of SEC.FUSE_WRITE. -/
def fuseBody (c : Chip) (k : Nat) : List Byte :=
  let f := vget c.sec.fuses k
  le 2 f.fused ++ le 2 f.inEffect ++ le 1 f.used ++ le 1 (changesAllowed k)

/-- SEC.FUSE_WRITE. DEDUCED: log entry 216. -/
def fuseWrite (_ : Env) (j : Job) (c : Chip) : Reply :=
  let p := j.payload
  let k := rd p 0 1
  let f := vget c.sec.fuses k
  let v := fuseTarget c p
  checked
    [lenOk (p.length == if k = 2 then 36 else 4), param 0 ([0, 1, 2, 4].contains k), param 1 (rd p 1 1 == f.used), param 2 (fuseValueOk c p),
     ownRule stBusy (!c.supply.unstable), ownRule stFuseExhausted (v == f.fused || decide (f.used < changesAllowed k))] c
    (if v = f.fused then replyBody (fuseBody c k) c
     else match burn k v c with
      | (false, c) => { status := stHwFault, detail := 4, chip := c }
      | (true, c) =>
        let c := if k = 2 then
            endIntegrate (modSec (fun s => { s with keys := vset s.keys 0 (some (sliceB p 4 32)), keyGeneration := v }) c)
          else c
        replyBody (fuseBody c k) c)

def execSecFuseWrite (t : Nat) (mb : Fin 8) (s : State) : Host.Outcome State Fault Refusal := .next (s.command 0x0E02 t mb fuseWrite)

/-- SEC.FUSE_READ. -/
def fuseRead (_ : Env) (j : Job) (c : Chip) : Reply :=
  checked [lenIs 0 j] c (replyBody ((List.range 5).flatMap fun k =>
    let f := vget c.sec.fuses k
    le 1 k ++ le 1 f.used ++ le 1 (changesAllowed k) ++ [0] ++ le 2 f.fused ++ le 2 f.inEffect) c)

def execSecFuseRead (t : Nat) (mb : Fin 8) (s : State) : Host.Outcome State Fault Refusal := .next (s.command 0x0E03 t mb fuseRead)

/-! ### The key store (R521) -/

/-- SEC.KEY_LOAD; the check value after an erasure is open. DEDUCED: log entry 216. -/
def keyLoad (_ : Env) (j : Job) (c : Chip) : Reply :=
  let p := j.payload
  let slot := rd p 0 1
  let load := rd p 1 1 == 0
  let key := sliceB p 4 32
  checked [lenOk (p.length == if load then 36 else 4), inRange p 0 1 1 7, inRange p 1 1 0 1, reserved p 2 2, ⟨!c.sec.sealed_, stAuthFail, 2, 8⟩] c
    (let (kcv, c) := if load then ((Config.aesBlock key (zeros 16)).take 3, c) else freeBytes 3 c
     replyBody (le 1 slot ++ fit 3 kcv) (modSec (fun s => { s with keys := vset s.keys slot (if load then some key else none) }) c))

def execSecKeyLoad (t : Nat) (mb : Fin 8) (s : State) : Host.Outcome State Fault Refusal := .next (s.command 0x0E04 t mb keyLoad)

/-- The model store is cleared: records take class 0 and confidence 0 (R18, R524, R526). -/
def clearModels (c : Chip) : Chip :=
  { c with abacus := { c.abacus with model := none }, older := c.older.map fun x => (x.1, { x.2 with model := none }) }

/-- DEBUG_ACCESS_OPEN (R524): `proved` is what the SERVICE proof through JTAG comes to. What its audit entry names besides the class is
open. DESIGN CHOICE: log entry 217. -/
def debugOpen (proved : Bool) (c : Chip) : Chip :=
  if !proved || (vget c.sec.fuses 4).fused == 1 then c
  else
    let (command, c) := freeNat c
    let (mailbox, c) := freeNat c
    let (digest, c) := freeNat c
    let (s, ns) := clock c
    let e : AuditEntry := { timeS := s, timeNs := ns, command := command % 65536, cls := 3, mailbox := mailbox % 256, status := 0, digest := digest % 2 ^ 32 }
    let (n, c) := satAdd 0x0D03 52 0 32 c.life.totals.auditEntries 1 c
    let c := modTotals (fun y => { y with auditEntries := n }) { c with mbx := { c.mbx with audit := c.mbx.audit ++ [e] } }
    clearModels (modSec (fun s => { s with debugOpen := true, sealed_ := true }) c)

def execDebugAccessOpen (t : Nat) (proved : Bool) (s : State) : Host.Outcome State Fault Refusal :=
  .next (s.run t fun _ c => debugOpen proved c)

/-! ### The tamper monitor (R525 to R528) -/

/-- EV_TAMPER (R530). -/
def tamperEvent (source state erased : Nat) (c : Chip) : Chip :=
  raise 0x0E00 4 0x7F (le 1 source ++ le 1 (vget c.sec.actions source) ++ le 1 state ++ le 1 erased ++ le 4 (vget c.sec.counts source) ++ zeros 4) c

/-- Action 2 zeroes all 8 slots and clears the model store; actions 1 and 2 latch LOCKDOWN (R526). DEDUCED: log entry 218. -/
def tamperActs (action : Nat) (c : Chip) : Chip :=
  let c := if action = 2 then clearModels (modSec (fun s => { s with keys := Vector.replicate 8 none, keyGeneration := 0 }) c) else c
  if action = 0 then c else modSec (fun s => { s with latch := true }) c

/-- A source asserts. Without main power only the battery domain acts, the glitch detectors are off, and the event waits for the next
boot (R525, R526). -/
def tamperAssert (source : Nat) (powered : Bool) (c : Chip) : Chip :=
  if vget c.sec.asserted source || (!powered && (source == 6 || source == 7)) then c
  else
    let action := vget c.sec.actions source
    let (n, c) := satAdd 0x0E05 (4 + 4 * source) 0 32 (vget c.sec.counts source) 1 c
    let c := modSec (fun s => { s with asserted := vset s.asserted source true, counts := vset s.counts source n }) c
    let c := tamperActs action c
    if !powered || !raisesEvents c then
      (let c := modSec (fun s => { s with unreported := s.unreported ++ [source] }) c
       if powered && action != 0 then enterLockdown c else c)
    else
      let c := tamperEvent source 1 (if action = 2 then 0xFF else 0) c
      if action = 0 then c else enterLockdown c

def execTamperAssert (t : Nat) (source : Fin 9) (powered : Bool) (s : State) : Host.Outcome State Fault Refusal :=
  .next (s.run t fun _ c => tamperAssert source powered c)

/-- TAMPER_CLEAR: a source deasserts (R530). -/
def tamperClear (source : Nat) (powered : Bool) (c : Chip) : Chip :=
  if !vget c.sec.asserted source then c
  else
    let c := modSec (fun s => { s with asserted := vset s.asserted source false }) c
    if powered then tamperEvent source 0 0 c else c

def execTamperClear (t : Nat) (source : Fin 9) (powered : Bool) (s : State) : Host.Outcome State Fault Refusal :=
  .next (s.run t fun _ c => tamperClear source powered c)

/-- SEC.TAMPER_CONFIGURE: a stricter action on an asserted source acts at once. DEDUCED: log entry 218. -/
def tamperConfigure (_ : Env) (j : Job) (c : Chip) : Reply :=
  let p := j.payload
  let new (k : Nat) : Nat := if rd p k 1 = 0xFF then vget c.sec.actions k else rd p k 1
  checked ((lenIs 12 j :: (List.range 9).map fun k => param k ([0, 1, 2, 0xFF].contains (rd p k 1))) ++ [param 9 (rd p 9 1 < 16), reserved p 10 2]) c
    (let due := maxOf ((List.range 9).map fun k => if vget c.sec.asserted k && decide (vget c.sec.actions k < new k) then new k else 0)
     let c := modSec (fun s => { s with actions := vmapIdx (fun k _ => new k) s.actions, switchActiveLow := rd p 9 1 }) c
     let c := if due = 0 then c else enterLockdown (tamperActs due c)
     replyBody (le 2 (packBits c.sec.asserted.toList) ++ le 1 (b2n c.sec.latch) ++ [0] ++ c.sec.counts.toList.flatMap (le 4)) c)

def execSecTamperConfigure (t : Nat) (mb : Fin 8) (s : State) : Host.Outcome State Fault Refusal := .next (s.command 0x0E05 t mb tamperConfigure)

end Sys2Proof.Machine
end

