-- ==== Sys2Proof/Machine/Boot.lean ====
section
/-! DEFINITION. Reset and boot (R505, R538 to R543): POWER_ON_RESET, RESET_N_ASSERT, SUPPLY_RESET, PERST_N_RISE and
BOOT_COMPLETE. -/
namespace Sys2Proof.Machine

/-! ### Resets (R543) -/

/-- What every reset keeps: the battery domain, fuses and flash contents, the retired extents among them (R431).
DEDUCED: log entry 183. DESIGN CHOICE: log entry 220. -/
def resetAll (c : Chip) : Chip :=
  let x := c.sec
  emit .bulkLost {
    now := c.now, fresh := c.fresh, out := c.out
    modes := { since := c.now }
    gp := c.gp
    fw := { c.fw with running := c.fw.bootBank, stage := none, activating := none }
    dram := { spareExtents := c.dram.spareExtents, retired := c.dram.retired }
    life := { areaA := c.life.areaA, areaB := c.life.areaB, nextSequence := c.life.nextSequence }
    sec := {
      fuses := x.fuses, keys := x.keys, keyGeneration := x.keyGeneration, failures := x.failures, latch := x.latch, actions := x.actions
      switchActiveLow := x.switchActiveLow, asserted := x.asserted, counts := x.counts, unreported := x.unreported
      resetCause := x.resetCause } }

/-- THERMAL-HALT outlives a reset that leaves VDD_CORE up. -/
def keepHalt (was : Bool) (c : Chip) : Chip :=
  if was then modModes (fun m => { m with thermalHalt := true, primary := 11, previous := 11 }) c else c

/-- RESET_N: as power-on, but THERMAL-HALT stays. DESIGN CHOICE: log entry 220. -/
def resetN (c : Chip) : Chip := keepHalt c.modes.thermalHalt (modModes (fun m => { m with powerOn := false }) (resetAll c))

def execResetNAssert (t : Nat) (s : State) : Host.Outcome State Fault Refusal := .next (s.run t fun _ c => resetN c)

/-- A supply monitor resets the device: the battery domain latches it, and only VDD_CORE clears THERMAL-HALT. Monitor 31, VBAT, has no
reset level (R502, R505). -/
def supplyReset (monitor : Nat) (c : Chip) : Chip :=
  if monitor = 31 then c
  else
    let c' := modModes (fun m => { m with powerOn := false }) (resetAll c)
    keepHalt (c.modes.thermalHalt && decide (16 ≤ monitor)) (modSec (fun s => { s with resetCause := some monitor }) c')

def execSupplyReset (t : Nat) (monitor : Fin 32) (s : State) : Host.Outcome State Fault Refusal :=
  .next (s.run t fun _ c => supplyReset monitor c)

/-- The battery domain has lost its contents: the keys are gone, the rest of it is open, and tamper source 5 counts as asserted
(R526). DESIGN CHOICE: log entry 220. -/
def batteryLost (c : Chip) : Chip :=
  let f (k : Nat) : Nat := Config.freeValue (c.fresh + k)
  let c := { c with fresh := c.fresh + 24 }
  let c := modSec (fun s => { s with
    keys := Vector.replicate 8 none, keyGeneration := 0, resetCause := none, unreported := []
    latch := f 0 % 2 == 1, failures := f 1 % 2 ^ 32, switchActiveLow := f 2 % 16
    actions := vmapIdx (fun k _ => f (3 + k) % 3) s.actions, counts := vmapIdx (fun k _ => f (12 + k) % 2 ^ 32) s.counts
    asserted := Vector.replicate 9 false }) c
  tamperAssert 5 false c

/-- First power: everything outside the battery domain and fuses; at its end the levels of the GP banks are sensed (R572). DESIGN CHOICE: log entry 220. -/
def powerOnReset (lost : Bool) (bankA bankB : GpBank) (c : Chip) : Chip :=
  let c := { resetAll c with gp := #v[bankA, bankB] }
  if lost then batteryLost c else c

def execPowerOnReset (t : Nat) (batteryLost : Bool) (bankA bankB : GpBank) (s : State) : Host.Outcome State Fault Refusal :=
  .next (s.run t fun _ c => powerOnReset batteryLost bankA bankB c)

/-! ### The boot timeline (R541) -/

/-- Resets the host interface (R436): the jobs that run on DMA channels end, then the host link is reset. -/
def hostInterfaceReset (c : Chip) : Chip := linkReset (stopJobs c)

/-- A later PERST_N, hot reset, Function Level Reset or link-down (R436, R543, R544). -/
def execHostInterfaceReset (t : Nat) (_kind : Fin 4) (width speed : Nat) (s : State) : Host.Outcome State Fault Refusal :=
  .next (s.run t fun _ c =>
    let c := hostInterfaceReset c
    { c with pcie := trained width speed c.pcie })

/-- The first rise of PERST_N after a reset: fuses are loaded, which fixes the personality and the node ID (R5, R556), the Sundial
starts within 20 ms at 0 s (R345), the configuration space serves its identity (R433, R434) and the responder answers every mailbox (R474). DEDUCED: log entry 145. -/
def perstRise (width speed : Nat) (c : Chip) : Chip :=
  if c.modes.perstSeen then c
  else
    let (d, c) := freeNat c
    let fuses := vmapIdx (fun _ (f : Fuse) => { f with inEffect := f.fused }) c.sec.fuses
    let c := { c with
      pcie := trained width speed c.pcie
      sec := { c.sec with fuses }
      time := { c.time with sun := { c.time.sun with at_ := c.now + d % 20000001 } }
      modes := { c.modes with
        boot := .booting, notReady := .boot c.now, perstSeen := true, perstAt := c.now
        personality := (vget fuses 0).fused, nodeId := (vget fuses 1).fused } }
    emit (.configSpace (pciIdentity c)) c

def execPerstNRise (t width speed : Nat) (s : State) : Host.Outcome State Fault Refusal :=
  .next (s.run t fun _ c => perstRise width speed c)

/-- The bank boot runs (R516): the active bank, else the other; `passes` has a bit for each bank whose image verifies. -/
def bootBankOf (passes : Nat) (c : Chip) : Option Nat :=
  [c.fw.bootBank, 1 - c.fw.bootBank].find? fun b => bit passes b && vget c.fw.valid b

/-- The latch a boot finds: that of the battery domain, or of a source still asserted whose action is 1 or 2 (R528). -/
def bootLatch (c : Chip) : Bool := c.sec.latch || (List.range 9).any fun k => vget c.sec.asserted k && vget c.sec.actions k != 0

/-- No bank passes: RECOVERY, in which the DRAM is not trained (R542), or LOCKDOWN where the latch is set (R532).
DESIGN CHOICE: log entry 220. -/
def bootRecovery (c : Chip) : Chip :=
  let latch := bootLatch c
  reportMode (modSec (fun s => { s with latch }) (modModes (fun m => { m with boot := .recovery, lockdown := latch && !m.thermalHalt }) c))

/-- The life record counts the boot, and enters the cause of a supply reset (R505, R508). -/
def countBoot (c : Chip) : Chip :=
  let c := if c.modes.powerOn then
      (let (n, c) := satAdd 0x0D03 4 0 32 c.life.totals.powerCycles 1 c
       modModes (fun m => { m with powerOn := false }) (modTotals (fun y => { y with powerCycles := n }) c))
    else c
  if c.sec.resetCause.isSome then
    let (n, c) := satAdd 0x0D03 32 0 32 c.life.totals.supplyResets 1 c
    modSec (fun s => { s with resetCause := none }) (causeEntry (modTotals (fun y => { y with supplyResets := n }) c))
  else c

/-- The totals of the life record, each with its offset in LIFE.READ, its instance and its width. -/
def totalFields (y : Totals) : List (Nat × Nat × Nat × Nat) :=
  [(0, 0, 32, y.powerOnHours), (4, 0, 32, y.powerCycles), (8, 0, 32, y.thermalCycles), (12, 0, 32, satU 32 (y.aging / 2 ^ 32 / 225)),
   (28, 0, 32, y.supplyDips), (32, 0, 32, y.supplyResets), (36, 0, 32, y.eccCorrected), (40, 0, 32, y.eccUncorrected),
   (52, 0, 32, y.auditEntries), (56, 0, 56, y.nextDefect), (82, 0, 16, y.retiredExtents), (84, 0, 32, y.entriesDropped)] ++
  (List.range 3).map (fun k => (16 + 4 * k, 0, 32, vget y.throttleS k)) ++
  (List.range 17).map (fun e => (64 + e, e, 8, vget y.takeovers e)) ++
  (List.range 16).map (fun l => (88 + 8 * l, l, 64, vget y.lines l))

/-- Totals at all ones raise EV_COUNTER_SATURATED at each boot (R549). -/
def noteTotals (c : Chip) : Chip :=
  (totalFields c.life.totals).foldl (fun c x => noteSaturated 0x0D03 x.1 x.2.1 x.2.2.1 x.2.2.2 c) c

/-- In the PW1212 personality the Orangery writes with the defaults of LOOKBACK.CONFIGURE (R564). DEDUCED: log entry 100. -/
def bootOrangery (c : Chip) : Chip :=
  if c.modes.personality = 1 then
    { c with orangery := { c.orangery with enable := true, everEnabled := true, ringGib := maxRingGib c } }
  else c

/-- Boot ends on a verified bank (R541): the DRAM is trained or failed, the life record recovered, and the device is in STANDBY, or in
LOCKDOWN under R528; EV_FW_READY, EV_MODE_CHANGE, then the tamper assertions that no event has reported (R526, R530).
DESIGN CHOICE: log entry 221. -/
def bootRuns (bank : Nat) (dram : List (Option BootDram)) (c : Chip) : Chip :=
  let latch := bootLatch c
  let c := bootOrangery (bootDram dram (modFw (fun f => { f with running := bank }) c))
  let c := recoverLife c
  let c := modSec (fun s => { s with latch }) (modModes (fun m => { m with boot := .done, notReady := .no }) c)
  let c := fwReady 0 c
  let c := if latch then enterLockdown c else c
  let c := noteTotals (countBoot (reportMode c))
  let due := c.sec.unreported
  due.foldl (fun c k => tamperEvent k 2 (if vget c.sec.actions k = 2 then 0xFF else 0) c) (modSec (fun s => { s with unreported := [] }) c)

/-- BOOT_COMPLETE. DEDUCED: log entry 218. DESIGN CHOICE: log entry 221. -/
def bootEnds (passes : Nat) (dram : List (Option BootDram)) (c : Chip) : Chip :=
  if c.modes.boot != .booting then c
  else match bootBankOf passes c with
    | none => bootRecovery c
    | some b => bootRuns b dram c

def execBootComplete (t passes : Nat) (dram : List (Option BootDram)) (s : State) : Host.Outcome State Fault Refusal :=
  .next (s.run t fun _ c => bootEnds passes dram c)

end Sys2Proof.Machine
end

