-- ==== Sys2Proof/Machine/System.lean ====
section
/-! DEFINITION. System commands of chapter 18: SYS.GET_INFO, SYS.GET_CAPS, SYS.RESET_SUBSYSTEM and OUT.GET_STATS. -/
namespace Sys2Proof.Machine

/-! ### SYS.GET_INFO and SYS.GET_CAPS -/

/-- The response of SYS.GET_INFO, with the identity a personality's command set gives (R559). The DRAM figures are 0 where it is not
trained. DESIGN CHOICE: log entry 221. -/
def infoBody (part revision : Nat) (c : Chip) : List Byte :=
  let run := c.fw.running
  let other := 1 - run
  let rom := c.modes.boot == .recovery
  let flags := packBits [c.dram.failed, (vget c.sec.fuses 4).fused == 1, vget c.fw.valid other, rom]
  le 2 part ++ le 1 revision ++ le 1 c.modes.personality ++ le 8 Config.serial ++ le 1 c.modes.nodeId ++ le 1 run ++ le 2 flags ++
  le 4 (vget c.fw.version run) ++ le 4 (rollbackStep c) ++ le 4 (if vget c.fw.valid other then vget c.fw.version other else 0) ++
  le 1 c.pcie.width ++ le 1 c.pcie.speed ++ le 2 (if c.dram.failed || rom then 0 else (vget c.dram.ch 0).speed) ++
  le 4 (if rom then 0 else dramGib c) ++ le 4 (satU 32 ((c.now - c.modes.perstAt) / 1000000000)) ++
  le 6 (Config.mac 0) ++ le 6 (Config.mac 1) ++ zeros 12

/-- SYS.GET_INFO. -/
def getInfo (_ : Env) (j : Job) (c : Chip) : Reply := checked [lenIs 0 j] c (replyBody (infoBody 0x1640 0xB0 c) c)

def execSysGetInfo (t : Nat) (mb : Fin 8) (s : State) : Host.Outcome State Fault Refusal := .next (s.command 0x0100 t mb getInfo)

/-- The response of SYS.GET_CAPS (R3, R19). -/
def capsBody : List Byte :=
  [16, 17, 8, 4, 8, 4, 8, 32] ++ le 4 262144 ++ le 4 65536 ++ le 2 8 ++ le 2 32 ++ le 2 64 ++ [4, 64] ++ le 4 4096 ++ le 4 16 ++
  le 4 32768 ++ [4, 4, 16, 8] ++
  [24576, 2048, 8192, 2048, 4096, 8192, 1024, 1024, 4096, 2048, 6144, 2048].flatMap (le 4)

/-- SYS.GET_CAPS. -/
def getCaps (_ : Env) (j : Job) (c : Chip) : Reply := checked [lenIs 0 j] c (replyBody capsBody c)

def execSysGetCaps (t : Nat) (mb : Fin 8) (s : State) : Host.Outcome State Fault Refusal := .next (s.command 0x0101 t mb getCaps)

/-! ### SYS.RESET_SUBSYSTEM -/

/-- Counters of the ports and lanes. -/
def clearPortStats (c : Chip) : Chip :=
  { c with
    port := vmapIdx (fun _ x => x.clearLinks) c.port
    lane := vmapIdx (fun l x => { x with
      linesReceived := 0, linesLost := 0, unsolicited := 0, bufferPeak := if x.port.isSome then laneFill c l else 0 }) c.lane
    enc := vmapIdx (fun _ x => { x with illegalCount := 0 }) c.enc
    corr := vmapIdx (fun _ x => { x with obClamped := 0, flickerHolds := 0, flickerClamped := 0 }) c.corr }

/-- Counters of the pipeline, those that restart at each read among them. -/
def clearPipeStats (c : Chip) : Chip :=
  let c := labellingRead c
  { c with
    seam := vmapIdx (fun _ x => { x with measurements := 0, heldEntries := 0 }) c.seam
    det := { c.det with frozenLines := 0, varSaturations := 0, streakEvaluations := 0 }
    carry := { c.carry with exhaustionEntries := 0, denseRecords := 0 }
    records := { c.records with droppedTotal := 0, emitted := 0, gapRecords := 0, smallDiscarded := 0 }
    tiles := { c.tiles with written := 0, lost := 0, unavailable := 0, notFound := 0 }
    abacus := { c.abacus with classified := 0, defaultOutcomes := 0, replayClassified := 0, peakRate := 0 }
    rotunda := { c.rotunda with binned := 0, noPhase := 0, untracked := 0, resets := 0 }
    orangery := { c.orangery with blocksLost := 0, stagingPeak := stagingFill c.orangery }
    gang := { c.gang with
      splits := 0, framesRetried := 0, imports := 0, seam := { c.gang.seam with measurements := 0, heldEntries := 0 } } }

/-- Counters of outputs, time, memory and the host side. -/
def clearUnitStats (c : Chip) : Chip :=
  { c with
    axis := vmapIdx (fun _ x => { x with stalls := 0, missedMarks := 0, marksFired := 0 }) c.axis
    view := vmapIdx (fun _ x => { x with dropped := 0 }) c.view
    time := { c.time with
      sun := { c.time.sun with steps := 0 }
      eth := vmapIdx (fun _ x => { x with
        syncReceived := 0, delayExchanges := 0, pathOutliers := 0, pathSteps := 0, txtsOverflows := 0, txtsPeak := x.txts.length }) c.time.eth
      capture := vmapIdx (fun _ x => { x with captured := 0, dropped := 0 }) c.time.capture }
    aux := { c.aux with dropped := 0 }
    dram := { c.dram with ch := vmapIdx (fun _ x => { x with
      corrected := 0, uncorrected := 0, rfmIssued := 0, throttleEvents := 0, panicWriter := 0, panicBelvedere := 0, retrains := 0 }) c.dram.ch }
    health := { c.health with roundsDiscarded := 0 }
    supply := { c.supply with dipsSinceBoot := 0, sramCorrected := 0, sramUncorrected := 0 }
    evq := { c.evq with lostTotal := 0 }
    mbx := { c.mbx with mb := vmapIdx (fun _ m => { m with ignored := 0 }) c.mbx.mb } }

/-- A sticky overflow bit that is no statistics counter's: of the life record, of the tamper monitor, of MD and the trigger number.
DEDUCED: log entry 222. -/
def keepsSticky (x : Nat × Nat × Nat) : Bool := x.1 == 0x0D03 || x.1 == 0x0E05 || (x.1 == 0x0301 && x.2.1 != 24)

/-- Target 1: every statistics counter outside the life record, with its sticky bit (R549). DEDUCED: log entry 222. -/
def clearStats (c : Chip) : Chip :=
  let c := clearUnitStats (clearPipeStats (clearPortStats c))
  { c with saturated := c.saturated.filter keepsSticky }

/-- Target 2: an auxiliary channel starts anew (R384 cause 0). -/
def auxReset (k : Nat) (c : Chip) : Chip :=
  if (vget c.aux.ch k).enable then auxSuppress k 0 (modAux k (fun a => { a.clearCic with hb1 := [], hb2 := [], fir := [] }) c) else c

/-- Target 3: the link goes down, and the PTP port is LISTENING again where PTP runs on it. DEDUCED: log entry 222. -/
def ethReset (k : Nat) (c : Chip) : Chip :=
  let c := ethLink k false c
  if (vget c.time.eth k).portState = 3 then c else setPortState k 4 c

/-- SYS.RESET_SUBSYSTEM; the response of target 0 is written before the reset. DEDUCED: log entry 222. -/
def resetSubsystem (env : Env) (j : Job) (c : Chip) : Reply :=
  let p := j.payload
  let k := rd p 1 1
  let target := rd p 0 1
  checked
    [lenIs 4 j, inRange p 0 1 0 4, param 1 (if target = 2 then k < 8 else if 3 ≤ target then k < 2 else true), reserved p 2 2,
     stateRule c (match target with
       | 2 => !lampInUse c k || mode c == 4 || mode c == 5
       | 4 => [4, 6, 7, 8, 9].contains (mode c)
       | _ => true)] c
    (match target with
     | 0 => reply stOk (hostInterfaceReset (respond env.mb stOk 0 [] c))
     | 1 => reply stOk (clearStats c)
     | 2 => reply stOk (auxReset k c)
     | 3 => reply stOk (ethReset k c)
     | _ => reply stOk (if c.gang.cfg.uses k then sarecLost (c.gang.cfg.linkAt k) c else c))

def execSysResetSubsystem (t : Nat) (mb : Fin 8) (s : State) : Host.Outcome State Fault Refusal := .next (s.command 0x0104 t mb resetSubsystem)

/-! ### OUT.GET_STATS (R485) -/

/-- The newest stitched line. DEDUCED: log entry 223. -/
def snapshotTrigger (c : Chip) : Nat := c.perg.next - 1

/-- The sections a request selects. -/
def statSections (p : List Byte) : Nat := if rd p 0 1 = 0 then 31 else rd p 0 1

/-- The sections, ascending; `seams` is how many seam records there are. DEDUCED: log entry 223. -/
def statsBody (seams sections : Nat) (c : Chip) : List Byte :=
  let part (k : Nat) (x : List Byte) : List Byte := if bit sections k then x else []
  let x := part 0 ((List.range seams).flatMap (seamRecord c)) ++ part 1 (detectionRecord c) ++ part 2 (labellingRecord c) ++
    part 3 (classifierRecord c) ++ part 4 (recurrenceRecord c)
  le 1 sections ++ [0, 0, 0] ++ le 4 (16 + x.length) ++ le 8 (snapshotTrigger c) ++ x

/-- What restarts in the sections returned. -/
def statsRead (sections : Nat) (c : Chip) : Chip :=
  let c := if bit sections 2 then labellingRead c else c
  let c := if bit sections 3 then { c with abacus := { c.abacus with peakRate := 0 } } else c
  if bit sections 4 then recurrenceRead c else c

/-- OUT.GET_STATS with a number of seam records. -/
def getStats (seams : Nat) (_ : Env) (j : Job) (c : Chip) : Reply :=
  let k := statSections j.payload
  checked [lenIs 4 j, param 0 (k < 32), reserved j.payload 1 3] c (replyBody (statsBody seams k c) (statsRead k c))

def execOutGetStats (t : Nat) (mb : Fin 8) (s : State) : Host.Outcome State Fault Refusal := .next (s.command 0x0705 t mb (getStats 15))

end Sys2Proof.Machine
end

