-- ==== Sys2Proof/Machine/Image.lean ====
section
/-! DEFINITION. Configuration images (R486 to R488): the records of the configuration in force, SYS.EXPORT_CONFIG, and the reading,
validation and application of an image by SYS.IMPORT_CONFIG. -/
namespace Sys2Proof.Machine

/-- A record of an image: its command, its request payload. -/
abbrev ImageRecord := Nat × List Byte

/-! ### Records of the commands that are not staged -/

/-- PORT.CONFIGURE of each port in Host role, VCAM.CONFIGURE of each enabled virtual camera, LANE.MAP. DEDUCED: log entry 230. -/
def portRecords (c : Chip) : List ImageRecord :=
  (((List.range 16).filter fun n => (vget c.port n).state != .device).map fun n =>
    let x := vget c.port n
    (0x0201, le 1 n ++ [0] ++ le 1 (packBits [x.power, x.autoRecover]) ++ [0] ++ le 4 x.lineTimeoutUs ++ le 4 x.dataLatencyMinNs ++
      le 2 x.codeErrorLimit ++ le 2 x.pocBlankMs ++ le 2 x.controlTimeoutMs ++ zeros 14)) ++
  (((List.range 4).filter fun k => (vget c.vcam k).enabled).map fun k =>
    let v := vget c.vcam k
    let g := v.next.getD v.cfg
    (0x0207, le 1 k ++ le 1 g.port ++ [1] ++ le 1 (b2n g.mono12p) ++ le 1 g.links ++ le 1 g.speed ++ le 2 g.cdDecimation ++
      le 4 g.firstColumn ++ le 4 g.columnCount ++ le 2 g.mdDecimation ++ le 2 g.linesPerImage ++ zeros 12)) ++
  [(0x0205, ((List.range 16).flatMap fun l => le 1 ((vget c.lane l).port.getD 0xFF)) ++ zeros 16)]

/-- Code of an encoder form (R54). -/
def EncForm.code : EncForm → Nat
  | .quadrature => 0
  | .stepDir => 1
  | .upDown => 2

/-- ENC.CONFIGURE of each configured channel, TRIG.CONFIGURE. -/
def encoderRecords (c : Chip) : List ImageRecord :=
  (((List.range 8).filter fun k => (vget c.enc k).configured).map fun k =>
    let e := vget c.enc k
    (0x0300, le 1 k ++ le 1 e.form.code ++ le 1 e.glitchSamples ++ le 1 (packBits [e.invertA, e.invertB, e.invertZ, e.swapAb, e.indexEnable]) ++
      le 4 e.countsPerRev ++ le 2 e.indexTolerance ++ le 1 (b2n e.realign) ++ le 1 e.directionHysteresis ++ le 1 e.speedAvgLog2 ++ [0] ++
      le 2 e.zeroSpeedTimeout ++ le 8 e.wuPerCount ++ le 1 e.eventVector ++ zeros 7)) ++
  (let t := c.trig
   [(0x0302, le 1 t.mainChannel ++ le 1 (packBits [t.cxpDelayComp, t.trigoutActiveLow]) ++ le 2 t.trigoutWidthNs ++ le 2 t.cxpTriggerMask ++
      le 2 t.trigoutMask ++ le 4 t.minPeriodReq ++ zeros 4 ++ le 8 t.mdStart)])

/-- PTP.CONFIGURE item 0 and both ports, SERVO.CONFIGURE. -/
def timeRecords (c : Chip) : List ImageRecord :=
  let k := c.time.clock
  let x := c.time.servo
  [(0x0A02, zeros 4 ++ le 1 k.profile ++ le 1 k.domain ++ le 1 k.priority1 ++ le 1 k.priority2 ++ le 1 k.clockClass ++
      le 1 (packBits [k.slaveOnly, k.twoStep]) ++ [0, 0] ++ leS 1 k.logSync ++ leS 1 k.logAnnounce ++ leS 1 k.logMinDelayReq ++
      le 1 k.announceReceiptTimeout)] ++
  ((List.range 2).map fun n =>
    let e := vget c.time.eth n
    (0x0A02, [1] ++ le 1 n ++ [0, 0] ++ le 1 (b2n e.enable) ++ le 1 e.speed ++ le 1 (b2n e.udp) ++ le 1 (packBits [e.ptpEnable, e.vlanTagged]) ++
      le 6 e.mac ++ [0, 0] ++ le 4 e.ipv4 ++ le 4 e.netmask ++ le 4 e.gateway ++ le 2 e.vlanTci ++ [0, 0] ++ leS 4 e.delayAsymmetryPs ++
      leS 4 e.ingressLatencyPs ++ leS 4 e.egressLatencyPs)) ++
  [(0x0A04, le 1 x.source ++ le 1 c.time.sun.freqRef ++ le 1 (packBits [x.acquireStepOnly, x.ppsFalling, x.ppsOutEnable]) ++ le 1 x.lockCount ++
      le 4 x.kp ++ le 4 x.ki ++ le 4 x.stepThresholdNs ++ le 4 x.lockThresholdNs ++ le 4 x.pathStepNs ++ le 4 x.pathHoldS ++
      leS 4 x.ppsInOffsetNs ++ le 2 x.ppsOutWidthMs ++ [0, 0])]

/-- AUX.CONFIGURE item 1 of each channel, AUX.TONE_CONFIGURE of each enabled detector. -/
def auxRecords (c : Chip) : List ImageRecord :=
  ((List.range 8).map fun k =>
    let a := vget c.aux.ch k
    let (off, gain) := a.nextCorrection.getD (a.offset, a.gain)
    (0x0C00, [1] ++ le 1 k ++ [0, 0] ++ le 1 (b2n a.enable) ++ le 1 (b2n a.single) ++ le 1 a.cicLog2 ++ le 1 a.halfbands ++ le 1 a.firDecimLog2 ++
      le 1 (b2n a.stream) ++ le 2 a.guardSamples ++ le 1 a.muxGpio ++ zeros 3 ++ leS 4 off ++ le 4 gain ++ zeros 8)) ++
  (((List.range 2).filter fun d => (vget c.aux.tone d).enable).map fun d =>
    let x := vget c.aux.tone d
    (0x0C03, le 1 d ++ [1] ++ le 1 x.channel ++ [0] ++ le 4 x.frequencyMhz ++ le 4 x.blockLength ++ le 4 x.onThreshold ++ le 4 x.offThreshold))

/-- AXIS.CONFIGURE of each configured axis, with driver enable clear. -/
def axisRecords (c : Chip) : List ImageRecord :=
  ((List.range 4).filter fun k => (vget c.axis k).configured).map fun k =>
    let a := (vget c.axis k).cfg
    (0x0B00, le 1 k ++ le 1 (packBits [false, a.retainPhase, a.adapt, a.fastDecay]) ++ le 1 a.microstepLog2 ++ le 1 a.encoder ++ le 2 a.runCurrent ++
      le 2 a.holdCurrent ++ le 2 a.homeCurrent ++ le 2 a.windowH ++ le 2 a.blankNs ++ le 2 a.compDelayNs ++ le 2 a.holdDelayMs ++
      le 1 a.swNegGpio ++ le 1 a.swPosGpio ++ le 1 a.swFlags ++ zeros 3 ++ le 8 a.vMax ++ le 4 a.aMax ++ le 4 a.jMax ++ le 4 a.stopDecel ++
      leS 4 a.microstepsPerCount ++ le 4 a.devWindow ++ le 4 a.stallTimeUs ++ leS 8 a.posMin ++ leS 8 a.posMax)

/-- LOOKBACK.CONFIGURE, VIEW.CONFIGURE of the streams delivered on Ethernet. -/
def viewRecords (c : Chip) : List ImageRecord :=
  let o := c.orangery
  [(0x0800, le 1 (packBits [o.enable, o.depth8]) ++ zeros 3 ++ le 4 o.ringGib ++ le 4 o.flushMs ++ zeros 4)] ++
  (((List.range 4).filter fun k => (vget c.view k).configured && (vget c.view k).cfg.delivery != 0).map fun k =>
    let v := (vget c.view k).cfg
    (0x0702, le 1 k ++ le 1 v.method ++ le 2 v.cdDecimation ++ le 2 v.mdDecimation ++ le 2 v.frameHeight ++ le 4 v.firstColumn ++ le 4 v.columnCount ++
      le 1 v.frameRate ++ le 1 (packBits [v.overlay, v.boxes]) ++ le 1 v.overlayPlanes ++ le 1 v.delivery ++ le 1 v.payloadType ++ [0] ++
      le 2 v.packetPayload ++ le 4 v.destIp ++ le 2 v.destPort ++ [0, 0] ++ le 6 v.destMac ++ zeros 26))

/-- GANG.CONFIGURE, THERMAL.CONFIGURE. -/
def gangRecords (c : Chip) : List ImageRecord :=
  let g := c.gang.cfg
  let s := c.gang.seam
  let h := c.health
  [(0x0F00, le 1 g.size ++ le 1 g.position ++ le 1 (b2n g.ring) ++ le 1 (packBits [g.autoRejoin, g.localEncoder, s.hard, s.track]) ++ le 2 s.zoneWidth ++
      le 2 s.cutOffset ++ le 4 g.overlap ++ le 4 g.rejoinDistance ++ le 2 s.confThreshold ++ le 2 s.textureMin ++ le 1 s.corrLinesLog2 ++
      le 1 s.maxStepCd ++ le 1 s.maxStepMd ++ zeros 9),
   (0x0D01, leS 2 h.warn.value ++ leS 2 h.request.value ++ leS 2 h.level2.value ++ leS 2 h.level3.value ++ leS 2 h.halt.value ++ [0, 0] ++ le 4 h.graceMs)]

/-! ### Records of the staged commands; `transaction_id` is 0 -/

/-- A staged record. -/
def stagedRecord (code : Nat) (p : List Byte) : ImageRecord := (code, zeros 4 ++ p)

/-- TRIG.SET_PITCH and WEB.SET_GEOMETRY, where set. -/
def webRecords (x : Settings) : List ImageRecord :=
  (if x.pitchNum = 0 then [] else [stagedRecord 0x0303 (le 4 x.pitchNum ++ le 2 x.pitchDen ++ [0, 0])]) ++
  (if x.geo.cdPitch = 0 then [] else
    [stagedRecord 0x0304 (le 4 x.geo.cdPitch ++ leS 4 x.geo.column0 ++ le 4 x.geo.columnCount ++ x.geo.viewOffset.toList.flatMap (le 4))])

/-- PIPE.SET_CORRECTION of a lane: item 0 where the lane has parameters, item 1 over the camera width, item 2 where it has a map.
DEDUCED: log entry 230. -/
def correctionRecords (c : Chip) (x : Settings) (l : Nat) : List ImageRecord :=
  let b := vget x.banks l
  let q := b.params
  let w := laneWidth c l
  (if q.activeFirst < q.activeLast then
    [stagedRecord 0x0500 ([0] ++ le 1 l ++ [0, 0] ++ le 2 q.activeFirst ++ le 2 q.activeLast ++ le 2 q.obFirst ++ le 2 q.obCount ++ le 1 q.obTauLog2 ++
      le 1 q.lampChannel ++ le 1 (b2n q.linear) ++ le 1 (packBits [q.saturatePropagate, q.obEnable, q.flickerEnable]) ++ le 2 q.obDriftLimit ++ [0, 0] ++
      leS 4 q.lampRef ++ leS 4 q.exposureMidNs)] else []) ++
  ((List.range (ceilDiv w 1000)).map fun i =>
    let n := min 1000 (w - 1000 * i)
    stagedRecord 0x0500 ([1] ++ le 1 l ++ [0, 0] ++ le 2 (1000 * i) ++ le 2 n ++ zeros 4 ++ tableBytes ((List.range n).map fun u => b.entry (1000 * i + u)))) ++
  (match b.map with
   | some g => [stagedRecord 0x0500 ([2] ++ le 1 l ++ [0, 0] ++ segmentBytes g)]
   | none => [])

/-- PIPE.SET_STITCH of a seam, its position among it. DEDUCED: log entry 230. -/
def stitchRecord (x : Settings) (k : Nat) : ImageRecord :=
  let s := vget x.seams k
  let (dc, dm) := ((s.next.getLast?).map fun y => (y.1, y.2.1)).getD (s.dc, s.dm)
  stagedRecord 0x0501 (le 1 k ++ le 1 (b2n s.hard) ++ le 1 (packBits [s.track, true]) ++ [0] ++ le 4 s.zoneFirst ++ le 2 s.zoneWidth ++ le 2 s.cutOffset ++
    le 2 s.confThreshold ++ le 2 s.textureMin ++ le 1 s.corrLinesLog2 ++ le 1 s.maxStepCd ++ le 1 s.maxStepMd ++ leS 1 dc ++ leS 1 dm ++ zeros 3)

/-- Runs of equal neighbours of a list, as first index, length and value. -/
def equalRuns {α : Type} [DecidableEq α] : Nat → List α → List (Nat × Nat × α)
  | _, [] => []
  | i, a :: as =>
    match equalRuns (i + 1) as with
    | (j, n, b) :: rest => if a = b then (i, n + 1, b) :: rest else (i, 1, a) :: (j, n, b) :: rest
    | [] => [(i, 1, a)]

/-- PIPE.SET_DETECTION of every band range and plane. -/
def detectionRecords (x : Settings) : List ImageRecord :=
  let bands := if x.geo.columnCount = 0 then 1024 else ceilDiv x.geo.columnCount 256
  ((equalRuns 0 ((List.range bands).map fun b => bandOf x (256 * b))).map fun (r : Nat × Nat × Band) =>
    let b := r.2.2
    stagedRecord 0x0503 (zeros 4 ++ le 2 r.1 ++ le 2 r.2.1 ++ b.mult.flatMap (le 2) ++ b.floor.flatMap (le 2) ++ b.ceiling.flatMap (le 2) ++
      le 1 b.planeEnable ++ zeros 3)) ++
  (List.range 8).map fun k =>
    let q := vget x.planes k
    stagedRecord 0x0503 ([1, 0, 0, 0] ++ le 1 k ++ le 1 q.source ++ le 1 q.polarity ++ le 1 q.morphOp ++ le 1 q.morphW ++ le 1 q.morphH ++ le 2 q.level ++ zeros 4)

/-- PIPE.SET_FILTERS of each unit. -/
def filterRecords (x : Settings) : List ImageRecord :=
  ((List.range 3).map fun u =>
    let f := vget x.filters u
    stagedRecord 0x0504 (le 1 u ++ le 1 f.kind ++ le 1 f.width ++ le 1 f.height ++ le 1 f.shiftH ++ le 1 f.shiftV ++ [0, 0] ++ f.coeff.flatMap (leS 2))) ++
  [stagedRecord 0x0504 ([3] ++ le 1 (b2n x.streak.on) ++ le 1 x.streak.windowLog2 ++ le 1 x.streak.group ++ [0, 0] ++ le 2 x.streak.clip)]

/-- PIPE.SET_REFERENCE, PIPE.SET_LABELLING and PIPE.SET_TILES. -/
def referenceRecord (x : Settings) : ImageRecord :=
  let r := x.reference
  stagedRecord 0x0502 (le 1 r.tauLog2 ++ le 1 r.mdTauLog2 ++ le 1 (packBits [false, r.mdProfile]) ++ le 1 r.freezeMask ++ le 1 r.freezeGuardCd ++ [0] ++
    le 2 r.freezeLinePermille ++ le 2 r.sigmaMin ++ le 2 r.sigmaInit ++ le 2 r.mdProfileLimit ++ le 2 r.readyUpdates ++ zeros 4)

def labellingRecordOf (x : Settings) : ImageRecord :=
  stagedRecord 0x0505 (le 1 x.planeSelect ++ le 1 x.segmentLinesLog2 ++ [0, 0] ++ le 4 x.minArea ++ zeros 4)

def tilesRecord (x : Settings) : ImageRecord :=
  let t := x.tiles
  stagedRecord 0x0508 (le 1 (packBits [t.enable, t.lookback, t.deep]) ++ le 1 t.format ++ le 1 t.compress ++ le 1 t.historyLines ++ le 2 t.tileMin ++
    le 2 t.tileMax ++ le 1 t.margin ++ le 1 t.planes ++ [0, 0] ++ le 4 t.minArea ++ zeros 4)

/-- PIPE.SET_RECURRENCE: the record channels, then each roll channel. -/
def recurrenceRecords (x : Settings) : List ImageRecord :=
  [stagedRecord 0x0507 (zeros 4 ++ le 1 (vget x.recordChannel 0) ++ le 1 (vget x.recordChannel 1) ++ zeros 6)] ++
  (List.range 8).map fun k =>
    let r := vget x.rolls k
    stagedRecord 0x0507 ([1, 0, 0, 0] ++ le 1 k ++ le 1 (b2n r.enable) ++ le 1 r.encoder ++ le 1 r.repeatCount ++ le 1 r.phaseBinsLog2 ++ le 1 r.cdBinLog2 ++
      [0, 0] ++ le 4 r.minArea ++ le 4 r.maxArea ++ le 2 r.maxLines ++ le 1 r.planeMask ++ [0] ++ le 32 r.classMask)

/-- PIPE.LOAD_CLASSIFIER: the container exactly as loaded, in chunks of at most 4 000 bytes. -/
def classifierRecords (x : Settings) : List ImageRecord :=
  match x.model with
  | none => []
  | some m =>
    let k := ceilDiv m.container.length 4000
    (List.range k).map fun i =>
      let data := (m.container.drop (4000 * i)).take 4000
      stagedRecord 0x0506 (le 1 (packBits [i == 0, i + 1 == k]) ++ [0] ++ le 2 data.length ++ le 4 (4000 * i) ++ zeros 4 ++ data)

/-- AUX.LOAD_COEFFS of each current bank that holds a set. -/
def coeffRecords (c : Chip) : List ImageRecord :=
  ((List.range 8).map fun k => (k, vget (vget c.aux.ch k).bank (vget c.aux.ch k).current)).filterMap fun (y : Nat × AuxBank) =>
    if y.2.taps.isEmpty then none
    else some (stagedRecord 0x0C01 (le 1 y.1 ++ le 1 y.2.phaseType ++ le 2 y.2.taps.length ++ y.2.taps.flatMap (leS 4)))

/-- MARK.CONFIGURE of each head that has settings and of each rule. -/
def markRecords (x : Settings) : List ImageRecord :=
  (((List.range 4).filter fun k => (vget x.heads k).ok).map fun k =>
    let h := vget x.heads k
    stagedRecord 0x0B05 ([0] ++ le 1 k ++ le 1 (b2n h.enable) ++ [0] ++ le 1 h.axis ++ le 1 h.pulseOutput ++ le 1 (b2n h.activeLow) ++ [0] ++
      le 4 h.fireWidthNs ++ le 4 h.downstream ++ leS 4 h.lead ++ le 4 h.fireTolerance ++ leS 4 h.cdAtZero ++ leS 4 h.wuPerMicrostep ++ le 4 h.cdTolerance ++
      le 4 h.settleUs ++ zeros 12)) ++
  (List.range 16).map fun i =>
    let r := vget x.rules i
    stagedRecord 0x0B05 ([1] ++ le 1 i ++ le 1 (b2n r.enable) ++ [0] ++ le 1 r.headMask ++ le 1 r.planeMask ++ le 1 r.anchor ++ le 1 r.minConfidence ++
      le 2 r.flagsRequired ++ le 2 r.flagsForbidden ++ le 4 r.minArea ++ le 4 r.maxArea ++ le 32 r.classMask)

/-- The staged records, in the order of R487. DEDUCED: log entry 230. -/
def stagedRecords (c : Chip) (x : Settings) : List ImageRecord :=
  webRecords x ++ (mappedLanes c).flatMap (correctionRecords c x) ++
  ((List.range 15).filter fun k => laneMapped c k && laneMapped c (k + 1)).map (stitchRecord x) ++ [referenceRecord x] ++ detectionRecords x ++
  filterRecords x ++ [labellingRecordOf x, tilesRecord x] ++ recurrenceRecords x ++ classifierRecords x ++ coeffRecords c ++ markRecords x

/-- Every record of the image, in the order of R487. Staged settings are those of the newest stitched line while the pipeline runs.
DEDUCED: log entry 230. -/
def imageRecords (c : Chip) : List ImageRecord :=
  let x := if pipelineRuns c then settingsAt c (snapshotTrigger c) else settingsOf c
  portRecords c ++ encoderRecords c ++ timeRecords c ++ auxRecords c ++ axisRecords c ++ viewRecords c ++ gangRecords c ++ stagedRecords c x

/-! ### The image (R486) -/

/-- A record as bytes: its header, its payload, zeros to a multiple of 8. -/
def imageRecordBytes (r : ImageRecord) : List Byte :=
  le 2 r.1 ++ le 2 r.2.length ++ zeros 4 ++ r.2 ++ zeros ((8 - r.2.length % 8) % 8)

/-- The image of a configuration. -/
def imageOf (c : Chip) : List Byte :=
  let rs := imageRecords c
  let body := rs.flatMap imageRecordBytes
  [0x50, 0x57, 0x43, 0x46] ++ le 2 1 ++ [0, 0] ++ le 8 Config.serial ++ le 4 (vget c.fw.version c.fw.running) ++ le 4 rs.length ++
  le 4 (64 + body.length) ++ le 4 (crc32 body) ++ le 8 (snapshotTrigger c) ++ zeros 24 ++ body

/-- Size of the bulk window (R444). -/
def windowBytes : Nat := 268435456

/-- SYS.EXPORT_CONFIG. -/
def exportConfig (_ : Env) (j : Job) (c : Chip) : Reply :=
  let p := j.payload
  let off := rd p 0 4
  let x := imageOf c
  checked
    [lenIs 8 j, param 0 (off % 32 == 0 && decide (off < windowBytes)), stateRule c (!([1, 2, 3].contains (mode c))),
     ownRule stNoSpace (decide (x.length ≤ rd p 4 4) && decide (off + x.length ≤ windowBytes))] c
    (replyBody (le 4 x.length ++ le 4 (imageRecords c).length ++ le 8 (snapshotTrigger c)) (emit (.bulkWrite off x) c))

def execSysExportConfig (t : Nat) (mb : Fin 8) (error : Option ReadError) (s : State) : Host.Outcome State Fault Refusal :=
  .next (s.command 0x0109 t mb (withArea error exportConfig))

/-! ### SYS.IMPORT_CONFIG (R488) -/

/-- Reads n records from the bytes after the header; none where they do not fill them exactly. -/
def readRecords : Nat → List Byte → Option (List ImageRecord)
  | 0, bs => if bs.isEmpty then some [] else none
  | n + 1, bs =>
    let len := rd bs 2 2
    let size := 8 + 8 * ceilDiv len 8
    if bs.length < size then none
    else (readRecords n (bs.drop size)).map fun rs => (rd bs 0 2, (bs.drop 8).take len) :: rs

/-- The command functions of the records that are not staged (R487). -/
def importNow (code : Nat) : Option (Env → Job → Chip → Reply) :=
  match code with
  | 0x0201 => some portConfigure
  | 0x0207 => some vcamConfigure
  | 0x0205 => some laneMap
  | 0x0300 => some encConfigure
  | 0x0302 => some trigConfigure
  | 0x0A02 => some ptpConfigure
  | 0x0A04 => some servoConfigure
  | 0x0C00 => some auxConfigure
  | 0x0C03 => some auxToneConfigure
  | 0x0B00 => some axisConfigure
  | 0x0800 => some lookbackConfigure
  | 0x0702 => some viewConfigure
  | 0x0F00 => some gangConfigure
  | 0x0D01 => some thermalConfigure
  | _ => none

/-- The command functions of the staged records. -/
def importStaged (code : Nat) : Option (Env → Job → Chip → Reply) :=
  match code with
  | 0x0303 => some trigSetPitch
  | 0x0304 => some webSetGeometry
  | 0x0500 => some pipeSetCorrection
  | 0x0501 => some pipeSetStitch
  | 0x0502 => some pipeSetReference
  | 0x0503 => some pipeSetDetection
  | 0x0504 => some pipeSetFilters
  | 0x0505 => some pipeSetLabelling
  | 0x0508 => some pipeSetTiles
  | 0x0507 => some pipeSetRecurrence
  | 0x0506 => some pipeLoadClassifier
  | 0x0C01 => some auxLoadCoeffs
  | 0x0B05 => some markConfigure
  | _ => none

/-- The first record at fault, with the status its command returns, and the device as the records before it leave it. -/
structure ImportRun where
  chip : Chip
  /-- Index, status and detail of the record at fault. -/
  fault : Option (Nat × Nat × Nat) := none
  /-- Record that made each staged entry, in order. -/
  origin : List Nat := []

/-- Runs the record with index i through its command, where no record before it failed. -/
def importRecord (env : Env) (j : Job) (f : Env → Job → Chip → Reply) (i : Nat) (code : Nat) (payload : List Byte) (r : ImportRun) : ImportRun :=
  if r.fault.isSome then r
  else
    let y := f env { j with code, rawCode := code, payload } r.chip
    if y.status = stOk then { r with chip := y.chip } else { r with fault := some (i, y.status, y.detail) }

/-- Stages the record with index i in the transaction `id`. -/
def importStage (env : Env) (j : Job) (id i : Nat) (x : ImageRecord) (r : ImportRun) : ImportRun :=
  match importStaged x.1 with
  | none => r
  | some f =>
    let r := importRecord env j f i x.1 (le 4 id ++ x.2.drop 4) r
    let n := ((openTx r.chip id).map (·.entries.length)).getD 0
    { r with origin := r.origin ++ List.replicate (n - r.origin.length) i }

/-- Applies the record with index i that is not staged; a code the image may not hold is at fault. -/
def importApply (env : Env) (j : Job) (i : Nat) (x : ImageRecord) (r : ImportRun) : ImportRun :=
  if (importStaged x.1).isSome then r
  else match importNow x.1 with
    | some f => importRecord env j f i x.1 x.2 r
    | none => if r.fault.isSome then r else { r with fault := some (i, stBadCmd, 0) }

/-- Response of SYS.IMPORT_CONFIG. -/
def importBody (failed command status id n0 : Nat) : List Byte :=
  le 4 failed ++ le 2 command ++ le 2 status ++ le 4 id ++ zeros 4 ++ le 8 n0

/-- Nothing is applied: the answer names the record at fault, with the status and detail of its command (R476, R488). DEDUCED: log entry
231. -/
def importFails (rs : List ImageRecord) (i status detail : Nat) (c : Chip) : Reply :=
  { status, detail, body := importBody i (((rs[i]?).map (·.1)).getD 0) status 0 0, chip := c }

/-- The records of a sound image: validated in order on a copy of the device, applied together where every one passes.
DEDUCED: log entry 231. -/
def importRecords (env : Env) (j : Job) (rs : List ImageRecord) (c : Chip) : Reply :=
  let step (f : Nat → ImageRecord → ImportRun → ImportRun) (r : ImportRun) : ImportRun :=
    (rs.zipIdx).foldl (fun r y => f y.2 y.1 r) r
  let now := step (importApply env j) { chip := c }
  let (id, open_) := newTx false 0 true now.chip
  let staged := step (importStage env j id) { chip := open_ }
  match now.fault, staged.fault with
  | some (i, st, d), _ => importFails rs i st d c
  | none, some (i, st, d) => importFails rs i st d c
  | none, none =>
    match openTx staged.chip id with
    | none => importFails rs 0 stBadState (mode c) c
    | some x =>
      let y := commitTx x 0 0 0 0 staged.chip
      if y.status = stOk then replyBody (importBody 0xFFFFFFFF 0 0 id c.trig.number) y.chip
      else importFails rs (staged.origin.getD (rd y.body 4 4) 0) y.status y.detail c

/-- SYS.IMPORT_CONFIG. DEDUCED: log entry 231. -/
def importConfig (env : Env) (j : Job) (c : Chip) : Reply :=
  let p := j.payload
  let off := rd p 0 4
  let len := rd p 4 4
  let x := env.bulk.readBytes off (if off + len ≤ windowBytes then len else 0)
  let records := readRecords (rd x 20 4) (x.drop 64)
  let sound := decide (64 ≤ x.length) && rd x 0 4 == 0x46435750 && rd x 24 4 == len && rd x 28 4 == crc32 (x.drop 64)
  checked
    [lenIs 8 j, param 0 (off % 32 == 0 && decide (off < windowBytes)), param 4 (decide (off + len ≤ windowBytes)), stateRule c (mode c == 4),
     ownRule stDataError sound, crossRule (rd x 4 2 == 1 && rd x 6 1 == 0), ownRule stDataError records.isSome,
     ownRule stNoSpace (txCount c < 64)] c
    (importRecords env j (records.getD []) c)

def execSysImportConfig (t : Nat) (mb : Fin 8) (s : State) : Host.Outcome State Fault Refusal := .next (s.command 0x010A t mb importConfig)

end Sys2Proof.Machine
end

