-- ==== Sys2Proof/Machine/Registers.lean ====
section
/-! DEFINITION. Reads of BAR0 (R438, R554, R585 to R593): what each register holds, and the latch of the upper halves. -/
namespace Sys2Proof.Machine

/-- SYS_STATUS. -/
def sysStatus (c : Chip) : Nat :=
  packBits [firmwareRuns c, c.dram.failed, alarm c, c.health.throttleReq, c.sec.latch, c.modes.thermalHalt, c.evq.ring.enabled, noSpare c] +
  2 ^ 8 * c.pcie.width + 2 ^ 12 * c.pcie.speed

/-- Code of a DMA state (R589). -/
def DmaState.code : DmaState → Nat
  | .idle => 0
  | .active => 1
  | .halted => 2
  | .owned => 3

/-- The registers of a DMA channel, by their offset in its block (R442, R589). -/
def dmaRegister (d : Dma) (off : Nat) : Nat :=
  match off with
  | 0x00 => d.state.code + 2 ^ 4 * d.owner + 2 ^ 8 * d.code + 2 ^ 16 * d.detail + 2 ^ 32 * d.completed
  | 0x08 => d.chain
  | 0x18 => b2n d.stopRequested
  | 0x20 => d.tail
  | 0x28 => d.last
  | _ => 0

/-- The ENC block (R592): MD-related registers read 0 before the first anchor. -/
def encRegister (c : Chip) (off : Nat) : Nat :=
  let e := vget c.enc ((off - 0x100) / 16)
  if 0x100 ≤ off ∧ off < 0x180 then
    (if off % 16 = 0 then fromLe (leS 8 e.count) else e.phase + 2 ^ 32 * e.stateBits + 2 ^ 36 * satU 28 (e.speedUm c.now))
  else match off with
  | 0x00 => if c.trig.anchored then mdNow c else 0
  | 0x08 => if c.trig.anchored then hwmNow c else 0
  | 0x10 => c.trig.number
  | 0x18 => nextTarget c
  | _ => 0

/-- SYS_MODE (R586, R587): mode and conditions, which Borusk firmware maintains, read their reset values until it is ready and hold their last
ones through a Lodge restart; THERMAL-HALT, LOCKDOWN and the level are hardware's own. -/
def sysMode (c : Chip) : Nat :=
  let m := c.modes
  let down := lodgeRestarts c
  let shown := if down && !m.thermalHalt && !m.lockdown then m.shownMode else mode c
  let cond := if m.boot == .done then (if down then m.shownConditions else conditions c) else 0
  shown + 2 ^ 8 * c.health.level + 2 ^ 32 * cond

/-- The SYS block (R586, R587). DESIGN CHOICE: log entry 221. -/
def sysRegister (c : Chip) (off : Nat) : Nat :=
  match off with
  | 0x00 => (identity c).1 + 2 ^ 16 * (identity c).2 + 2 ^ 24 * c.modes.personality + 2 ^ 32 * c.modes.nodeId
  | 0x08 => Config.serial % 2 ^ 64
  | 0x10 => sysMode c
  | 0x18 => sysStatus c
  | 0x20 => c.regs.scratch
  | _ => 0

/-- The eight bytes at an offset of the mailboxes' memory (R466). -/
def mailboxRegister (c : Chip) (off : Nat) : Nat :=
  let m := vget c.mbx.mb (off / 4096)
  rd (putB (fit 4096 m.bytes) 9 [BitVec.ofNat 8 (b2n m.owner)]) (off % 4096) 8

/-- The MBX block from 0x0001_8000 (R588); doorbells read 0. -/
def mbxRegister (c : Chip) (off : Nat) : Nat :=
  match off with
  | 0x40 => c.mbx.response
  | 0x48 => packBits (c.mbx.mb.toList.map (·.owner))
  | 0x58 => ((List.range 8).map fun n => 4 ^ n * (granted c n % 4)).foldl (· + ·) 0
  | _ => 0

/-- The EVQ block. -/
def evqRegister (c : Chip) (off : Nat) : Nat :=
  let n := c.evq.fifo.length
  match off with
  | 0x00 => b2n c.evq.ring.enabled + 2 * b2n (n != 0) + 4 * n
  | 0x08 => c.evq.ring.head
  | 0x10 => c.evq.ring.tail
  | 0x18 => c.evq.lostTotal
  | _ => 0

/-- The MSI-X table and the pending-bit array (R591). -/
def msixRegister (c : Chip) (off : Nat) : Nat :=
  let e := vget c.pcie.msix (off / 16)
  if off = 0x800 then packBits (c.pcie.msix.toList.map (·.pending))
  else if off < 1024 then (if off % 16 = 0 then e.addrLo + 2 ^ 32 * e.addrHi else e.data + 2 ^ 32 * b2n e.mask)
  else 0

/-- The eight bytes of BAR0 at an offset that is a multiple of 8, no read counted: 0 where there is no register (R585). -/
def bar0 (c : Chip) (off : Nat) : Nat :=
  match off / 65536 with
  | 0 => sysRegister c off
  | 1 => if off < 0x18000 then mailboxRegister c (off - 0x10000) else mbxRegister c (off - 0x18000)
  | 2 => evqRegister c (off - 0x20000)
  | 3 => if off < 0x32000 then dmaRegister (vget c.pcie.dma ((off - 0x30000) / 256)) (off % 256) else 0
  | 4 => match off - 0x40000 with
    | 0x08 => c.regs.sdlSeconds
    | 0x10 => c.regs.sdlState
    | 0x18 => c.time.sun.increment
    | _ => 0
  | 5 => msixRegister c (off - 0x50000)
  | 6 => encRegister c (off - 0x60000)
  | 7 => if off < 0x70028 then vget c.health.registers ((off - 0x70000) / 8) else 0
  | _ => 0

/-- The diagnostic windows, open once debug access is (R524, R585). DEDUCED: log entry 23. -/
def windowOpen (c : Chip) (off : Nat) : Bool := c.sec.debugOpen && decide (0x80000 ≤ off) && decide (off < 0x1000000)

/-- A place whose two halves are registers of their own, or plain memory: no latch (R554). DEDUCED: log entry 23. -/
def plainHalves (off : Nat) : Bool :=
  (decide (0x10000 ≤ off) && decide (off < 0x18000)) || (decide (0x50000 ≤ off) && decide (off < 0x50400))

/-- A read of BAR0 at an offset: the 4 bytes there, the 4 bytes after those, or all 8. The lower half of a 64-bit register latches its
upper half, which the upper half then returns; MBX_IGNORED and SDL_SUBSEC act as R588 and R590 say; an access that is not aligned,
or of another size, returns 0 (R438, R554). What an open diagnostic window holds is not described: the value is free. DEDUCED: log entry 23. -/
def registerRead (offset part : Nat) (c : Chip) : Chip :=
  let at_ := if part = 1 then offset + 4 else offset
  let base := at_ - at_ % 8
  let v := bar0 c base
  if 2 < part ∨ at_ % 4 ≠ 0 ∨ (part = 2 ∧ at_ % 8 ≠ 0) then emit (.readData 0) c
  else if windowOpen c base then
    let (v, c) := freeNat c
    emit (.readData (v % 2 ^ (if part = 2 then 64 else 32))) c
  else if base = 0x18050 then mbxIgnoredRead (if part = 2 then 2 else if at_ % 8 = 4 then 1 else 0) c
  else if base = 0x40000 ∧ (part = 2 ∨ at_ % 8 = 0) then sdlSubsecRead (part == 2) c
  else if part = 2 then emit (.readData v) c
  else if plainHalves base then emit (.readData (if at_ % 8 = 4 then v / 2 ^ 32 else v % 2 ^ 32)) c
  else if at_ % 8 = 4 then emit (.readData (latchOf c base)) c
  else emit (.readData (v % 2 ^ 32)) (setLatch base (v / 2 ^ 32) c)

def execLowerHalfRead (t : Nat) (offset : Nat) (part : Fin 4) (s : State) : Host.Outcome State Fault Refusal :=
  .next (s.run t fun _ c => registerRead offset part c)

end Sys2Proof.Machine
end

