-- ==== Sys2Proof/Machine/Legacy.lean ====
section
/-! DEFINITION. The PW1212 personality's command set (R556 to R564): each legacy code runs its native command with the forerunner's
differences, and a setting command is wrapped in an internal transaction. -/
namespace Sys2Proof.Machine

/-! ### LEGACY_COMMAND (R558, R559) -/

/-- A native command under further rules on its fields: the first field at fault is the one reported. -/
def underRules (ks : List Check) (f : Env → Job → Chip → Reply) (env : Env) (j : Job) (c : Chip) : Reply :=
  let r := f env j c
  match firstFail ks with
  | some k => if r.status = stBadLen ∨ (r.status = stBadParam ∧ r.detail ≤ k.detail) then r else { status := k.status, detail := k.detail, early := true, chip := c }
  | none => r

/-- `port` 0 to 11. -/
def portRule (p : List Byte) : Check := inRange p 0 1 0 11

/-- Bits 12 to 15 of a mask are zero. -/
def maskRule (p : List Byte) (off : Nat) : Check := param off (decide (rd p off 2 < 4096))

/-- ID. -/
def legacyId (_ : Env) (j : Job) (c : Chip) : Reply := checked [lenIs 0 j] c (replyBody (infoBody 0x1212 0x21 c) c)

/-- CLEAR_STATS. -/
def legacyClear (_ : Env) (j : Job) (c : Chip) : Reply := checked [lenIs 0 j] c (reply stOk (clearStats c))

/-- LANE_MAP: twelve ports; L12 to L15 are unmapped, and an offset past the array counts without them. DEDUCED: log entry 235. -/
def legacyLaneMap (env : Env) (j : Job) (c : Chip) : Reply :=
  let r := checked [lenIs 28 j] c
    (laneMap env { j with payload := j.payload.take 12 ++ List.replicate 4 (BitVec.ofNat 8 0xFF) ++ j.payload.drop 12 } c)
  if r.status = stBadParam ∧ 16 ≤ r.detail ∧ r.detail < 0xFFFF then { r with detail := r.detail - 4 } else r

/-- LANE_STATUS: twelve entries, then the summary. DEDUCED: log entry 235. -/
def legacyLaneStatus (env : Env) (j : Job) (c : Chip) : Reply :=
  let r := laneStatus env j c
  { r with body := r.body.take 384 ++ r.body.drop 512 }

/-- ARCHIVE: operation 4 alone. DEDUCED: log entry 235. -/
def legacyArchive (env : Env) (j : Job) (c : Chip) : Reply := checked [param 0 (rd j.payload 0 1 == 4)] c (zipSubmit env j c)

/-- The command a legacy code runs. DEDUCED: log entry 235. -/
def legacyCommand (env : Env) (j : Job) (c : Chip) : Reply :=
  let p := j.payload
  match j.rawCode with
  | 0x80 => legacyId env j c
  | 0x81 => underRules [param 0 (rd p 0 1 != Base.relay.code)] setMode env j c
  | 0x82 => getMode env j c
  | 0x83 => legacyClear env j c
  | 0x84 => underRules [portRule p, param 2 (decide (rd p 2 1 ≤ 6))] portDiscover env j c
  | 0x85 => underRules [portRule p] portRead env j c
  | 0x86 => underRules [portRule p] portWrite env j c
  | 0x87 => underRules [portRule p] portConfigure env j c
  | 0x88 => legacyLaneMap env j c
  | 0x89 => legacyLaneStatus env j c
  | 0x8A => encConfigure env j c
  | 0x8B => encGetState env j c
  | 0x8C => underRules [maskRule p 4, maskRule p 6] trigConfigure env j c
  | 0xA0 => outSetRecordRing env j c
  | 0xA1 => outSetTileRing env j c
  | 0xA2 => setEventRing env j c
  | 0xA3 => getStats 11 env j c
  | 0xA4 => setEventMask env j c
  | 0xA8 => legacyArchive env j c
  | 0xA9 => zipStatus env j c
  | 0xAA => zipCancel env j c
  | 0xB0 => underRules [param 0 (rd p 0 1 == 0)] timeGet env j c
  | 0xB1 => timeSet env j c
  | 0xB2 => underRules [param 4 (rd p 0 1 != 0 || rd p 4 1 == 0)] ptpConfigure env j c
  | 0xB3 => ptpStatus env j c
  | 0xB8 => underRules [maskRule p 0] calFlatField env j c
  | 0xB9 => underRules [maskRule p 0] calGeometry env j c
  | 0xBA => calGetResult env j c
  | _ => reply stBadCmd c

def execLegacyCommand (t : Nat) (mb : Fin 8) (s : State) : Host.Outcome State Fault Refusal :=
  .next (s.run t fun s0 c => runJob (fun j => j.rawCode != j.code && !legacySetting j.rawCode) mb (fun who => legacyCommand ⟨who, s0.bulk⟩) c)

/-! ### LEGACY_SETTING_COMMAND (R560) -/

/-- The native staging command of a code. -/
def settingCommand (code : Nat) : Env → Job → Chip → Reply := (importStaged code).getD fun _ _ c => reply stBadCmd c

/-- The native request of a legacy setting request under a transaction; WEB_GEOMETRY has twelve view offsets. -/
def settingRequest (j : Job) (id : Nat) : Job :=
  { j with rawCode := j.code, payload := le 4 id ++ j.payload ++ (if j.code = 0x0304 then zeros 16 else []) }

/-- Ranges of single fields that the native set checks at commit; `p` is the native request, and the offsets are its own. -/
def settingFields (code : Nat) (p : List Byte) : List Check :=
  match code with
  | 0x0303 => [param 8 (rd p 8 2 != 0)]
  | 0x0304 => [inRange p 4 4 16 65535, inRange p 12 4 1 262144]
  | 0x0500 =>
    if rd p 4 1 = 0 then
      [inRange p 14 2 0 256, inRange p 16 1 0 10, param 17 (decide (rd p 17 1 ≤ 7) || rd p 17 1 == 0xFF), inRange p 20 2 0 8191,
       param 24 (decide (0 < rdS p 24 4)), inRangeS p 28 4 (-1000000) 1000000]
    else if rd p 4 1 = 1 then [inRange p 10 2 1 1000] else []
  | 0x0501 =>
    [param 12 (rd p 12 2 == 0 || (decide (2 ≤ rd p 12 2) && decide (rd p 12 2 ≤ 256) && rd p 12 2 % 2 == 0)), inRange p 16 2 0 32767,
     inRange p 18 2 0 4095, inRange p 20 1 6 10, inRange p 21 1 1 8, inRange p 22 1 1 4, inRangeS p 23 1 (-8) 8, inRangeS p 24 1 (-4) 4]
  | 0x0502 =>
    [inRange p 4 1 4 20, inRange p 5 1 0 12, inRange p 8 1 0 15, inRange p 10 2 1 1000, inRange p 12 2 1 16383, inRange p 14 2 1 16383,
     inRange p 16 2 0 32767]
  | 0x0503 => if rd p 4 1 = 0 then [inRange p 8 2 0 1023, inRange p 10 2 1 1024] else [inRange p 8 1 0 7]
  | 0x0504 =>
    if rd p 5 1 = 0 then []
    else if rd p 4 1 = 3 then
      [param 6 ([6, 8, 10, 12, 14, 16].contains (rd p 6 1)), param 7 ([1, 4, 16].contains (rd p 7 1)), inRange p 10 2 1 32767]
    else
      let m := if rd p 5 1 = 1 then 15 else 9
      [param 6 (oddUpTo m (rd p 6 1)), param 7 (oddUpTo m (rd p 7 1)), inRange p 8 1 0 31, inRange p 9 1 0 31]
  | 0x0505 => [inRange p 5 1 8 16, param 8 (rd p 8 4 != 0)]
  | 0x0507 =>
    if rd p 4 1 = 0 then
      [param 8 (decide (rd p 8 1 ≤ 7) || rd p 8 1 == 0xFF), param 9 (decide (rd p 9 1 ≤ 7) || rd p 9 1 == 0xFF)]
    else
      [inRange p 8 1 0 7, inRange p 10 1 0 7, inRange p 11 1 3 64, inRange p 12 1 4 10, inRange p 13 1 0 12, inRange p 24 2 1 32768]
  | 0x0508 =>
    let size (v : Nat) : Bool := [16, 32, 64, 128, 256, 512].contains v
    [inRange p 6 1 0 4, param 8 (size (rd p 8 2)), param 10 (size (rd p 10 2)), inRange p 12 1 0 64]
  | _ => []

/-- The forerunner's own limits: `lane` 0 to 11, `seam` 0 to 10. -/
def settingLimits (code : Nat) (p : List Byte) : List Check :=
  match code with
  | 0x0500 => [inRange p 5 1 0 11]
  | 0x0501 => [inRange p 4 1 0 10]
  | _ => []

/-- A native answer as the legacy request sees it: offsets and lengths without `transaction_id`, and without the four view offsets
that WEB_GEOMETRY lacks. DEDUCED: log entry 235. -/
def legacyAnswer (code : Nat) (r : Reply) : Reply :=
  if r.status = stBadParam ∧ 4 ≤ r.detail ∧ r.detail ≠ 0xFFFF then { r with detail := r.detail - 4 }
  else if r.status = stBadLen ∧ r.detail ≠ 0 then { r with detail := r.detail - 4 - (if code = 0x0304 then 16 else 0) }
  else r

/-- The open transaction of a classifier load under way. -/
def openLoad (c : Chip) : Option Tx := c.ledger.opened.find? (·.internal)

/-- Drops an internal transaction that will not apply. -/
def dropInternal (id : Nat) (c : Chip) : Chip := { c with ledger := { c.ledger with opened := c.ledger.opened.filter (·.id != id) } }

/-- The commit of an internal transaction at the next line; the answer is that of the setting command `r`. -/
def commitSetting (j : Job) (id : Nat) (r : Reply) : Reply :=
  match openTx r.chip id with
  | none => r
  | some x =>
    let y := commitTx x 0 0 0 0 r.chip
    if y.status = stOk then { r with chip := y.chip }
    else { status := y.status, detail := ((firstFail (settingFields j.code j.payload)).map (·.detail)).getD 0xFFFF, chip := y.chip }

/-- One setting command but CLASSIFIER: staged in an internal transaction of its own, which is committed or dropped.
DEDUCED: log entry 236. -/
def settingAlone (env : Env) (j : Job) (c : Chip) : Reply :=
  let (id, open_) := newTx false 0 true c
  let k := settingRequest j id
  let r := underRules (settingLimits j.code k.payload) (settingCommand j.code) env k open_
  if r.status = stOk then commitSetting k id r else { r with chip := c }

/-- One chunk of CLASSIFIER: the chunks of a load share one transaction, committed at the last; a first chunk starts a load afresh, and
a refused last chunk ends it. DEDUCED: log entry 236. -/
def settingChunk (env : Env) (j : Job) (c : Chip) : Reply :=
  let f := rd j.payload 0 1
  let c := if bit f 0 then ((openLoad c).map fun x => dropInternal x.id c).getD c else c
  let (id, open_) := match openLoad c with
    | some x => (x.id, c)
    | none => newTx false 0 true c
  let k := settingRequest j id
  let r := settingCommand 0x0506 env k open_
  if r.status = stOk then (if bit f 1 then commitSetting k id r else r)
  else if ((openTx r.chip id).map fun x => x.entries.any (·.invalid)).getD false then { r with chip := dropInternal id r.chip }
  else { r with chip := c }

/-- A legacy setting command. DEDUCED: log entry 236. -/
def legacySettingRun (env : Env) (j : Job) (c : Chip) : Reply :=
  legacyAnswer j.code (if j.code = 0x0506 then settingChunk env j c else settingAlone env j c)

/-- The setting command of a mailbox is the next in doorbell order. DEDUCED: log entry 236. -/
def firstSetting (c : Chip) (mb : Nat) : Bool :=
  match ((vget c.mbx.mb mb).job).filter fun j => legacySetting j.rawCode with
  | none => true
  | some j => (List.range 8).all fun m => match ((vget c.mbx.mb m).job).filter fun x => legacySetting x.rawCode && x.rawCode != x.code with
    | some x => decide (j.order ≤ x.order)
    | none => true

/-- A CLASSIFIER command finds the store's shadow bank still held by the model before it (R227). -/
def modelHeld (c : Chip) (mb : Nat) : Bool :=
  ((vget c.mbx.mb mb).job.map fun j => j.code == 0x0506).getD false && (releaseModel c).abacus.held.isSome

/-- LEGACY_SETTING_COMMAND: the command of a mailbox runs when it is the next in doorbell order and the one before has applied; until
then it waits. -/
def legacySettingStep (env : Env) (c : Chip) : Chip :=
  if c.ledger.armed.any (·.internal) || modelHeld c env.mb || !firstSetting c env.mb then c
  else runJob (fun j => legacySetting j.rawCode && j.rawCode != j.code) env.mb (fun who => legacySettingRun { env with mb := who }) c

def execLegacySettingCommand (t : Nat) (mb : Fin 8) (s : State) : Host.Outcome State Fault Refusal :=
  .next (s.run t fun s0 c => legacySettingStep ⟨mb, s0.bulk⟩ c)

end Sys2Proof.Machine
end

