-- ==== Sys2Proof/Machine/Dispatch.lean ====
section
/-! DEFINITION. One arm per command: the direct call of its meaning. -/
namespace Sys2Proof.Machine

/-- The command's effect on everything but the queue. -/
def exec (i : Instr) (s : State) : Host.Outcome State Fault Refusal :=
  match i with
  | .encConfigure t mb => Sys2Proof.Machine.execEncConfigure t mb s
  | .encGetState t mb => Sys2Proof.Machine.execEncGetState t mb s
  | .trigConfigure t mb => Sys2Proof.Machine.execTrigConfigure t mb s
  | .trigSetPitch t mb => Sys2Proof.Machine.execTrigSetPitch t mb s
  | .webSetGeometry t mb => Sys2Proof.Machine.execWebSetGeometry t mb s
  | .portDiscover t mb => Sys2Proof.Machine.execPortDiscover t mb s
  | .discoveryComplete t port camera => Sys2Proof.Machine.execDiscoveryComplete t port camera s
  | .portConfigure t mb => Sys2Proof.Machine.execPortConfigure t mb s
  | .portReadCameraReg t mb => Sys2Proof.Machine.execPortReadCameraReg t mb s
  | .portWriteCameraReg t mb => Sys2Proof.Machine.execPortWriteCameraReg t mb s
  | .controlAckReceived t port crcOk error code data => Sys2Proof.Machine.execControlAckReceived t port crcOk error code data s
  | .controlAckTimeout t port => Sys2Proof.Machine.execControlAckTimeout t port s
  | .portGetLinkQuality t mb seen => Sys2Proof.Machine.execPortGetLinkQuality t mb seen s
  | .laneMap t mb => Sys2Proof.Machine.execLaneMap t mb s
  | .laneGetStatus t mb => Sys2Proof.Machine.execLaneGetStatus t mb s
  | .vcamConfigure t mb => Sys2Proof.Machine.execVcamConfigure t mb s
  | .vcamControlPacket t k op => Sys2Proof.Machine.execVcamControlPacket t k op s
  | .vcamTriggerPacket t k => Sys2Proof.Machine.execVcamTriggerPacket t k s
  | .encoderCount t ch a b heldA heldB => Sys2Proof.Machine.execEncoderCount t ch a b heldA heldB s
  | .indexPulse t ch z held => Sys2Proof.Machine.execIndexPulse t ch z held s
  | .zeroSpeedTimeout t ch => Sys2Proof.Machine.execZeroSpeedTimeout t ch s
  | .lineTrigger t => Sys2Proof.Machine.execLineTrigger t s
  | .cameraLineReceived t port first packets crcErrors stream => Sys2Proof.Machine.execCameraLineReceived t port first packets crcErrors stream s
  | .lineTimeout t port => Sys2Proof.Machine.execLineTimeout t port s
  | .linkLost t port link => Sys2Proof.Machine.execLinkLost t port link s
  | .powerFault t port => Sys2Proof.Machine.execPowerFault t port s
  | .eyeScan t port link width new errors => Sys2Proof.Machine.execEyeScan t port link width new errors s
  | .codeErrorLimit t port link new errors => Sys2Proof.Machine.execCodeErrorLimit t port link new errors s
  | .recoveryAttempt t port => Sys2Proof.Machine.execRecoveryAttempt t port s
  | .linkRelock t port width pixelFormat => Sys2Proof.Machine.execLinkRelock t port width pixelFormat s
  | .laneLineCorrection t lane n => Sys2Proof.Machine.execLaneLineCorrection t lane n s
  | .stitchedLineAssembly t => Sys2Proof.Machine.execStitchedLineAssembly t s
  | .pergolaWaitExpiry t lane => Sys2Proof.Machine.execPergolaWaitExpiry t lane s
  | .seamMeasurement t seam => Sys2Proof.Machine.execSeamMeasurement t seam s
  | .seamPositionApply t seam => Sys2Proof.Machine.execSeamPositionApply t seam s
  | .detectionLine t => Sys2Proof.Machine.execDetectionLine t s
  | .streakEvaluation t => Sys2Proof.Machine.execStreakEvaluation t s
  | .labelLine t => Sys2Proof.Machine.execLabelLine t s
  | .blobClassify t => Sys2Proof.Machine.execBlobClassify t s
  | .rotundaSweep t roll => Sys2Proof.Machine.execRotundaSweep t roll s
  | .recordRingWrite t => Sys2Proof.Machine.execRecordRingWrite t s
  | .tileWrite t => Sys2Proof.Machine.execTileWrite t s
  | .lateTileDelivery t inTime errors => Sys2Proof.Machine.execLateTileDelivery t inTime errors s
  | .irqHoldoffExpiry t channel => Sys2Proof.Machine.execIrqHoldoffExpiry t channel s
  | .shadowPeriodStart t => Sys2Proof.Machine.execShadowPeriodStart t s
  | .shadowBlockCompare t block upset => Sys2Proof.Machine.execShadowBlockCompare t block upset s
  | .engineFault t engines => Sys2Proof.Machine.execEngineFault t engines s
  | .engineSelfTestDone t engine passed => Sys2Proof.Machine.execEngineSelfTestDone t engine passed s
  | .orangeryBlockWrite t staged => Sys2Proof.Machine.execOrangeryBlockWrite t staged s
  | .orangeryFlushTimeout t => Sys2Proof.Machine.execOrangeryFlushTimeout t s
  | .lookbackJobStart t => Sys2Proof.Machine.execLookbackJobStart t s
  | .lookbackJobDone t job errors => Sys2Proof.Machine.execLookbackJobDone t job errors s
  | .frameEmit t stream rowsRead transmitRoom error => Sys2Proof.Machine.execFrameEmit t stream rowsRead transmitRoom error s
  | .rtcpSenderReport t stream => Sys2Proof.Machine.execRtcpSenderReport t stream s
  | .zipJobStart t => Sys2Proof.Machine.execZipJobStart t s
  | .zipJobDone t job source hwFault => Sys2Proof.Machine.execZipJobDone t job source hwFault s
  | .markFire t head => Sys2Proof.Machine.execMarkFire t head s
  | .axisMoveComplete t axis => Sys2Proof.Machine.execAxisMoveComplete t axis s
  | .axisHoldDelay t axis => Sys2Proof.Machine.execAxisHoldDelay t axis s
  | .axisStall t axis => Sys2Proof.Machine.execAxisStall t axis s
  | .axisDriverFault t axis => Sys2Proof.Machine.execAxisDriverFault t axis s
  | .limitSwitch t axis positive => Sys2Proof.Machine.execLimitSwitch t axis positive s
  | .switchChatter t axis positive transitions => Sys2Proof.Machine.execSwitchChatter t axis positive transitions s
  | .homeReference t axis => Sys2Proof.Machine.execHomeReference t axis s
  | .homeBackoffDone t axis => Sys2Proof.Machine.execHomeBackoffDone t axis s
  | .homeMaxTravel t axis => Sys2Proof.Machine.execHomeMaxTravel t axis s
  | .ptpMessageReceived t port msg => Sys2Proof.Machine.execPtpMessageReceived t port msg s
  | .ptpMessageTransmit t port messageType sequence domain => Sys2Proof.Machine.execPtpMessageTransmit t port messageType sequence domain s
  | .ethFrameReceived t port frame => Sys2Proof.Machine.execEthFrameReceived t port frame s
  | .servoOffsetSample t offset => Sys2Proof.Machine.execServoOffsetSample t offset s
  | .pathDelaySample t port mean => Sys2Proof.Machine.execPathDelaySample t port mean s
  | .pathHoldExpiry t => Sys2Proof.Machine.execPathHoldExpiry t s
  | .ppsInEdge t rising => Sys2Proof.Machine.execPpsInEdge t rising s
  | .ppsInLost t => Sys2Proof.Machine.execPpsInLost t s
  | .ref10mLoss t => Sys2Proof.Machine.execRef10mLoss t s
  | .ppsOutEdge t => Sys2Proof.Machine.execPpsOutEdge t s
  | .pulseBoundary t output => Sys2Proof.Machine.execPulseBoundary t output s
  | .pulseWidthEnd t output => Sys2Proof.Machine.execPulseWidthEnd t output s
  | .captureEdge t input rising held => Sys2Proof.Machine.execCaptureEdge t input rising held s
  | .auxOutputSample t ch samples => Sys2Proof.Machine.execAuxOutputSample t ch samples s
  | .auxOverloadChange t ch samples => Sys2Proof.Machine.execAuxOverloadChange t ch samples s
  | .toneBlockEnd t d => Sys2Proof.Machine.execToneBlockEnd t d s
  | .auxRingEntryTimeout t ch => Sys2Proof.Machine.execAuxRingEntryTimeout t ch s
  | .sarecTagReceived t tag pitch => Sys2Proof.Machine.execSarecTagReceived t tag pitch s
  | .followerTrigger t => Sys2Proof.Machine.execFollowerTrigger t s
  | .sarecLatencyMeasure t link ns retried => Sys2Proof.Machine.execSarecLatencyMeasure t link ns retried s
  | .sarecLinkLost t link => Sys2Proof.Machine.execSarecLinkLost t link s
  | .sarecLinkHealthy t link => Sys2Proof.Machine.execSarecLinkHealthy t link s
  | .gangForm t nodes encoders overlaps => Sys2Proof.Machine.execGangForm t nodes encoders overlaps s
  | .dramRefresh t ch rank belvedereLeft => Sys2Proof.Machine.execDramRefresh t ch rank belvedereLeft s
  | .dramActivationLimit t ch bank rows => Sys2Proof.Machine.execDramActivationLimit t ch bank rows s
  | .dramRefreshWindowEnd t ch => Sys2Proof.Machine.execDramRefreshWindowEnd t ch s
  | .dramZqCalibration t => Sys2Proof.Machine.execDramZqCalibration t s
  | .dramDqsTracking t ch directions => Sys2Proof.Machine.execDramDqsTracking t ch directions s
  | .dramRetrainStep t ch eyePs eyeSteps centre => Sys2Proof.Machine.execDramRetrainStep t ch eyePs eyeSteps centre s
  | .dramSpeedSwitch t ch => Sys2Proof.Machine.execDramSpeedSwitch t ch s
  | .dramPatrolScrub t ch errors extent rewritten permille => Sys2Proof.Machine.execDramPatrolScrub t ch errors extent rewritten permille s
  | .sramScrub t words => Sys2Proof.Machine.execSramScrub t words s
  | .housekeepingRound t round => Sys2Proof.Machine.execHousekeepingRound t round s
  | .graceTimeExpiry t => Sys2Proof.Machine.execGraceTimeExpiry t s
  | .supplyDip t monitor lowest durationUs => Sys2Proof.Machine.execSupplyDip t monitor lowest durationUs s
  | .supplyExcursionSustained t monitor lowest => Sys2Proof.Machine.execSupplyExcursionSustained t monitor lowest s
  | .supplyOver t monitor lowest durationUs => Sys2Proof.Machine.execSupplyOver t monitor lowest durationUs s
  | .supplyHoldEnd t => Sys2Proof.Machine.execSupplyHoldEnd t s
  | .supplyUnstableClear t => Sys2Proof.Machine.execSupplyUnstableClear t s
  | .supplyReset t monitor => Sys2Proof.Machine.execSupplyReset t monitor s
  | .lifeSummary t => Sys2Proof.Machine.execLifeSummary t s
  | .lifeCheckpoint t => Sys2Proof.Machine.execLifeCheckpoint t s
  | .lifeJournalWrite t => Sys2Proof.Machine.execLifeJournalWrite t s
  | .telemetry t => Sys2Proof.Machine.execTelemetry t s
  | .tamperAssert t source powered => Sys2Proof.Machine.execTamperAssert t source powered s
  | .sessionChallengeExpiry t mb unlock => Sys2Proof.Machine.execSessionChallengeExpiry t mb unlock s
  | .sessionIdleTimeout t mb => Sys2Proof.Machine.execSessionIdleTimeout t mb s
  | .proofLockoutEnd t => Sys2Proof.Machine.execProofLockoutEnd t s
  | .eventRingWrite t => Sys2Proof.Machine.execEventRingWrite t s
  | .rateLimitSecondEnd t code inst => Sys2Proof.Machine.execRateLimitSecondEnd t code inst s
  | .dmaDescriptor t ch desc data fault nextAgain => Sys2Proof.Machine.execDmaDescriptor t ch desc data fault nextAgain s
  | .dmaStopEffect t ch desc data lines => Sys2Proof.Machine.execDmaStopEffect t ch desc data lines s
  | .modeConditionReport t => Sys2Proof.Machine.execModeConditionReport t s
  | .modeExitDrainComplete t => Sys2Proof.Machine.execModeExitDrainComplete t s
  | .calPhaseDone t => Sys2Proof.Machine.execCalPhaseDone t s
  | .calTimeout t => Sys2Proof.Machine.execCalTimeout t s
  | .calAuxDone t => Sys2Proof.Machine.execCalAuxDone t s
  | .calLinksDone t heights => Sys2Proof.Machine.execCalLinksDone t heights s
  | .lockstepRecovery t ended => Sys2Proof.Machine.execLockstepRecovery t ended s
  | .lodgeCheckpoint t => Sys2Proof.Machine.execLodgeCheckpoint t s
  | .fwActivationRestart t begins ok => Sys2Proof.Machine.execFwActivationRestart t begins ok s
  | .powerOnReset t batteryLost bankA bankB => Sys2Proof.Machine.execPowerOnReset t batteryLost bankA bankB s
  | .resetNAssert t => Sys2Proof.Machine.execResetNAssert t s
  | .perstNRise t width speed => Sys2Proof.Machine.execPerstNRise t width speed s
  | .bootComplete t passes dram => Sys2Proof.Machine.execBootComplete t passes dram s
  | .hostInterfaceReset t kind width speed => Sys2Proof.Machine.execHostInterfaceReset t kind width speed s
  | .powerStateChange t d3hot => Sys2Proof.Machine.execPowerStateChange t d3hot s
  | .mbxResponseWrite t value => Sys2Proof.Machine.execMbxResponseWrite t value s
  | .mbxIgnoredRead t part => Sys2Proof.Machine.execMbxIgnoredRead t part s
  | .evqTailWrite t value => Sys2Proof.Machine.execEvqTailWrite t value s
  | .dmaChainWrite t ch value => Sys2Proof.Machine.execDmaChainWrite t ch value s
  | .dmaDoorbell t ch nextAgain => Sys2Proof.Machine.execDmaDoorbell t ch nextAgain s
  | .dmaStopRequest t ch => Sys2Proof.Machine.execDmaStopRequest t ch s
  | .dmaTailWrite t ch value => Sys2Proof.Machine.execDmaTailWrite t ch value s
  | .sdlSubsecRead t upper => Sys2Proof.Machine.execSdlSubsecRead t upper s
  | .lowerHalfRead t offset part => Sys2Proof.Machine.execLowerHalfRead t offset part s
  | .msixEntryWrite t vector word value => Sys2Proof.Machine.execMsixEntryWrite t vector word value s
  | .registerWrite t offset length value => Sys2Proof.Machine.execRegisterWrite t offset length value s
  | .calFlatField t mb => Sys2Proof.Machine.execCalFlatField t mb s
  | .calGeometry t mb => Sys2Proof.Machine.execCalGeometry t mb s
  | .calGetResult t mb error => Sys2Proof.Machine.execCalGetResult t mb error s
  | .pipeSetCorrection t mb => Sys2Proof.Machine.execPipeSetCorrection t mb s
  | .pipeSetStitch t mb => Sys2Proof.Machine.execPipeSetStitch t mb s
  | .pipeSetReference t mb => Sys2Proof.Machine.execPipeSetReference t mb s
  | .pipeSetDetection t mb => Sys2Proof.Machine.execPipeSetDetection t mb s
  | .pipeSetFilters t mb => Sys2Proof.Machine.execPipeSetFilters t mb s
  | .pipeSetLabelling t mb => Sys2Proof.Machine.execPipeSetLabelling t mb s
  | .pipeSetTiles t mb => Sys2Proof.Machine.execPipeSetTiles t mb s
  | .pipeLoadClassifier t mb => Sys2Proof.Machine.execPipeLoadClassifier t mb s
  | .pipeSetRecurrence t mb => Sys2Proof.Machine.execPipeSetRecurrence t mb s
  | .outSetRecordRing t mb => Sys2Proof.Machine.execOutSetRecordRing t mb s
  | .outSetTileRing t mb => Sys2Proof.Machine.execOutSetTileRing t mb s
  | .outGetStats t mb => Sys2Proof.Machine.execOutGetStats t mb s
  | .lookbackConfigure t mb => Sys2Proof.Machine.execLookbackConfigure t mb s
  | .lookbackRetrieve t mb => Sys2Proof.Machine.execLookbackRetrieve t mb s
  | .lookbackReplay t mb => Sys2Proof.Machine.execLookbackReplay t mb s
  | .lookbackPin t mb => Sys2Proof.Machine.execLookbackPin t mb s
  | .lookbackStatus t mb => Sys2Proof.Machine.execLookbackStatus t mb s
  | .viewConfigure t mb => Sys2Proof.Machine.execViewConfigure t mb s
  | .viewStreamStart t mb => Sys2Proof.Machine.execViewStreamStart t mb s
  | .viewStreamStop t mb => Sys2Proof.Machine.execViewStreamStop t mb s
  | .zipSubmit t mb => Sys2Proof.Machine.execZipSubmit t mb s
  | .zipStatus t mb => Sys2Proof.Machine.execZipStatus t mb s
  | .zipCancel t mb => Sys2Proof.Machine.execZipCancel t mb s
  | .ledgerOpen t mb => Sys2Proof.Machine.execLedgerOpen t mb s
  | .ledgerCommit t mb error => Sys2Proof.Machine.execLedgerCommit t mb error s
  | .ledgerAbort t mb => Sys2Proof.Machine.execLedgerAbort t mb s
  | .ledgerStatus t mb => Sys2Proof.Machine.execLedgerStatus t mb s
  | .axisConfigure t mb => Sys2Proof.Machine.execAxisConfigure t mb s
  | .axisHome t mb => Sys2Proof.Machine.execAxisHome t mb s
  | .axisMove t mb => Sys2Proof.Machine.execAxisMove t mb s
  | .axisStop t mb => Sys2Proof.Machine.execAxisStop t mb s
  | .axisStatus t mb => Sys2Proof.Machine.execAxisStatus t mb s
  | .markConfigure t mb => Sys2Proof.Machine.execMarkConfigure t mb s
  | .timeGet t mb => Sys2Proof.Machine.execTimeGet t mb s
  | .timeSet t mb => Sys2Proof.Machine.execTimeSet t mb s
  | .ptpConfigure t mb => Sys2Proof.Machine.execPtpConfigure t mb s
  | .ptpStatus t mb => Sys2Proof.Machine.execPtpStatus t mb s
  | .servoConfigure t mb => Sys2Proof.Machine.execServoConfigure t mb s
  | .pulseSchedule t mb => Sys2Proof.Machine.execPulseSchedule t mb s
  | .pulseCancel t mb => Sys2Proof.Machine.execPulseCancel t mb s
  | .captureConfigure t mb => Sys2Proof.Machine.execCaptureConfigure t mb s
  | .auxConfigure t mb => Sys2Proof.Machine.execAuxConfigure t mb s
  | .auxLoadCoeffs t mb => Sys2Proof.Machine.execAuxLoadCoeffs t mb s
  | .auxSwapBank t mb => Sys2Proof.Machine.execAuxSwapBank t mb s
  | .auxToneConfigure t mb => Sys2Proof.Machine.execAuxToneConfigure t mb s
  | .auxRead t mb => Sys2Proof.Machine.execAuxRead t mb s
  | .calAux t mb => Sys2Proof.Machine.execCalAux t mb s
  | .calLinks t mb => Sys2Proof.Machine.execCalLinks t mb s
  | .gangConfigure t mb => Sys2Proof.Machine.execGangConfigure t mb s
  | .gangStatus t mb => Sys2Proof.Machine.execGangStatus t mb s
  | .dramStatus t mb => Sys2Proof.Machine.execDramStatus t mb s
  | .sysSetEventRing t mb => Sys2Proof.Machine.execSysSetEventRing t mb s
  | .sysSetEventMask t mb => Sys2Proof.Machine.execSysSetEventMask t mb s
  | .healthStatus t mb => Sys2Proof.Machine.execHealthStatus t mb s
  | .thermalConfigure t mb => Sys2Proof.Machine.execThermalConfigure t mb s
  | .thermalAckRequest t mb => Sys2Proof.Machine.execThermalAckRequest t mb s
  | .lifeRead t mb => Sys2Proof.Machine.execLifeRead t mb s
  | .lifeSetCalendar t mb => Sys2Proof.Machine.execLifeSetCalendar t mb s
  | .secSessionOpen t mb => Sys2Proof.Machine.execSecSessionOpen t mb s
  | .secSessionClose t mb => Sys2Proof.Machine.execSecSessionClose t mb s
  | .secFuseRead t mb => Sys2Proof.Machine.execSecFuseRead t mb s
  | .secFuseWrite t mb => Sys2Proof.Machine.execSecFuseWrite t mb s
  | .secKeyLoad t mb => Sys2Proof.Machine.execSecKeyLoad t mb s
  | .secTamperConfigure t mb => Sys2Proof.Machine.execSecTamperConfigure t mb s
  | .secUnlock t mb => Sys2Proof.Machine.execSecUnlock t mb s
  | .sysGetInfo t mb => Sys2Proof.Machine.execSysGetInfo t mb s
  | .sysGetCaps t mb => Sys2Proof.Machine.execSysGetCaps t mb s
  | .sysGetMode t mb => Sys2Proof.Machine.execSysGetMode t mb s
  | .sysSetMode t mb => Sys2Proof.Machine.execSysSetMode t mb s
  | .sysResetSubsystem t mb => Sys2Proof.Machine.execSysResetSubsystem t mb s
  | .sysFwStage t mb => Sys2Proof.Machine.execSysFwStage t mb s
  | .sysFwActivate t mb => Sys2Proof.Machine.execSysFwActivate t mb s
  | .sysExportConfig t mb error => Sys2Proof.Machine.execSysExportConfig t mb error s
  | .sysImportConfig t mb => Sys2Proof.Machine.execSysImportConfig t mb s
  | .legacyCommand t mb => Sys2Proof.Machine.execLegacyCommand t mb s
  | .legacySettingCommand t mb => Sys2Proof.Machine.execLegacySettingCommand t mb s
  | .mailboxDoorbell t mb => Sys2Proof.Machine.execMailboxDoorbell t mb s
  | .configureSelfTestDone t failed runs => Sys2Proof.Machine.execConfigureSelfTestDone t failed runs s
  | .ethLinkChange t port up => Sys2Proof.Machine.execEthLinkChange t port up s
  | .announceReceiptTimeout t port => Sys2Proof.Machine.execAnnounceReceiptTimeout t port s
  | .switchStateAccepted t axis positive asserted => Sys2Proof.Machine.execSwitchStateAccepted t axis positive asserted s
  | .tamperClear t source powered => Sys2Proof.Machine.execTamperClear t source powered s
  | .debugAccessOpen t proved => Sys2Proof.Machine.execDebugAccessOpen t proved s
  | .gangExchangeReceived t x => Sys2Proof.Machine.execGangExchangeReceived t x s

end Sys2Proof.Machine
end

