-- ==== Sys2Proof/Safety.lean ====
section
/-! DEFINITION. The terms the statements are made of: the canonical memories, a state whose mailbox holds a request, and for
each mailbox command the checks of R472 that a request it carries out passes. -/
namespace Sys2Proof.Machine

/-- Host memory and the bulk window are in canonical form. -/
def State.memOk (s : State) : Bool := s.host.wf && s.bulk.wf

/-- The device at instant t, before the effect of the command that is run then: the time has moved on, nothing is issued yet. -/
def State.tick (s : State) (t : Nat) : Chip := { s.chip with now := max s.chip.now t, out := [] }

/-- The state after a command's effect on the device: what it issued to host memory and to the bulk window has landed there, and
the queue is as it was. -/
def State.put (s : State) (c : Chip) : State :=
  { s with chip := c, host := hostAfter c.out.reverse s.host, bulk := bulkAfter c.out.reverse s.bulk }

/-- The device apart from what answering a command and raising events may touch: the instant, what was issued, the free values, the
mailboxes and the audit queue, the pending bits of the MSI-X vectors, the event FIFO with its sequence and its loss counts, the
collection seconds, the life record's write queue with its counts, and the marks of saturated counters. -/
def Chip.quiet (c : Chip) : Chip :=
  { c with
    now := 0, fresh := 0, out := [], mbx := {}, rates := [], saturated := []
    pcie := { c.pcie with msix := vmapIdx (fun _ e => { e with pending := false }) c.pcie.msix }
    evq := { c.evq with fifo := [], waiting := [], nextSequence := 0, lostTotal := 0, lostPending := 0, firstLost := 0 }
    life := { c.life with
      queue := [], day := 0, eventsToday := 0, totals := { c.life.totals with entriesDropped := 0, auditEntries := 0 } } }

/-- An effect that writes neither host memory nor the bulk window. -/
def Output.sparesMemory : Output → Bool
  | .hostWrite _ _ _ _ | .bulkWrite _ _ | .bulkLost => false
  | _ => true

/-- From s to u both memories and the queue keep what they hold. -/
def State.keepsMemory (s u : State) : Prop := u.host = s.host ∧ u.bulk = s.bulk ∧ u.pending = s.pending

/-- From s to u every mailbox keeps what it holds. -/
def State.keepsMailboxes (s u : State) : Prop := ∀ k : Nat, vget u.chip.mbx.mb k = vget s.chip.mbx.mb k

/-- From s to u every mailbox but one keeps what it holds. -/
def State.keepsOtherMailboxes (mb : Nat) (s u : State) : Prop := ∀ k : Nat, k ≠ mb → vget u.chip.mbx.mb k = vget s.chip.mbx.mb k

/-- Mailbox mb holds request j of a native command that is still to be carried out, in a state in which the Lodge serves it and no
command of another mailbox on the same resource is due before it. -/
def State.holds (s : State) (mb : Fin 8) (code : Nat) (j : Job) : Bool :=
  ((vget s.chip.mbx.mb mb).job == some j) && j.code == code && j.rawCode == code && !j.waiting && inTurn s.chip j && lodgeServes s.chip &&
    !modeRefuses s.chip j && j.headerFault.isNone

/-- Mailbox mb holds request j of a legacy command that is still to be carried out, and its turn has come. -/
def State.holdsLegacy (s : State) (mb : Fin 8) (setting : Bool) (j : Job) : Bool :=
  ((vget s.chip.mbx.mb mb).job == some j) && j.rawCode != j.code && legacySetting j.rawCode == setting && !j.waiting &&
    inTurn s.chip j && lodgeServes s.chip && !modeRefuses s.chip j && j.headerFault.isNone

/-- Every check of a list holds. -/
def passes (ks : List Check) : Bool := ks.all (·.ok)

/-- A row of the table carries a native command out: whenever its mailbox holds a request with the row's code that passes the
command's checks, the row answers a next state, and it is that of the command's effect with its answer given. -/
def Runs (code : Nat) (row : Nat → Fin 8 → Sys2Proof.Instr) (accepts : Env → Job → Chip → Bool) (effect : Env → Job → Chip → Reply) : Prop :=
  ∀ (s : State) (t : Nat) (mb : Fin 8) (j : Job), s.holds mb code j = true → accepts ⟨mb, s.bulk⟩ j (s.tick t) = true →
    exec (row t mb) s = .next (s.put (finish mb (effect ⟨mb, s.bulk⟩ j (s.tick t))))

/-- A mailbox command keeps to its part of the device: whatever the state, it answers a next state in which the quiet part differs from
before at most in the groups `taken` takes from after, both memories keep what they hold, and so do the other mailboxes. -/
def Answers (row : Nat → Fin 8 → Sys2Proof.Instr) (taken : Chip → Chip → Chip) : Prop :=
  ∀ (t : Nat) (mb : Fin 8) (s : State), ∃ u, exec (row t mb) s = .next u ∧ u.chip.quiet = taken s.chip.quiet u.chip.quiet ∧
    s.keepsMemory u ∧ s.keepsOtherMailboxes mb u

/-- An event keeps to its part of the device, to neither memory and to no mailbox. -/
def Confined (row : Nat → Sys2Proof.Instr) (taken : Chip → Chip → Chip) : Prop :=
  ∀ (t : Nat) (s : State), ∃ u, exec (row t) s = .next u ∧ u.chip.quiet = taken s.chip.quiet u.chip.quiet ∧ s.keepsMemory u ∧ s.keepsMailboxes u

/-- A native command refuses what fails its checks: the answer carries a status other than ST_OK, and the quiet part of the device, both
memories and the other mailboxes are as before. -/
def Refuses (code : Nat) (row : Nat → Fin 8 → Sys2Proof.Instr) (accepts : Env → Job → Chip → Bool) : Prop :=
  ∀ (s : State) (t : Nat) (mb : Fin 8) (j : Job), s.holds mb code j = true → accepts ⟨mb, s.bulk⟩ j (s.tick t) = false →
    ∃ u, exec (row t mb) s = .next u ∧ u.chip.quiet = s.chip.quiet ∧ s.keepsMemory u ∧ s.keepsOtherMailboxes mb u ∧
      (vget u.chip.mbx.mb mb).owner = false ∧ rd (vget u.chip.mbx.mb mb).bytes 6 2 ≠ stOk

/-! ### Requests that a command carries out -/

/-- Checks of ENC_CONFIGURE (R54). -/
def acceptsEncConfigure (_ : Env) (j : Job) (c : Chip) : Bool :=
  let p := j.payload
  let ch := rd p 0 1
  let f := rd p 3 1
  let v := rd p 24 1
  passes ([lenIs 32 j, inRange p 0 1 0 7, inRange p 1 1 0 2, inRange p 2 1 0 15, param 3 (f < 32), inRange p 10 1 0 1,
     inRange p 12 1 0 10, reserved p 13 1, inRange p 14 2 1 10000, param 16 (rd p 16 8 != 0), param 24 (v == 0 || (36 ≤ v && v ≤ 63)),
     reserved p 25 7, stateRule c (!encInUse c ch)])

/-- Checks of ENC_GET_STATE (R30). -/
def acceptsEncGetState (_ : Env) (j : Job) (_ : Chip) : Bool :=
  let p := j.payload
  passes ([lenIs 2 j, inRange p 0 1 0 7, inRange p 1 1 0 1])

/-- Checks of TRIG_CONFIGURE (R599). -/
def acceptsTrigConfigure (_ : Env) (j : Job) (c : Chip) : Bool :=
  let p := j.payload
  let f := rd p 1 1
  let w := rd p 2 2
  let m := rd p 8 4
  passes ([lenIs 24 j, inRange p 0 1 0 7, param 1 (f < 4), param 2 (8 ≤ w && w % 4 == 0), param 8 (m == 0 || (400 ≤ m && m ≤ 1000000000)),
     reserved p 12 4, stateRule c (mode c == 4)])

/-- Checks of TRIG_SET_PITCH (R46). -/
def acceptsTrigSetPitch (_ : Env) (j : Job) (c : Chip) : Bool :=
  passes ([lenIs 12 j, reserved j.payload 10 2] ++ stagingChecks c (rd j.payload 0 4) [{ code := 0x0303, payload := j.payload.drop 4 }] 1)

/-- Checks of WEB_SET_GEOMETRY (R49). -/
def acceptsWebSetGeometry (_ : Env) (j : Job) (c : Chip) : Bool :=
  passes ([lenIs 80 j] ++ stagingChecks c (rd j.payload 0 4) [{ code := 0x0304, payload := j.payload.drop 4 }] 1)

/-- Checks of PORT_DISCOVER (R59). -/
def acceptsPortDiscover (_ : Env) (j : Job) (c : Chip) : Bool :=
  let p := j.payload
  let n := rd p 0 1
  let x := vget c.port n
  let f := rd p 3 1
  let d := rd p 8 2
  passes ([lenIs 16 j, inRange p 0 1 0 15, param 1 ([0, 1, 2, 4].contains (rd p 1 1)), param 2 ((0 :: linkSpeeds).contains (rd p 2 1)),
     param 3 (f < 4), param 8 (d == 0 || (100 ≤ d && d ≤ 30000)), reserved p 10 6,
     stateRule c (mode c != 3), stateRule c (x.state != .streaming && x.state != .device),
     stateRule c (x.state != .fault || bit f 0), ownRule stBusy (x.state != .discovering)])

/-- Checks of PORT_CONFIGURE (R68). -/
def acceptsPortConfigure (_ : Env) (j : Job) (c : Chip) : Bool :=
  let p := j.payload
  let n := rd p 0 1
  let x := vget c.port n
  let f := rd p 2 1
  passes ([lenIs 32 j, inRange p 0 1 0 15, inRange p 1 1 0 1, param 2 (f < 4), reserved p 3 1, inRange p 4 4 10 1000000,
     inRange p 8 4 0 1000000, inRange p 12 2 1 65535, inRange p 14 2 1 1000, inRange p 16 2 10 10000, reserved p 18 14,
     stateRule c (x.state != .streaming && x.state != .device)])

/-- Checks of PORT_READ_CAMERA_REG (R74). -/
def acceptsPortReadCameraReg (_ : Env) (j : Job) (c : Chip) : Bool :=
  let p := j.payload
  passes (((lenIs 12 j :: accessChecks j c 0 12) ++ [ownRule stBusy (accessRoom c (rd p 0 1))]))

/-- Checks of PORT_WRITE_CAMERA_REG (R75). -/
def acceptsPortWriteCameraReg (_ : Env) (j : Job) (c : Chip) : Bool :=
  let p := j.payload
  let n := rd p 0 1
  let len := rd p 8 2
  let guarded := (List.range (len / 4)).any fun i => Config.cameraProtected (rd p 4 4 + 4 * i)
  passes ((accessChecks j c len 12 ++
      [stateRule c (!((vget c.port n).state == .streaming && guarded)), ownRule stBusy (accessRoom c n)]))

/-- Checks of PORT_GET_LINK_QUALITY (R69). -/
def acceptsPortGetLinkQuality (_ : Env) (j : Job) (c : Chip) : Bool :=
  let p := j.payload
  let n := rd p 0 1
  let x := vget c.port n
  passes ([lenIs 2 j, inRange p 0 1 0 15, inRange p 1 1 0 1, stateRule c (x.state != .device)])

/-- Checks of LANE_MAP (R77). -/
def acceptsLaneMap (_ : Env) (j : Job) (c : Chip) : Bool :=
  let p := j.payload
  let ps := (List.range 16).map fun l => rd p l 1
  passes ([lenIs 32 j, param ((mapFault ps).getD 0) (mapFault ps).isNone, reserved p 16 16, stateRule c (mode c == 4),
     stateRule c (ps.all fun n => n == 0xFF || (vget c.port n).state == .ready)])

/-- Checks of LANE_GET_STATUS (R58). -/
def acceptsLaneGetStatus (_ : Env) (j : Job) (_ : Chip) : Bool :=
  passes ([lenIs 0 j])

/-- Checks of VCAM_CONFIGURE (R80). -/
def acceptsVcamConfigure (_ : Env) (j : Job) (c : Chip) : Bool :=
  let p := j.payload
  let k := rd p 0 1
  let on := rd p 2 1 == 1
  let cfg := vcamCfgOf p
  let n := cfg.port
  passes ([lenIs 32 j, inRange p 0 1 0 3, inRange p 1 1 0 15, inRange p 2 1 0 1, inRange p 3 1 0 1, param 4 ([1, 2, 4].contains cfg.links),
     param 5 (linkSpeeds.contains cfg.speed), param 6 (isPow2 cfg.cdDecimation && cfg.cdDecimation ≤ 256), inRange p 8 4 0 262143,
     param 12 (cfg.columnCount % max 1 cfg.cdDecimation == 0 && cfg.columnCount / max 1 cfg.cdDecimation ≤ 65536), inRange p 16 2 1 4096,
     inRange p 18 2 1 65535, reserved p 20 12, crossRule (!on || cfg.fits c.trig.minPeriod),
     stateRule c (!on || turnable c k n),
     ownRule stNoSpace (!on || !((List.range 4).all fun i => (vget c.vcam i).enabled && (vget c.vcam i).cfg.port != n))])

/-- Checks of CAL_FLAT_FIELD (R105). -/
def acceptsCalFlatField (_ : Env) (j : Job) (c : Chip) : Bool :=
  let p := j.payload
  let k := flatCfgOf p
  let held := c.cal.results.find? fun r => r.id == k.resultId
  passes ([lenIs 36 j, param 0 (k.mask != 0 && lanesMapped c k.mask), inRange p 2 1 0 1, inRange p 3 1 8 15, param 4 (k.bright || k.resultId == 0),
     inRange p 8 2 256 4000, inRange p 14 2 10 900, inRange p 16 1 1 8, reserved p 17 1, inRange p 18 2 1 1024, inRange p 32 2 1 3600,
     reserved p 34 2, stateRule c (mode c == 5), ownRule stBusy (!calibrating c), ownRule stNoSpace (k.bright || decide (c.cal.results.length < 8)),
     ownRule stNotFound (!k.bright || held.isSome),
     stateRule c (!k.bright || (held.map fun r => r.kind == 0 && r.runState == 1 && (setBits 16 k.mask).all fun l => bit r.laneMask l).getD true)])

/-- Checks of CAL_GEOMETRY (R109). -/
def acceptsCalGeometry (_ : Env) (j : Job) (c : Chip) : Bool :=
  let p := j.payload
  let k := geoCfgOf p
  passes ([lenOk (p.length == 160 + 4 * k.edgeCount), param 0 (k.mask != 0 && lanesMapped c k.mask), inRange p 2 1 4 12, inRange p 3 1 1 7,
     inRange p 4 2 8 960, reserved p 6 2, inRange p 8 4 16 65535, inRange p 30 2 1 3600, param 160 (strictlyRising (edgesOf p)),
     stateRule c (mode c == 5), ownRule stBusy (!calibrating c), ownRule stNoSpace (decide (c.cal.results.length < 8))])

/-- Checks of CAL_GET_RESULT (R118). -/
def acceptsCalGetResult (_ : Env) (j : Job) (c : Chip) : Bool :=
  let p := j.payload
  let section_ := rd p 4 1
  let first := rd p 6 2
  let r := c.cal.results.find? fun r => r.id == rd p 0 4
  passes ([lenIs 12 j, inRange p 4 1 0 5, inRange p 5 1 0 15, param 6 (section_ != 2 || decide (first < 16384)), inRange p 8 1 0 1, reserved p 9 3,
     ownRule stNotFound (section_ == 5 || r.isSome)])

/-- Checks of PIPE_SET_CORRECTION (R114). -/
def acceptsPipeSetCorrection (_ : Env) (j : Job) (c : Chip) : Bool :=
  let p := j.payload
  let item := rd p 4 1
  let id := rd p 0 4
  let q := p.drop 4
  let result := c.cal.results.find? fun r => r.id == rd p 8 4
  let mask := rd p 12 2
  let own : List Check := match item with
    | 0 => [lenIs 32 j, reserved p 6 2, inRange p 18 1 0 1, param 19 (rd p 19 1 < 8), reserved p 22 2]
    | 1 => [lenOk (p.length == 16 + 4 * rd p 10 2), reserved p 6 2, reserved p 12 4]
    | 2 => [lenIs 1032 j, reserved p 6 2]
    | 3 => [lenIs 16 j, reserved p 6 2, reserved p 14 2]
    | _ => [lenOk (8 ≤ p.length), param 4 false]
  let known : List Check := if item = 3 then
      [param 12 (match result with
        | some r => (setBits 16 mask).all fun l => r.lanes.any fun x => x.lane == l
        | none => true)] else []
  let after : List Check := if item = 3 then
      [ownRule stNotFound result.isSome, stateRule c ((result.map fun r => r.status == stOk && r.runState == 2).getD true)] else []
  let es : List Entry := match item, result with
    | 3, some r => calEntries c r mask 12
    | _, _ => [{ code := 0x0500, payload := q }]
  passes ((own ++ known ++ after ++ stagingChecks c id es es.length))

/-- Checks of PIPE_SET_STITCH (R149). -/
def acceptsPipeSetStitch (_ : Env) (j : Job) (c : Chip) : Bool :=
  let p := j.payload
  passes ([lenIs 28 j, inRange p 5 1 0 1, param 6 (rd p 6 1 < 4), reserved p 7 1, reserved p 25 3] ++ stagingChecks c (rd j.payload 0 4) [{ code := 0x0501, payload := j.payload.drop 4 }] 1)

/-- Checks of PIPE_SET_REFERENCE (R179). -/
def acceptsPipeSetReference (_ : Env) (j : Job) (c : Chip) : Bool :=
  passes ([lenIs 24 j, param 6 (rd j.payload 6 1 < 4), reserved j.payload 9 1, reserved j.payload 20 4] ++ stagingChecks c (rd j.payload 0 4) [{ code := 0x0502, payload := j.payload.drop 4 }] 1)

/-- Checks of PIPE_SET_DETECTION (R180). -/
def acceptsPipeSetDetection (_ : Env) (j : Job) (c : Chip) : Bool :=
  let p := j.payload
  let own : List Check := match rd p 4 1 with
    | 0 => [lenIs 40 j, reserved p 5 3, reserved p 37 3]
    | 1 => [lenIs 20 j, reserved p 5 3, inRange p 9 1 0 8, inRange p 10 1 0 3, inRange p 11 1 0 3, reserved p 16 4]
    | _ => [lenOk (8 ≤ p.length), param 4 false]
  passes (own ++ stagingChecks c (rd j.payload 0 4) [{ code := 0x0503, payload := j.payload.drop 4 }] 1)

/-- Checks of PIPE_SET_FILTERS (R181). -/
def acceptsPipeSetFilters (_ : Env) (j : Job) (c : Chip) : Bool :=
  let p := j.payload
  let u := rd p 4 1
  let kind := rd p 5 1
  let n := if u = 3 then 0 else coeffCount kind (rd p 6 1) (rd p 7 1)
  passes (([lenOk (p.length == 12 + 2 * n), inRange p 4 1 0 3, param 5 (if u = 3 then kind < 2 else kind < 3)] ++
     (if u = 3 then [reserved p 8 1, reserved p 9 1] else [param 9 (kind == 1 || rd p 9 1 == 0), reserved p 10 2])) ++ stagingChecks c (rd j.payload 0 4) [{ code := 0x0504, payload := j.payload.drop 4 }] 1)

/-- Checks of PIPE_SET_LABELLING (R211). -/
def acceptsPipeSetLabelling (_ : Env) (j : Job) (c : Chip) : Bool :=
  passes ([lenIs 16 j, reserved j.payload 6 2, reserved j.payload 12 4] ++ stagingChecks c (rd j.payload 0 4) [{ code := 0x0505, payload := j.payload.drop 4 }] 1)

/-- Checks of PIPE_SET_TILES (R212). -/
def acceptsPipeSetTiles (_ : Env) (j : Job) (c : Chip) : Bool :=
  let p := j.payload
  passes ([lenIs 24 j, param 4 (rd p 4 1 < 8), inRange p 5 1 0 1, reserved p 14 2, reserved p 20 4] ++ stagingChecks c (rd j.payload 0 4) [{ code := 0x0508, payload := j.payload.drop 4 }] 1)

/-- Checks of PIPE_LOAD_CLASSIFIER (R226). -/
def acceptsPipeLoadClassifier (_ : Env) (j : Job) (c : Chip) : Bool :=
  let c := releaseModel c
  let p := j.payload
  let id := rd p 0 4
  let f := rd p 4 1
  let n := rd p 6 2
  let first := bit f 0
  let last := bit f 1
  let unload := bit f 2
  let old := classifierEntry c id
  let held : List Byte := if first then [] else (old.map fun e => e.payload.drop 1).getD []
  let bytes := held ++ p.drop 16
  let counted := (if first then 0 else (old.bind (·.counted)).getD 0) + (p.length - 4)
  let bad := decide (4000 < n) || n % 8 != 0 || (unload && !(first && last && n == 0))
  let e : Entry := { code := 0x0506, payload := le 1 (b2n unload) ++ bytes, counted := some counted, complete := last
                     invalid := bad || (!first && (old.map (·.invalid)).getD false) }
  let room : Entry := { e with counted := some (p.length - 4) }
  passes (([lenOk (p.length == 16 + n), param 4 (f < 8), reserved p 5 1, reserved p 12 4] ++
      stagingChecks c id [room] (b2n first) ++
      [crossRule (!first || old.isNone), ownParam 8 (if first then rd p 8 4 == 0 else match old with
        | some o => !o.complete && rd p 8 4 == held.length
        | none => false)]))

/-- Checks of PIPE_SET_RECURRENCE (R239). -/
def acceptsPipeSetRecurrence (_ : Env) (j : Job) (c : Chip) : Bool :=
  let p := j.payload
  let own : List Check := match rd p 4 1 with
    | 0 => [lenIs 16 j, reserved p 5 3, reserved p 10 6]
    | 1 => [lenIs 60 j, reserved p 5 3, inRange p 9 1 0 1, reserved p 14 2, reserved p 27 1]
    | _ => [lenOk (8 ≤ p.length), param 4 false]
  passes (own ++ stagingChecks c (rd j.payload 0 4) [{ code := 0x0507, payload := j.payload.drop 4 }] 1)

/-- Checks of OUT_SET_RECORD_RING (R214). -/
def acceptsOutSetRecordRing (_ : Env) (j : Job) (c : Chip) : Bool :=
  let p := j.payload
  let enable := bit (rd p 0 1) 0
  let old := c.records.ring
  let new := ringAt p 128
  passes ((outRingFields j 1024 4194304 [reserved p 12 4] ++ ringChecks c old enable new 1))

/-- Checks of OUT_SET_TILE_RING (R214). -/
def acceptsOutSetTileRing (_ : Env) (j : Job) (c : Chip) : Bool :=
  let p := j.payload
  let enable := bit (rd p 0 1) 0
  let old := c.tiles.ring
  let new := ringAt p (rd p 12 4)
  let slot := param 12 (rd p 12 4 % 4096 == 0 && decide (slotNeeded c.tiles.cfg ≤ rd p 12 4))
  passes ((outRingFields j 16 65536 [slot] ++ ringChecks c old enable new 2))

/-- Checks of OUT_GET_STATS (R485). -/
def acceptsOutGetStats (_ : Env) (j : Job) (_ : Chip) : Bool :=
  let k := statSections j.payload
  passes ([lenIs 4 j, param 0 (k < 32), reserved j.payload 1 3])

/-- Checks of LOOKBACK_CONFIGURE (R270). -/
def acceptsLookbackConfigure (_ : Env) (j : Job) (c : Chip) : Bool :=
  let p := j.payload
  let f := rd p 0 1
  let top := maxRingGib c
  let gib := if rd p 4 4 = 0 then top else rd p 4 4
  let first := bit f 0 && !c.orangery.everEnabled
  let resize := gib != ringGibNow c
  passes ([lenIs 16 j, param 0 (f < 4), reserved p 1 3, param 4 (rd p 4 4 ≤ top), inRange p 8 4 10 10000, reserved p 12 4,
     stateRule c (!(first || resize) || mode c == 3 || mode c == 4)])

/-- Checks of LOOKBACK_RETRIEVE (R251). -/
def acceptsLookbackRetrieve (_ : Env) (j : Job) (c : Chip) : Bool :=
  let p := j.payload
  let o := c.orangery
  let r := regionOf p 0
  let lines := (regionSpan o r).2
  let w := (regionGrid o r).2
  let ch := rd p 26 1
  let raw := rd p 25 1 == 0
  let line := w * (1 + rd p 24 1)
  passes ((lenIs 56 j :: regionChecks c p 0 65535 262144 ++
     [inRange p 24 1 0 1, inRange p 25 1 0 4, param 26 (ch == 0xFF || (12 ≤ ch && ch ≤ 15)), reserved p 27 1,
      param 28 (!raw || (rd p 28 4 % 32 == 0 && decide (line ≤ rd p 28 4))), param 32 (rd p 32 8 % 32 == 0), param 48 (rd p 48 8 % 32 == 0),
      stateRule c (lookbackServes c), ownRule stBusy (decide (jobsWaiting c < 16)), ownRule stNoSpace (!raw || decide (lines * rd p 28 4 ≤ rd p 40 8))]))

/-- Checks of LOOKBACK_REPLAY (R259). -/
def acceptsLookbackReplay (_ : Env) (j : Job) (c : Chip) : Bool :=
  let p := j.payload
  let o := c.orangery
  let id := rd p 24 4
  let es := ((openTx c id).map (·.entries)).getD []
  passes ((lenIs 40 j :: regionChecks c p 0 16777216 32768 ++
     [ownParam 24 (id == 0 || (openTx c id).isNone || replayEntriesOk es c), inRange p 28 4 0 65536, param 32 (rd p 32 1 < 2), reserved p 33 7,
      stateRule c (lookbackServes c), ownRule stBusy (decide (jobsWaiting c < 16) && !(jobsLive o).any (·.replay)),
      ownRule stNotFound (id == 0 || (openTx c id).isSome), ownRule stNotReady c.engines.spare.isSome]))

/-- Checks of LOOKBACK_PIN (R257). -/
def acceptsLookbackPin (_ : Env) (j : Job) (c : Chip) : Bool :=
  let p := j.payload
  let o := c.orangery
  let pin := rd p 1 1 == 1
  let used := o.pins.any fun x => x.id == rd p 0 1
  passes (([lenIs 32 j, inRange p 0 1 0 15, inRange p 1 1 0 1, reserved p 2 6] ++ (if pin then regionChecks c p 8 65535 262144 else []) ++
     [stateRule c (lookbackServes c && !(pin && used)), ownRule stNotFound (pin || used)]))

/-- Checks of LOOKBACK_STATUS (R250). -/
def acceptsLookbackStatus (_ : Env) (j : Job) (c : Chip) : Bool :=
  let id := rd j.payload 0 4
  let job := c.orangery.jobs.find? fun x => x.id == id
  passes ([lenIs 4 j, ownRule stNotFound (id == 0 || job.isSome)])

/-- Checks of VIEW_CONFIGURE (R271). -/
def acceptsViewConfigure (_ : Env) (j : Job) (c : Chip) : Bool :=
  let p := j.payload
  let v := viewOf p
  let dma := v.delivery == 0
  let k := rd p 0 1
  passes ([lenIs 64 j, inRange p 0 1 0 3, inRange p 1 1 0 3, inRange p 2 2 2 256, inRange p 4 2 1 4096, inRange p 6 2 16 2160, inRange p 8 4 0 262143,
     param 12 (v.columnCount % max 1 v.cdDecimation == 0 && decide (1 ≤ v.width) && decide (v.width ≤ 3840)), inRange p 16 1 1 60,
     param 17 (rd p 17 1 < 4), inRange p 19 1 0 2, param 20 (dma || (96 ≤ v.payloadType && v.payloadType ≤ 127)), reserved p 21 1,
     param 22 (dma || (512 ≤ v.packetPayload && v.packetPayload ≤ 8960)), param 28 (dma || v.destPort % 2 == 0), reserved p 30 2, reserved p 38 2,
     param 40 (!dma || rd p 40 8 % 4096 == 0), param 48 (!dma || (isPow2 (rd p 48 4) && 2 ≤ rd p 48 4 && rd p 48 4 ≤ 64)),
     param 52 (!dma || (rd p 52 4 % 4096 == 0 && decide (v.frameBytes ≤ rd p 52 4))), param 56 (!dma || rd p 56 8 % 32 == 0),
     stateRule c (!(vget c.view k).started)])

/-- Checks of VIEW_STREAM_START (R271). -/
def acceptsViewStreamStart (_ : Env) (j : Job) (c : Chip) : Bool :=
  let p := j.payload
  let k := rd p 0 1
  let v := vget c.view k
  let d := v.cfg.delivery
  let rtpOk := d == 0 || (v.cfg.width % 2 == 0 && decide ((portRate c d + rtpRate c v.cfg) * 100 ≤ lineRate c (d - 1) * 80))
  passes ([lenIs 4 j, inRange p 0 1 0 3, reserved p 1 3, crossRule (!v.configured || v.started || rtpOk), stateRule c (v.configured && !v.started),
     ownRule stBusy (d != 0 || channelFree c (8 + k) 3)])

/-- Checks of VIEW_STREAM_STOP (R271). -/
def acceptsViewStreamStop (_ : Env) (j : Job) (c : Chip) : Bool :=
  let p := j.payload
  let k := rd p 0 1
  let v := vget c.view k
  passes ([lenIs 4 j, inRange p 0 1 0 3, reserved p 1 3, stateRule c v.started])

/-- Checks of ZIP_SUBMIT (R292). -/
def acceptsZipSubmit (_ : Env) (j : Job) (c : Chip) : Bool :=
  let p := j.payload
  let archive := rd p 0 1 == 4
  let ahead := (c.zip.jobs.filter fun y => y.state == 0).length
  passes (((if archive then archiveChecks j else zipChecks j ++ [inRange p 0 1 0 4]) ++ [stateRule c (mode c != 3), ownRule stBusy (decide (ahead < 64))]))

/-- Checks of ZIP_STATUS (R289). -/
def acceptsZipStatus (_ : Env) (j : Job) (c : Chip) : Bool :=
  let x := findZip c (rd j.payload 0 4)
  passes ([lenIs 4 j, ownRule stNotFound x.isSome])

/-- Checks of ZIP_CANCEL (R295). -/
def acceptsZipCancel (_ : Env) (j : Job) (c : Chip) : Bool :=
  let x := findZip c (rd j.payload 0 4)
  passes ([lenIs 4 j, ownRule stNotFound x.isSome])

/-- Checks of LEDGER_OPEN (R300). -/
def acceptsLedgerOpen (_ : Env) (j : Job) (c : Chip) : Bool :=
  let p := j.payload
  passes ([lenIs 8 j, inRange p 0 1 0 1, reserved p 1 3, stateRule c (ledgerModes c), ownRule stNoSpace (txCount c < 64)])

/-- Checks of LEDGER_COMMIT (R305). -/
def acceptsLedgerCommit (_ : Env) (j : Job) (c : Chip) : Bool :=
  let p := j.payload
  let id := rd p 0 4
  let kind := rd p 4 1
  passes [lenIs 32 j, inRange p 4 1 0 2, reserved p 5 3, param 8 (kind == 1 || rd p 8 8 == 0), param 16 (kind == 2 || rd p 16 6 == 0),
    param 22 (if kind = 2 then rd p 22 4 < 1000000000 else rd p 22 4 == 0), reserved p 26 6, param 4 (mode c != 4 || kind == 0),
    stateRule c (ledgerModes c), ownRule stNotFound (id != 0 && (findTx c id).isSome), stateRule c (openTx c id).isSome]

/-- Checks of LEDGER_ABORT (R312). -/
def acceptsLedgerAbort (_ : Env) (j : Job) (c : Chip) : Bool :=
  let id := rd j.payload 0 4
  passes ([lenIs 4 j, stateRule c (ledgerModes c), ownRule stNotFound (findTx c id).isSome])

/-- Checks of LEDGER_STATUS (R300). -/
def acceptsLedgerStatus (_ : Env) (j : Job) (c : Chip) : Bool :=
  let id := rd j.payload 0 4
  passes ([lenIs 4 j, ownRule stNotFound (id == 0 || (findTx c id).isSome)])

/-- Checks of AXIS_CONFIGURE (R340). -/
def acceptsAxisConfigure (_ : Env) (j : Job) (c : Chip) : Bool :=
  let p := j.payload
  let a := axisOf p
  let k := rd p 0 1
  let gpio (v : Nat) : Bool := v < 32 || v == 0xFF
  let x := vget c.axis k
  passes ([lenIs 72 j, inRange p 0 1 0 3, param 1 (rd p 1 1 < 16), inRange p 2 1 0 8, param 3 (a.encoder == 0xFF || (4 ≤ a.encoder && a.encoder ≤ 7)),
     inRange p 4 2 0 1023, inRange p 6 2 0 1023, inRange p 8 2 0 1023, inRange p 10 2 1 255,
     param 12 (100 ≤ a.blankNs && a.blankNs ≤ 4000 && a.blankNs % 4 == 0), inRange p 14 2 0 2000, inRange p 16 2 1 10000, param 18 (gpio a.swNegGpio),
     param 19 (gpio a.swPosGpio), param 20 (a.swFlags < 4), reserved p 21 3, inRange p 24 8 65536 (4000000 * 65536), param 32 (a.aMax != 0),
     param 36 (a.jMax != 0), param 40 (decide (a.aMax ≤ a.stopDecel)), param 44 (a.microstepsPerCount != 0), inRange p 48 4 1 (2 ^ 24),
     inRange p 52 4 10 1000000, param 56 (pos48 a.posMin), param 64 (pos48 a.posMax && decide (a.posMin < a.posMax)),
     stateRule c (x.state != .homing && x.state != .moving), ownRule stBusy (headOn c k).isNone,
     ownRule stBusy (!gpMux c 8 a.swNegGpio && !gpMux c 8 a.swPosGpio)])

/-- Checks of AXIS_HOME (R327). -/
def acceptsAxisHome (_ : Env) (j : Job) (c : Chip) : Bool :=
  let p := j.payload
  let k := rd p 0 1
  let x := vget c.axis k
  let r := rd p 1 1
  passes ([lenIs 32 j, inRange p 0 1 0 3,
     param 1 (match r with
       | 0 => x.cfg.encoder != 0xFF
       | 1 => x.cfg.swNegGpio != 0xFF
       | 2 => x.cfg.swPosGpio != 0xFF
       | _ => false),
     inRange p 2 1 0 1, reserved p 3 1, param 4 (decide (rd p 4 8 ≤ x.cfg.vMax)), param 16 (rd p 16 4 != 0), reserved p 20 4, param 24 (pos48 (rdS p 24 8)),
     stateRule c (x.state == .unreferenced || x.state == .idle), ownRule stBusy (headOn c k).isNone])

/-- Checks of AXIS_MOVE (R319). -/
def acceptsAxisMove (_ : Env) (j : Job) (c : Chip) : Bool :=
  let p := j.payload
  let q := p.drop 4
  let k := rd q 0 1
  let x := vget c.axis k
  passes [lenIs 24 j, rangeIf (rd p 0 4 == 0) (inRange p 4 1 0 3), inRange p 5 1 0 1, reserved p 6 2] &&
    if rd p 0 4 ≠ 0 then passes ([ownRule stBusy (headOn c k).isNone] ++ stagingChecks c (rd p 0 4) [{ code := 0x0B02, payload := p.drop 4 }] 1)
    else passes
      [param 8 (pos48 (rdS q 4 8) && targetOk x c.now (moveTarget x c.now q)), param 16 (decide (rd q 12 8 ≤ maxVelocity)),
       stateRule c (x.state == .idle || x.state == .moving || (x.state == .unreferenced && rd q 1 1 == 1)),
       ownRule stBusy ((headOn c k).isNone && !targetHeld c (0x0B02, k) 0)]

/-- Checks of AXIS_STOP (R324). -/
def acceptsAxisStop (_ : Env) (j : Job) (_ : Chip) : Bool :=
  let p := j.payload
  passes ([lenIs 4 j, inRange p 0 1 0 3, inRange p 1 1 0 1, param 2 (rd p 2 1 < 4), reserved p 3 1])

/-- Checks of AXIS_STATUS (R339). -/
def acceptsAxisStatus (_ : Env) (j : Job) (_ : Chip) : Bool :=
  let p := j.payload
  passes ([lenIs 4 j, inRange p 0 1 0 3, inRange p 1 1 0 1])

/-- Checks of MARK_CONFIGURE (R341). -/
def acceptsMarkConfigure (_ : Env) (j : Job) (c : Chip) : Bool :=
  let p := j.payload
  let head := rd p 4 1 == 0
  passes (([lenIs 56 j, inRange p 4 1 0 1, inRange p 6 1 0 1, reserved p 7 1, param 10 (rd p 10 1 < 2)] ++
    (if head then [reserved p 11 1, reserved p 44 12] else [])) ++ stagingChecks c (rd j.payload 0 4) [{ code := 0x0B05, payload := j.payload.drop 4 }] 1)

/-- Checks of TIME_GET (R345). -/
def acceptsTimeGet (_ : Env) (j : Job) (_ : Chip) : Bool :=
  passes ([lenIs 4 j, inRange j.payload 0 1 0 1, reserved j.payload 1 3])

/-- Checks of TIME_SET (R370). -/
def acceptsTimeSet (_ : Env) (j : Job) (c : Chip) : Bool :=
  let p := j.payload
  let relative := rd p 0 1 == 1
  passes ([lenIs 32 j, inRange p 0 1 0 1, reserved p 1 7, param 14 (relative || rd p 14 4 < 1000000000), reserved p 18 6,
      param 24 (!relative || stepFits c (rdS p 24 8)), stateRule c (c.time.servo.source != 1)])

/-- Checks of PTP_CONFIGURE (R349). -/
def acceptsPtpConfigure (_ : Env) (j : Job) (c : Chip) : Bool :=
  let p := j.payload
  if rd p 0 1 = 0 then
    passes [lenIs 16 j, reserved p 2 2, inRange p 4 1 0 2, param 5 (decide (rd p 5 1 ≤ 127) && (rd p 4 1 != 2 || rd p 5 1 == 0)), param 9 (rd p 9 1 < 4),
      reserved p 10 2, inRangeS p 12 1 (-7) 1, inRangeS p 13 1 (-3) 4, inRangeS p 14 1 (-7) 6, inRange p 15 1 2 10,
      crossRule (rd p 4 1 != 2 || !(c.time.eth.toList.any (·.udp)))]
  else
    passes [lenIs 44 j, param 0 (rd p 0 1 == 1), inRange p 1 1 0 1, reserved p 2 2, inRange p 4 1 0 1, inRange p 5 1 0 1, inRange p 6 1 0 1,
      param 7 (rd p 7 1 < 4), reserved p 14 2,
      param 28 (!bit (rd p 7 1) 1 || (decide (1 ≤ rd p 28 2 % 4096) && decide (rd p 28 2 % 4096 ≤ 4094))), reserved p 30 2,
      crossRule (rd p 6 1 != 1 || c.time.clock.profile != 2)]

/-- Checks of PTP_STATUS (R348). -/
def acceptsPtpStatus (_ : Env) (j : Job) (_ : Chip) : Bool :=
  let p := j.payload
  passes ([lenIs 4 j, inRange p 0 1 0 1, reserved p 1 3])

/-- Checks of SERVO_CONFIGURE (R353). -/
def acceptsServoConfigure (_ : Env) (j : Job) (_ : Chip) : Bool :=
  let p := j.payload
  passes ([lenIs 36 j, inRange p 0 1 0 2, inRange p 1 1 0 1, param 2 (rd p 2 1 < 8), inRange p 3 1 1 255, inRange p 12 4 100 1000000000,
      inRange p 16 4 1 1000000, inRange p 20 4 10 1000000, inRange p 24 4 0 3600, inRange p 32 2 1 999, reserved p 34 2])

/-- Checks of PULSE_SCHEDULE (R365). -/
def acceptsPulseSchedule (_ : Env) (j : Job) (c : Chip) : Bool :=
  let p := j.payload
  let o := rd p 4 1
  let mode := rd p 5 1
  let x := pulseOf (p.drop 4)
  passes (lenIs 40 j :: pulseFields (rd p 0 4 == 0) p ++ [stateRule c (mode < 2 || c.trig.anchored), ownRule stBusy (headOfOutput c o).isNone]) &&
    if rd p 0 4 ≠ 0 then passes (stagingChecks c (rd p 0 4) [{ code := 0x0A05, payload := p.drop 4 }] 1)
    else passes [ownRule stBusy (!targetHeld c (0x0A05, o) 0), ownRule stLate (!rejectsLate c x)]

/-- Checks of PULSE_CANCEL (R366). -/
def acceptsPulseCancel (_ : Env) (j : Job) (c : Chip) : Bool :=
  let p := j.payload
  let o := rd p 0 1
  passes ([lenIs 4 j, inRange p 0 1 0 7, reserved p 1 3, ownRule stBusy ((headOfOutput c o).isNone && !targetHeld c (0x0A05, o) 0)])

/-- Checks of CAPTURE_CONFIGURE (R369). -/
def acceptsCaptureConfigure (_ : Env) (j : Job) (c : Chip) : Bool :=
  let p := j.payload
  let i := rd p 0 1
  let enable := rd p 1 1 != 0
  let old := (vget c.time.capture i).ring
  let new : Ring := { channel := rd p 3 1, irqCount := rd p 4 2, irqHoldoffUs := rd p 6 2, entryCount := rd p 8 4, entrySize := 32, base := rd p 16 8, headAddr := rd p 24 8 }
  passes (([lenIs 32 j, inRange p 0 1 0 3, inRange p 1 1 0 3, inRange p 2 1 0 15, inRange p 3 1 24 31, inRange p 6 2 0 10000,
      param 8 (isPow2 (rd p 8 4) && decide (64 ≤ rd p 8 4) && decide (rd p 8 4 ≤ 65536)), reserved p 12 4, param 16 (rd p 16 8 % 4096 == 0),
      param 24 (rd p 24 8 % 32 == 0)] ++ ringChecks c old enable new 0xFF))

/-- Checks of AUX_CONFIGURE (R384). -/
def acceptsAuxConfigure (_ : Env) (j : Job) (c : Chip) : Bool :=
  let p := j.payload
  let old := c.aux.ring
  let new : Ring := {
    channel := rd p 5 1, irqCount := rd p 6 2, irqHoldoffUs := rd p 8 2, entryCount := rd p 12 4, entrySize := 32, base := rd p 16 8, headAddr := rd p 24 8 }
  passes [lenIs 32 j, inRange p 0 1 0 2] &&
    if rd p 0 1 = 1 then
      passes [inRange p 1 1 0 7, reserved p 2 2, inRange p 4 1 0 1, inRange p 5 1 0 1, inRange p 6 1 4 8, inRange p 7 1 0 2, inRange p 8 1 0 3,
        inRange p 9 1 0 1, inRange p 10 2 0 4095, param 12 (decide (rd p 12 1 ≤ 31) || rd p 12 1 == 0xFF), reserved p 13 3,
        inRangeS p 16 4 (-8388608) 8388607, inRange p 20 4 0x200000 0x800000, crossRule (({} : Aux).configured p).rateOk,
        stateRule c (!lampInUse c (rd p 1 1) || mode c == 4 || mode c == 5),
        ownRule stBusy (!gpSwitch c (rd p 12 1) && !gpMux c (rd p 1 1) (rd p 12 1))]
    else if rd p 0 1 = 2 then passes [reserved p 2 2]
    else passes ([reserved p 2 2, inRange p 4 1 0 1, inRange p 5 1 24 31, inRange p 8 2 0 10000,
        param 12 (isPow2 (rd p 12 4) && decide (64 ≤ rd p 12 4) && decide (rd p 12 4 ≤ 65536)), param 16 (rd p 16 8 % 4096 == 0), param 24 (rd p 24 8 % 32 == 0)] ++
        ringChecks c old (bit (rd p 4 1) 0) new 7)

/-- Checks of AUX_LOAD_COEFFS (R386). -/
def acceptsAuxLoadCoeffs (_ : Env) (j : Job) (c : Chip) : Bool :=
  let p := j.payload
  let a := vget c.aux.ch (rd p 4 1)
  passes (lenOk (p.length == 8 + 4 * rd p 6 2) :: auxLoadFields (rd p 0 4 == 0) p) &&
    if rd p 0 4 ≠ 0 then passes (stagingChecks c (rd p 0 4) [{ code := 0x0C01, payload := p.drop 4 }] 1)
    else passes [crossRule (bankOf (p.drop 4)).ok, ownRule stBusy (!a.fading && !a.itemPending && !targetHeld c (0x0C01, 0) 0)]

/-- Checks of AUX_SWAP_BANK (R387). -/
def acceptsAuxSwapBank (_ : Env) (j : Job) (c : Chip) : Bool :=
  let p := j.payload
  let a := vget c.aux.ch (rd p 4 1)
  passes (lenIs 8 j :: auxSwapFields (rd p 0 4 == 0) p) &&
    if rd p 0 4 ≠ 0 then passes (stagingChecks c (rd p 0 4) [{ code := 0x0C02, payload := p.drop 4 }] 1)
    else passes [stateRule c a.enable, ownRule stBusy (!a.itemPending && !targetHeld c (0x0C01, 0) 0)]

/-- Checks of AUX_TONE_CONFIGURE (R389). -/
def acceptsAuxToneConfigure (_ : Env) (j : Job) (c : Chip) : Bool :=
  let p := j.payload
  let a := vget c.aux.ch (rd p 2 1)
  passes ([lenIs 20 j, inRange p 0 1 0 1, inRange p 1 1 0 1, inRange p 2 1 0 7, reserved p 3 1,
      param 4 (rd p 4 4 != 0 && decide (2 * rd p 4 4 * a.decimation < 10240000000)), inRange p 8 4 16 65536, crossRule (decide (rd p 16 4 ≤ rd p 12 4))])

/-- Checks of AUX_READ (R380). -/
def acceptsAuxRead (_ : Env) (j : Job) (_ : Chip) : Bool :=
  let p := j.payload
  passes ([lenIs 4 j, inRange p 0 1 0 3, reserved p 1 3])

/-- Checks of CAL_AUX (R383). -/
def acceptsCalAux (_ : Env) (j : Job) (c : Chip) : Bool :=
  let p := j.payload
  let mask := rd p 0 1
  let external := rd p 1 1 == 1
  let second := external && rd p 2 1 == 1
  passes ([lenIs 16 j, param 0 (mask != 0 && (setBits 8 mask).all fun k => (vget c.aux.ch k).enable), inRange p 1 1 0 1,
      param 2 (decide (rd p 2 1 ≤ if external then 1 else 0)), inRange p 3 1 8 16,
      param 4 (if external then decide (100000 ≤ rd p 4 4) && decide (rd p 4 4 ≤ 1150000) else rd p 4 4 == 1000000), inRange p 12 1 0 1, reserved p 13 3,
      stateRule c (mode c == 5 && (!second || (setBits 8 mask).all fun k => (vget c.aux.cal k).zero.isSome)), ownRule stBusy (!calibrating c)])

/-- Checks of CAL_LINKS (R484). -/
def acceptsCalLinks (_ : Env) (j : Job) (c : Chip) : Bool :=
  let p := j.payload
  let start := rd p 6 1 == 0
  passes (([lenIs 8 j, inRange p 2 2 1 3600, inRange p 4 1 0 64, inRange p 5 1 1 64, inRange p 6 1 0 1, reserved p 7 1] ++
     (if start then [stateRule c (mode c == 5), ownRule stBusy (!calibrating c)] else [ownRule stNotFound c.cal.links.isSome])))

/-- Checks of GANG_CONFIGURE (R408). -/
def acceptsGangConfigure (_ : Env) (j : Job) (c : Chip) : Bool :=
  let p := j.payload
  let action := rd p 23 1
  let last := rd p 1 1 + 1 == rd p 0 1
  let zone := rd p 4 2
  passes (([lenIs 32 j, inRange p 0 1 1 4, param 1 (decide (rd p 1 1 < max 1 (rd p 0 1))), inRange p 2 1 0 1, param 3 (rd p 3 1 < 16)] ++ (gangSeamFields p).take 1 ++
      [param 6 (rd p 6 2 == 0xFFFF || decide (rd p 6 2 < zone)), param 8 (last || (decide (max 56 (zone + 8) ≤ rd p 8 4) && decide (rd p 8 4 ≤ 264))),
       inRange p 12 4 16000 2000000000] ++ (gangSeamFields p).drop 1 ++
      [inRange p 23 1 0 1, stateRule c (if action = 0 then mode c == 4 else c.gang.state == .island || c.gang.state == .rejoining)]))

/-- Checks of GANG_STATUS (R402). -/
def acceptsGangStatus (_ : Env) (j : Job) (_ : Chip) : Bool :=
  passes ([lenIs 0 j])

/-- Checks of DRAM_STATUS (R429). -/
def acceptsDramStatus (_ : Env) (j : Job) (_ : Chip) : Bool :=
  let p := j.payload
  passes ([lenIs 4 j, param 0 (rd p 1 1 == 2 || decide (rd p 0 1 < 4)), inRange p 1 1 0 2, reserved p 2 2])

/-- Checks of SYS_SET_EVENT_RING (R463). -/
def acceptsSysSetEventRing (_ : Env) (j : Job) (c : Chip) : Bool :=
  let p := j.payload
  let enable := bit (rd p 0 1) 0
  let old := c.evq.ring
  let new : Ring := {
    irqCount := rd p 2 2, irqHoldoffUs := rd p 4 2, entryCount := rd p 8 4, entrySize := 32, base := rd p 16 8, headAddr := rd p 24 8 }
  passes ([lenIs 32 j, param 0 (rd p 0 1 < 2), param 1 (rd p 1 1 ≤ 4 || rd p 1 1 == 0xFF), inRange p 4 2 0 10000, reserved p 6 2,
     param 8 (isPow2 (rd p 8 4) && 64 ≤ rd p 8 4 && rd p 8 4 ≤ 65536), reserved p 12 4,
     param 16 (rd p 16 8 % 4096 == 0), param 24 (rd p 24 8 % 32 == 0),
     stateRule c (!(old.enabled && enable) || (old.base == new.base && old.entryCount == new.entryCount && old.headAddr == new.headAddr))])

/-- Checks of SYS_SET_EVENT_MASK (R464). -/
def acceptsSysSetEventMask (_ : Env) (j : Job) (_ : Chip) : Bool :=
  passes ([lenIs 32 j])

/-- Checks of HEALTH_STATUS (R513). -/
def acceptsHealthStatus (_ : Env) (j : Job) (c : Chip) : Bool :=
  let p := j.payload
  let set := bit (rd p 0 1) 0
  let enable := bit (rd p 1 1) 1
  let old := c.life.ring
  let new : Ring := { channel := rd p 2 1, irqCount := rd p 4 2, irqHoldoffUs := rd p 6 2, entryCount := rd p 8 4, entrySize := 128,
                      base := rd p 16 8, headAddr := rd p 24 8 }
  passes (([lenIs 32 j, param 0 (rd p 0 1 < 2)] ++
      (if set then [param 1 (rd p 1 1 < 4), inRange p 2 1 24 31, reserved p 3 1, inRange p 6 2 0 10000,
        param 8 (isPow2 (rd p 8 4) && decide (64 ≤ rd p 8 4) && decide (rd p 8 4 ≤ 65536)), reserved p 12 4,
        param 16 (rd p 16 8 % 4096 == 0), param 24 (rd p 24 8 % 32 == 0)] ++ ringChecks c old enable new 8 else [])))

/-- Checks of THERMAL_CONFIGURE (R501). -/
def acceptsThermalConfigure (_ : Env) (j : Job) (_ : Chip) : Bool :=
  let p := j.payload
  passes ([lenIs 16 j, inRangeS p 0 2 960 1520, param 2 (decide (rdS p 2 2 ≤ 1600)), param 4 (decide (rdS p 4 2 ≤ 1680)),
      param 6 (decide (rdS p 6 2 ≤ 1760)), param 8 (decide (rdS p 8 2 ≤ 1888)), reserved p 10 2, inRange p 12 4 10 10000,
      crossRule (strictlyRising ((List.range 5).map fun i => rdS p (2 * i) 2))])

/-- Checks of THERMAL_ACK_REQUEST (R496). -/
def acceptsThermalAckRequest (_ : Env) (j : Job) (c : Chip) : Bool :=
  let x := rd j.payload 0 4
  passes ([lenIs 4 j, param 0 (x ≤ c.health.graceMs), stateRule c (c.health.state == .grace && (x == 0 || !c.health.extensionUsed))])

/-- Checks of LIFE_READ (R508). -/
def acceptsLifeRead (_ : Env) (j : Job) (_ : Chip) : Bool :=
  let p := j.payload
  let sec := rd p 0 1
  passes (([lenIs 10 j, inRange p 0 1 0 1, reserved p 1 3] ++ (if sec = 1 then [inRange p 8 2 1 62] else [])))

/-- Checks of LIFE_SET_CALENDAR (R512). -/
def acceptsLifeSetCalendar (_ : Env) (j : Job) (_ : Chip) : Bool :=
  let p := j.payload
  passes ([lenIs 4 j, inRangeS p 0 2 (-1000) 1000, param 2 (rd p 2 1 < 2), reserved p 3 1])

/-- Checks of SEC_SESSION_OPEN (R518). -/
def acceptsSecSessionOpen (env : Env) (j : Job) (c : Chip) : Bool :=
  let p := j.payload
  passes ((proofChecks c false env.mb j (inRange p 4 4 60 86400)))

/-- Checks of SEC_SESSION_CLOSE (R471). -/
def acceptsSecSessionClose (env : Env) (j : Job) (c : Chip) : Bool :=
  passes ([lenIs 0 j, ownRule stNotFound (vget c.sec.sessions env.mb).isSome])

/-- Checks of SEC_FUSE_READ (R523). -/
def acceptsSecFuseRead (_ : Env) (j : Job) (_ : Chip) : Bool :=
  passes ([lenIs 0 j])

/-- Checks of SEC_FUSE_WRITE (R523). -/
def acceptsSecFuseWrite (_ : Env) (j : Job) (c : Chip) : Bool :=
  let p := j.payload
  let k := rd p 0 1
  let f := vget c.sec.fuses k
  let v := fuseTarget c p
  passes ([lenOk (p.length == if k = 2 then 36 else 4), param 0 ([0, 1, 2, 4].contains k), param 1 (rd p 1 1 == f.used), param 2 (fuseValueOk c p),
     ownRule stBusy (!c.supply.unstable), ownRule stFuseExhausted (v == f.fused || decide (f.used < changesAllowed k))])

/-- Checks of SEC_KEY_LOAD (R521). -/
def acceptsSecKeyLoad (_ : Env) (j : Job) (c : Chip) : Bool :=
  let p := j.payload
  let load := rd p 1 1 == 0
  passes ([lenOk (p.length == if load then 36 else 4), inRange p 0 1 1 7, inRange p 1 1 0 1, reserved p 2 2, ⟨!c.sec.sealed_, stAuthFail, 2, 8⟩])

/-- Checks of SEC_TAMPER_CONFIGURE (R525). -/
def acceptsSecTamperConfigure (_ : Env) (j : Job) (_ : Chip) : Bool :=
  let p := j.payload
  passes (((lenIs 12 j :: (List.range 9).map fun k => param k ([0, 1, 2, 0xFF].contains (rd p k 1))) ++ [param 9 (rd p 9 1 < 16), reserved p 10 2]))

/-- Checks of SEC_UNLOCK (R528). -/
def acceptsSecUnlock (env : Env) (j : Job) (c : Chip) : Bool :=
  let p := j.payload
  passes ((proofChecks c true env.mb j (reserved p 4 4)))

/-- Checks of SYS_GET_INFO (R2). -/
def acceptsSysGetInfo (_ : Env) (j : Job) (_ : Chip) : Bool :=
  passes ([lenIs 0 j])

/-- Checks of SYS_GET_CAPS (R19). -/
def acceptsSysGetCaps (_ : Env) (j : Job) (_ : Chip) : Bool :=
  passes ([lenIs 0 j])

/-- Checks of SYS_GET_MODE (R479). -/
def acceptsSysGetMode (_ : Env) (j : Job) (_ : Chip) : Bool :=
  passes ([lenIs 0 j])

/-- Checks of SYS_SET_MODE (R533). -/
def acceptsSysSetMode (_ : Env) (j : Job) (c : Chip) : Bool :=
  match baseOf (rd j.payload 0 1) with
  | none => false
  | some b =>
    let old := c.modes.base
    let c := if old = .configure ∧ b.triggers then checkMaps c else c
    passes [lenIs 4 j, reserved j.payload 1 3, stateRule c (b == old || modeAllowed c b), ownRule stBusy (c.modes.change == .none),
      ⟨!(b == .configure && old == .standby && c.dram.failed), stHwFault, 1, 8⟩]

/-- Checks of SYS_RESET_SUBSYSTEM (R436). -/
def acceptsSysResetSubsystem (_ : Env) (j : Job) (c : Chip) : Bool :=
  let p := j.payload
  let k := rd p 1 1
  let target := rd p 0 1
  passes ([lenIs 4 j, inRange p 0 1 0 4, param 1 (if target = 2 then k < 8 else if 3 ≤ target then k < 2 else true), reserved p 2 2,
     stateRule c (match target with
       | 2 => !lampInUse c k || mode c == 4 || mode c == 5
       | 4 => [4, 6, 7, 8, 9].contains (mode c)
       | _ => true)])

/-- Checks of SYS_FW_STAGE (R481). -/
def acceptsSysFwStage (env : Env) (j : Job) (c : Chip) : Bool :=
  let p := j.payload
  let chunks := rd p 0 1 == 1
  let first := bit (rd p 1 1) 0
  let n := rd p 2 2
  let total := rd p 8 4
  let held := (c.fw.stage.map fun x => x.data).getD []
  let before := if first then [] else held
  let size := if first then total else (c.fw.stage.map fun x => x.length).getD 0
  let busy := (c.fw.stage.map fun x => x.mb != env.mb % 8).getD false || c.modes.notReady == .activationPending
  !c.supply.held && passes
    ([lenOk (p.length == if chunks then 16 + n else 16), inRange p 0 1 0 1, param 1 (rd p 1 1 < 4), param 2 (!chunks || (1 ≤ n && n ≤ 4000)),
      param 4 (if chunks then true else rd p 4 4 % 32 == 0 && decide (rd p 4 4 + total ≤ 0x10000000)),
      param 8 (if chunks && !first then total == 0 else 1 ≤ total && total ≤ 16777216), reserved p 12 4, ownRule stBusy (!busy)] ++
     (if chunks then [ownParam 4 (rd p 4 4 == before.length && (first || c.fw.stage.isSome)), ownParam 2 (decide (before.length + n ≤ size)),
        crossRule (!bit (rd p 1 1) 1 || before.length + n == size)] else []))

/-- Checks of SYS_FW_ACTIVATE (R482). -/
def acceptsSysFwActivate (_ : Env) (j : Job) (c : Chip) : Bool :=
  let b := rd j.payload 0 1
  passes ([lenIs 4 j, inRange j.payload 0 1 0 1, reserved j.payload 1 3, ownParam 0 (b != c.fw.running && vget c.fw.valid b), ownRule stBusy c.fw.stage.isNone])

/-- Checks of SYS_EXPORT_CONFIG (R487). -/
def acceptsSysExportConfig (_ : Env) (j : Job) (c : Chip) : Bool :=
  let p := j.payload
  let off := rd p 0 4
  let x := imageOf c
  passes ([lenIs 8 j, param 0 (off % 32 == 0 && decide (off < windowBytes)), stateRule c (!([1, 2, 3].contains (mode c))),
     ownRule stNoSpace (decide (x.length ≤ rd p 4 4) && decide (off + x.length ≤ windowBytes))])

/-- Checks of SYS_IMPORT_CONFIG (R488). -/
def acceptsSysImportConfig (env : Env) (j : Job) (c : Chip) : Bool :=
  let p := j.payload
  let off := rd p 0 4
  let len := rd p 4 4
  let x := env.bulk.readBytes off (if off + len ≤ windowBytes then len else 0)
  let records := readRecords (rd x 20 4) (x.drop 64)
  let sound := decide (64 ≤ x.length) && rd x 0 4 == 0x46435750 && rd x 24 4 == len && rd x 28 4 == crc32 (x.drop 64)
  passes ([lenIs 8 j, param 0 (off % 32 == 0 && decide (off < windowBytes)), param 4 (decide (off + len ≤ windowBytes)), stateRule c (mode c == 4),
     ownRule stDataError sound, crossRule (rd x 4 2 == 1 && rd x 6 1 == 0), ownRule stDataError records.isSome,
     ownRule stNoSpace (txCount c < 64)])

end Sys2Proof.Machine
end

