-- ==== Sys2Proof/Certificates/Slice0/Obligations.lean ====
section
/-! DEFINITION. The statements for the provers. -/
section
open Sys2Proof Sys2Proof.Machine

/-- A step runs the command at the front of the queue on the state with the queue's rest; on an empty queue 4 ns pass, in
which the choppers of the powered axes sample their windings and nothing else changes (the model's choice, log entry 7). Every command answers a next state from every state and leaves the queue as it finds it. -/
def Obligations.StepRunsFrontCommand : Prop :=
  (∀ (i : Instr) (rest : List Instr) (s : State), s.pending = i :: rest → step s = exec i { s with pending := rest }) ∧
  (∀ s : State, s.pending = [] → step s = .next s.idle ∧ s.idle.host = s.host ∧ s.idle.bulk = s.bulk ∧ s.idle.pending = [] ∧
    s.idle.chip = { s.chip with now := s.chip.now + 4, fresh := s.idle.chip.fresh, out := s.idle.chip.out, axis := s.idle.chip.axis }) ∧
  (∀ (i : Instr) (s : State), ∃ u, exec i s = .next u ∧ u.pending = s.pending)

/-- Every step keeps both memories in canonical form, whatever the command and the state of the device, and takes exactly the front
command off the queue. -/
def Obligations.EveryStepKeepsCanonicalMemory : Prop :=
  ∀ s u : State, s.memOk = true → step s = .next u → u.memOk = true ∧ u.pending = s.pending.tail

/-- What reset leaves: nothing waiting, nothing listed in memory; no mailbox taken, answered or ignored; every event enabled and none
raised; the Sundial at 0 with the nominal increment; no MD anchor and trigger number 0; no halt, no lockdown, no ring enabled (R343,
R464, R543, R586, R588, R592). -/
def Obligations.ResetLeavesTheStatedValues : Prop :=
  State.reset.memOk = true ∧ State.reset.pending = [] ∧ State.reset.host = [] ∧ State.reset.bulk = [] ∧
  State.reset.chip.mbx.response = 0 ∧
  (∀ k : Fin 8, (vget State.reset.chip.mbx.mb k).owner = false ∧ (vget State.reset.chip.mbx.mb k).ignored = 0) ∧
  (∀ g : Fin 16, vget State.reset.chip.evq.mask g = 0xFFFF) ∧ State.reset.chip.evq.nextSequence = 0 ∧
  State.reset.chip.evq.ring.enabled = false ∧ State.reset.chip.records.ring.enabled = false ∧ State.reset.chip.tiles.ring.enabled = false ∧
  State.reset.chip.time.sun.s = 0 ∧ State.reset.chip.time.sun.ns = 0 ∧ State.reset.chip.time.sun.frac = 0 ∧
  State.reset.chip.time.sun.increment = 0x400000000 ∧ State.reset.chip.time.sun.everSet = false ∧
  State.reset.chip.trig.anchored = false ∧ State.reset.chip.trig.number = 0 ∧ State.reset.chip.regs.scratch = 0 ∧
  State.reset.chip.modes.thermalHalt = false ∧ State.reset.chip.modes.lockdown = false ∧
  (∀ ch : Fin 8, (vget State.reset.chip.enc ch).configured = false ∧ (vget State.reset.chip.enc ch).count = 0) ∧
  (∀ n : Fin 32, (vget State.reset.chip.pcie.dma n).state = .idle ∧ (vget State.reset.chip.pcie.dma n).owner = 0)

/-- A canonical memory: what is written is read back, every other address reads as before, the form is kept; and two canonical memories
that read the same at every address are the same. -/
def Obligations.MemoryReadsBackWhatIsWritten : Prop :=
  (∀ (m : Mem) (a : Nat) (bs : List Byte), m.wf = true →
    (m.writeBytes a bs).wf = true ∧
    (∀ i : Nat, i < bs.length → (m.writeBytes a bs).read (a + i) = bs.getD i 0) ∧
    (∀ k : Nat, (k < a ∨ a + bs.length ≤ k) → (m.writeBytes a bs).read k = m.read k)) ∧
  (∀ m n : Mem, m.wf = true → n.wf = true → (∀ a : Nat, m.read a = n.read a) → m = n)

/-- Multi-byte fields are little-endian (R10): byte i of an n-byte field is bits 8i to 8i + 7 of its value, and a field read where it was
laid down, whatever stands before and after it, gives its value back, unsigned and in two's complement. -/
def Obligations.FieldsReadBackLittleEndian : Prop :=
  (∀ n v i : Nat, i < n → (le n v).getD i 0 = BitVec.ofNat 8 (v / 2 ^ (8 * i)) ∧ (le n v).length = n) ∧
  (∀ (pre post : List Byte) (n v : Nat), v < 2 ^ (8 * n) → rd (pre ++ le n v ++ post) pre.length n = v) ∧
  (∀ (pre post : List Byte) (n : Nat) (v : Int), 0 < n → -(2 ^ (8 * n - 1) : Int) ≤ v → v < (2 ^ (8 * n - 1) : Int) →
    rdS (pre ++ leS n v ++ post) pre.length n = v)

/-- A configuration image gives its records back (R486): reading the bytes of a list of records yields that list, with every code and
every payload length the record header admits. -/
def Obligations.ImageRecordsReadBack : Prop :=
  ∀ rs : List ImageRecord, (∀ r ∈ rs, r.1 < 65536 ∧ r.2.length < 65536) → readRecords rs.length (rs.flatMap imageRecordBytes) = some rs

/-- The entries the device lays out have their stated sizes: events 32 bytes (R458), records and dense-area records 128 (R197, R199),
chains 32 (R241), audit entries 24 (R473), journal entries 64 (R508), captures 32 (R369), missed marks 32 (R339). -/
def Obligations.EntriesHaveTheirStatedSizes : Prop :=
  (∀ e : Event, (eventBytes e).length = 32) ∧
  (∀ (k : Closed) (g : Geometry) (r : RecordInfo), (recordBytes k g r).length = 128) ∧
  (∀ r : Rec, r.data.length = 128 → (gapBytes r).length = 128) ∧
  (∀ (slot : Nat) (x : Chain), (chainBytes slot x).length = 32) ∧
  (∀ e : AuditEntry, (auditBytes e).length = 24) ∧
  (∀ (e : JournalEntry) (n : Nat), (journalBytes e n).length = 64) ∧
  (∀ (i : Nat) (rising : Bool) (n total md : Nat), (captureBytes i rising n total md).length = 32) ∧
  (∀ m : MissedMark, (missedBytes m).length = 32)

/-- A doorbell on a mailbox the device holds is only counted (R467); one that the device does not take on is answered with the status of
the first check of R472 that fails, and changes nothing else: readiness, command code, LOCKDOWN, privilege. A command that LOCKDOWN or
privilege refuses counts as one for the idle time of the session on its mailbox. -/
def Obligations.DoorbellsAreRefusedInOrder : Prop :=
  ∀ (s : State) (t : Nat) (mb : Fin 8),
    let c := s.tick t
    let m := vget c.mbx.mb mb
    let code := rd m.bytes 2 2
    let payload := sliceB m.bytes 64 (rd m.bytes 4 2)
    (m.owner = true → exec (.mailboxDoorbell t mb) s =
      .next (s.put { c with mbx := { c.mbx with mb := vset c.mbx.mb mb { m with ignored := min (m.ignored + 1) 255 } } })) ∧
    (m.owner = false → ∀ st : Nat, c.modes.personality = 0 →
      ((st = stNotReady ∧ (notReadyWait c mb).isSome = true) ∨
       (st = stBadCmd ∧ notReadyWait c mb = none ∧ m.lastSequence ≠ some (rd m.bytes 0 2) ∧ baseClass code = none) ∨
       (st = stLocked ∧ notReadyWait c mb = none ∧ m.lastSequence ≠ some (rd m.bytes 0 2) ∧ (baseClass code).isSome = true ∧
         c.modes.lockdown = true ∧ lockdownServes code = false) ∨
       (st = stNoPriv ∧ notReadyWait c mb = none ∧ m.lastSequence ≠ some (rd m.bytes 0 2) ∧ (baseClass code).isSome = true ∧
         (c.modes.lockdown = true → lockdownServes code = true) ∧ auditNeeded c code payload = false ∧
         privilegeOk c mb code (rd m.bytes 8 1) payload = false)) →
      ∃ u, exec (.mailboxDoorbell t mb) s = .next u ∧ s.keepsMemory u ∧ s.keepsOtherMailboxes mb u ∧
        (st = stNotReady ∨ st = stBadCmd → u.chip.quiet = s.chip.quiet) ∧
        (st = stLocked ∨ st = stNoPriv → u.chip.quiet = { s.chip.quiet with sec := { s.chip.sec with
          sessions := vmod s.chip.sec.sessions mb fun x => x.map fun x => { x with lastCommand := c.now } } }) ∧
        u.chip.mbx.audit = s.chip.mbx.audit ∧ (vget u.chip.mbx.mb mb).owner = false ∧ (vget u.chip.mbx.mb mb).job = none ∧
        rd (vget u.chip.mbx.mb mb).bytes 6 2 = st ∧ bit u.chip.mbx.response mb = true)

/-- A repeat is not executed (R469): the mailbox gets the recorded answer once more with bit 0 of `resp_flags` set, and the device makes
no other change. -/
def Obligations.RepeatsGetTheRecordedAnswer : Prop :=
  ∀ (s : State) (t : Nat) (mb : Fin 8),
    let m := vget s.chip.mbx.mb mb
    m.owner = false → notReadyWait (s.tick t) mb = none → m.lastSequence = some (rd m.bytes 0 2) → 64 ≤ m.kept.length → m.kept.length ≤ 4096 →
    rd m.kept 10 1 % 2 = 0 →
    ∃ u, exec (.mailboxDoorbell t mb) s = .next u ∧ u.chip.quiet = s.chip.quiet ∧ s.keepsMemory u ∧ s.keepsOtherMailboxes mb u ∧
      u.chip.mbx.audit = s.chip.mbx.audit ∧ bit u.chip.mbx.response mb = true ∧
      (let m' := vget u.chip.mbx.mb mb
       m'.owner = false ∧ m'.job = none ∧ m'.lastSequence = m.lastSequence ∧ m'.kept = m.kept ∧
       (∀ i : Nat, i < m.kept.length → i ≠ 10 → m'.bytes.getD i 0 = m.kept.getD i 0) ∧ rd m'.bytes 10 1 = rd m.kept 10 1 + 1)

/-- An answer reaches its mailbox (R466, R468): header and payload stand at their offsets, the mailbox is the host's again, its response
bit is set and no other, the answer of an executed command is kept for a repeat (R469), and nothing else of the device changes. During a
Lodge restart it waits instead (R25). -/
def Obligations.AnswersReachTheirMailbox : Prop :=
  ∀ (c : Chip) (mb : Fin 8) (st d : Nat) (body : List Byte) (j : Job),
    (vget c.mbx.mb mb).job = some j → j.rawCode = j.code → body.length ≤ 4032 → st < 65536 → d < 65536 → j.sequence < 65536 → j.code < 65536 →
    j.cls < 256 → j.tag < 2 ^ 32 →
    (lodgeRestarts c = true → respond mb st d body c = { c with mbx := { c.mbx with waiting := c.mbx.waiting ++ [((mb : Nat), st, d, body)] } }) ∧
    (lodgeRestarts c = false →
    let u := respond mb st d body c
    let m := vget u.mbx.mb mb
    u.quiet = c.quiet ∧ (∀ k : Nat, k ≠ mb → vget u.mbx.mb k = vget c.mbx.mb k ∧ bit u.mbx.response k = bit c.mbx.response k) ∧
    bit u.mbx.response mb = true ∧ m.owner = false ∧ m.job = none ∧ rd m.bytes 0 2 = j.sequence ∧ rd m.bytes 2 2 = j.code ∧ rd m.bytes 4 2 = body.length ∧ rd m.bytes 6 2 = st ∧ rd m.bytes 8 1 = j.cls ∧
    rd m.bytes 10 1 = (if j.audited then 2 else 0) ∧ rd m.bytes 12 2 = d ∧ rd m.bytes 16 4 = j.tag ∧ sliceB m.bytes 64 body.length = body ∧
    (st ∉ [stNotReady, stBadCmd, stLocked] → m.lastSequence = some j.sequence ∧ m.kept = m.bytes.take (64 + body.length)) ∧
    (st ∈ [stNotReady, stBadCmd, stLocked] → m.lastSequence = (vget c.mbx.mb mb).lastSequence ∧ m.kept = (vget c.mbx.mb mb).kept))

/-- In THERMAL-HALT a command that is not one of the four served is answered ST_BAD_STATE, where its length and fields pass, and the
device does not change (R500): said of every command function that leaves the device alone where a length or a field fails. -/
def Obligations.AHaltedDeviceOnlyRefuses : Prop :=
  ∀ (s : State) (t code : Nat) (mb : Fin 8) (f : Env → Job → Chip → Reply) (j : Job),
    (∀ env j c, (f env j c).early = true → [stBadLen, stBadParam].contains (f env j c).status = true ∧ (f env j c).chip = c ∧ (f env j c).later = false) →
    (vget s.chip.mbx.mb mb).job = some j → j.code = code → j.rawCode = code → j.waiting = false → inTurn s.chip j = true →
    lodgeServes s.chip = true → s.chip.modes.thermalHalt = true → haltServes code = false →
    let u := s.command code t mb f
    u.chip.quiet = s.chip.quiet ∧ s.keepsMemory u ∧ s.keepsOtherMailboxes mb u ∧ (vget u.chip.mbx.mb mb).owner = false ∧
    [stBadLen, stBadParam, stBadState].contains (rd (vget u.chip.mbx.mb mb).bytes 6 2) = true

/-- A request that fails a check of its command is answered and changes nothing else (R472): commands of the encoders, ports, calibration,
pipeline, outputs, history, views, compression, Ledger, axes and time. -/
def Obligations.RefusedInspectionRequestsChangeNothing : Prop :=
  Refuses 0x0300 .encConfigure acceptsEncConfigure ∧
  Refuses 0x0301 .encGetState acceptsEncGetState ∧
  Refuses 0x0302 .trigConfigure acceptsTrigConfigure ∧
  Refuses 0x0303 .trigSetPitch acceptsTrigSetPitch ∧
  Refuses 0x0304 .webSetGeometry acceptsWebSetGeometry ∧
  Refuses 0x0200 .portDiscover acceptsPortDiscover ∧
  Refuses 0x0201 .portConfigure acceptsPortConfigure ∧
  Refuses 0x0202 .portReadCameraReg acceptsPortReadCameraReg ∧
  Refuses 0x0203 .portWriteCameraReg acceptsPortWriteCameraReg ∧
  (∀ seen : List (Nat × Nat), Refuses 0x0204 (.portGetLinkQuality · · seen) acceptsPortGetLinkQuality) ∧
  Refuses 0x0205 .laneMap acceptsLaneMap ∧
  Refuses 0x0206 .laneGetStatus acceptsLaneGetStatus ∧
  Refuses 0x0207 .vcamConfigure acceptsVcamConfigure ∧
  Refuses 0x0400 .calFlatField acceptsCalFlatField ∧
  Refuses 0x0401 .calGeometry acceptsCalGeometry ∧
  (∀ error : Option ReadError, Refuses 0x0402 (.calGetResult · · error) acceptsCalGetResult) ∧
  Refuses 0x0500 .pipeSetCorrection acceptsPipeSetCorrection ∧
  Refuses 0x0501 .pipeSetStitch acceptsPipeSetStitch ∧
  Refuses 0x0502 .pipeSetReference acceptsPipeSetReference ∧
  Refuses 0x0503 .pipeSetDetection acceptsPipeSetDetection ∧
  Refuses 0x0504 .pipeSetFilters acceptsPipeSetFilters ∧
  Refuses 0x0505 .pipeSetLabelling acceptsPipeSetLabelling ∧
  Refuses 0x0508 .pipeSetTiles acceptsPipeSetTiles ∧
  Refuses 0x0507 .pipeSetRecurrence acceptsPipeSetRecurrence ∧
  Refuses 0x0700 .outSetRecordRing acceptsOutSetRecordRing ∧
  Refuses 0x0701 .outSetTileRing acceptsOutSetTileRing ∧
  Refuses 0x0705 .outGetStats acceptsOutGetStats ∧
  Refuses 0x0800 .lookbackConfigure acceptsLookbackConfigure ∧
  Refuses 0x0801 .lookbackRetrieve acceptsLookbackRetrieve ∧
  Refuses 0x0802 .lookbackReplay acceptsLookbackReplay ∧
  Refuses 0x0803 .lookbackPin acceptsLookbackPin ∧
  Refuses 0x0804 .lookbackStatus acceptsLookbackStatus ∧
  Refuses 0x0702 .viewConfigure acceptsViewConfigure ∧
  Refuses 0x0703 .viewStreamStart acceptsViewStreamStart ∧
  Refuses 0x0704 .viewStreamStop acceptsViewStreamStop ∧
  Refuses 0x0900 .zipSubmit acceptsZipSubmit ∧
  Refuses 0x0901 .zipStatus acceptsZipStatus ∧
  Refuses 0x0902 .zipCancel acceptsZipCancel ∧
  Refuses 0x0600 .ledgerOpen acceptsLedgerOpen ∧
  Refuses 0x0602 .ledgerAbort acceptsLedgerAbort ∧
  Refuses 0x0603 .ledgerStatus acceptsLedgerStatus ∧
  Refuses 0x0B00 .axisConfigure acceptsAxisConfigure ∧
  Refuses 0x0B01 .axisHome acceptsAxisHome ∧
  Refuses 0x0B03 .axisStop acceptsAxisStop ∧
  Refuses 0x0B04 .axisStatus acceptsAxisStatus ∧
  Refuses 0x0B05 .markConfigure acceptsMarkConfigure ∧
  Refuses 0x0A00 .timeGet acceptsTimeGet ∧
  Refuses 0x0A01 .timeSet acceptsTimeSet ∧
  Refuses 0x0A03 .ptpStatus acceptsPtpStatus ∧
  Refuses 0x0A04 .servoConfigure acceptsServoConfigure ∧
  Refuses 0x0A06 .pulseCancel acceptsPulseCancel ∧
  Refuses 0x0A07 .captureConfigure acceptsCaptureConfigure ∧
  Refuses 0x0C03 .auxToneConfigure acceptsAuxToneConfigure ∧
  Refuses 0x0C04 .auxRead acceptsAuxRead

/-- A request that fails a check of its command is answered and changes nothing else (R472): commands of the auxiliary inputs, the gang,
health, the life record, security and the system. -/
def Obligations.RefusedRequestsOfTheSystemChangeNothing : Prop :=
  Refuses 0x0404 .calAux acceptsCalAux ∧
  Refuses 0x0403 .calLinks acceptsCalLinks ∧
  Refuses 0x0F00 .gangConfigure acceptsGangConfigure ∧
  Refuses 0x0F01 .gangStatus acceptsGangStatus ∧
  Refuses 0x0D05 .dramStatus acceptsDramStatus ∧
  Refuses 0x0107 .sysSetEventRing acceptsSysSetEventRing ∧
  Refuses 0x0108 .sysSetEventMask acceptsSysSetEventMask ∧
  Refuses 0x0D00 .healthStatus acceptsHealthStatus ∧
  Refuses 0x0D01 .thermalConfigure acceptsThermalConfigure ∧
  Refuses 0x0D02 .thermalAckRequest acceptsThermalAckRequest ∧
  Refuses 0x0D03 .lifeRead acceptsLifeRead ∧
  Refuses 0x0D04 .lifeSetCalendar acceptsLifeSetCalendar ∧
  Refuses 0x0E00 .secSessionOpen acceptsSecSessionOpen ∧
  Refuses 0x0E01 .secSessionClose acceptsSecSessionClose ∧
  Refuses 0x0E03 .secFuseRead acceptsSecFuseRead ∧
  Refuses 0x0E02 .secFuseWrite acceptsSecFuseWrite ∧
  Refuses 0x0E04 .secKeyLoad acceptsSecKeyLoad ∧
  Refuses 0x0E05 .secTamperConfigure acceptsSecTamperConfigure ∧
  Refuses 0x0E06 .secUnlock acceptsSecUnlock ∧
  Refuses 0x0100 .sysGetInfo acceptsSysGetInfo ∧
  Refuses 0x0101 .sysGetCaps acceptsSysGetCaps ∧
  Refuses 0x0103 .sysGetMode acceptsSysGetMode ∧
  Refuses 0x0104 .sysResetSubsystem acceptsSysResetSubsystem ∧
  Refuses 0x0106 .sysFwActivate acceptsSysFwActivate ∧
  (∀ error : Option ReadError, Refuses 0x0109 (.sysExportConfig · · error) acceptsSysExportConfig) ∧
  Refuses 0x010A .sysImportConfig acceptsSysImportConfig

/-- A command that only reads answers, and changes nothing else of the device; a staging command and the commands of the Ledger's
bookkeeping change the Ledger alone, so the settings in force stay (R297, R302). Neither touches a memory or another mailbox, whatever the
request. -/
def Obligations.ReadingAndStagingTouchNoSetting : Prop :=
  Answers .zipStatus (fun c _ => c) ∧
  Answers .ledgerStatus (fun c _ => c) ∧
  Answers .auxRead (fun c _ => c) ∧
  Answers .gangStatus (fun c _ => c) ∧
  Answers .lifeRead (fun c _ => c) ∧
  Answers .secFuseRead (fun c _ => c) ∧
  Answers .sysGetInfo (fun c _ => c) ∧
  Answers .sysGetCaps (fun c _ => c) ∧
  Answers .sysGetMode (fun c _ => c) ∧
  Answers .trigSetPitch (fun c d => { c with ledger := d.ledger }) ∧
  Answers .webSetGeometry (fun c d => { c with ledger := d.ledger }) ∧
  Answers .pipeSetCorrection (fun c d => { c with ledger := d.ledger }) ∧
  Answers .pipeSetStitch (fun c d => { c with ledger := d.ledger }) ∧
  Answers .pipeSetReference (fun c d => { c with ledger := d.ledger }) ∧
  Answers .pipeSetDetection (fun c d => { c with ledger := d.ledger }) ∧
  Answers .pipeSetFilters (fun c d => { c with ledger := d.ledger }) ∧
  Answers .pipeSetLabelling (fun c d => { c with ledger := d.ledger }) ∧
  Answers .pipeSetTiles (fun c d => { c with ledger := d.ledger }) ∧
  Answers .pipeSetRecurrence (fun c d => { c with ledger := d.ledger }) ∧
  Answers .ledgerOpen (fun c d => { c with ledger := d.ledger }) ∧
  Answers .ledgerAbort (fun c d => { c with ledger := d.ledger }) ∧
  Answers .markConfigure (fun c d => { c with ledger := d.ledger })

/-- A command of one block changes that block's own part of the device, no memory and no other mailbox, whatever the request. -/
def Obligations.CommandsKeepToTheirBlock : Prop :=
  Answers .encConfigure (fun c d => { c with enc := d.enc, trig := d.trig }) ∧
  Answers .encGetState (fun c d => { c with enc := d.enc }) ∧
  Answers .portDiscover (fun c d => { c with port := d.port }) ∧
  (∀ seen : List (Nat × Nat), Answers (.portGetLinkQuality · · seen) (fun c d => { c with cal := d.cal, port := d.port })) ∧
  Answers .laneGetStatus (fun c d => { c with lane := d.lane }) ∧
  Answers .calFlatField (fun c d => { c with cal := d.cal }) ∧
  Answers .calGeometry (fun c d => { c with cal := d.cal }) ∧
  (∀ error : Option ReadError, Answers (.calGetResult · · error) (fun c d => { c with cal := d.cal, dram := d.dram, life := d.life, orangery := d.orangery })) ∧
  Answers .calAux (fun c d => { c with aux := d.aux }) ∧
  Answers .calLinks (fun c d => { c with cal := d.cal }) ∧
  Answers .outSetRecordRing (fun c d => { c with records := d.records, pcie := d.pcie }) ∧
  Answers .outSetTileRing (fun c d => { c with tiles := d.tiles, pcie := d.pcie }) ∧
  Answers .lookbackPin (fun c d => { c with orangery := d.orangery }) ∧
  Answers .viewConfigure (fun c d => { c with view := d.view }) ∧
  Answers .viewStreamStart (fun c d => { c with view := d.view, pcie := d.pcie }) ∧
  Answers .viewStreamStop (fun c d => { c with view := d.view, pcie := d.pcie }) ∧
  Answers .zipSubmit (fun c d => { c with zip := d.zip }) ∧
  Answers .axisConfigure (fun c d => { c with axis := d.axis }) ∧
  Answers .axisHome (fun c d => { c with axis := d.axis }) ∧
  Answers .ptpStatus (fun c d => { c with time := d.time }) ∧
  Answers .pulseCancel (fun c d => { c with time := d.time }) ∧
  Answers .captureConfigure (fun c d => { c with time := d.time, pcie := d.pcie }) ∧
  Answers .auxToneConfigure (fun c d => { c with aux := d.aux }) ∧
  Answers .gangConfigure (fun c d => { c with gang := d.gang }) ∧
  Answers .sysSetEventRing (fun c d => { c with evq := d.evq }) ∧
  Answers .sysSetEventMask (fun c d => { c with evq := d.evq }) ∧
  Answers .thermalConfigure (fun c d => { c with health := d.health }) ∧
  Answers .healthStatus (fun c d => { c with life := d.life, pcie := d.pcie }) ∧
  Answers .secKeyLoad (fun c d => { c with sec := d.sec })

/-- An event of the encoders, the ports, the imaging pipeline, the axes, the Sundial, the pulse outputs, the auxiliary inputs, the gang or
the DRAM changes its own part of the device, no memory and no mailbox. -/
def Obligations.MachineEventsKeepToTheirBlock : Prop :=
  (∀ (ch : Fin 8) (a b : Bool) (heldA heldB : Nat), Confined (.encoderCount · ch a b heldA heldB) (fun c d => { c with axis := d.axis, enc := d.enc, trig := d.trig })) ∧
  (∀ (ch : Fin 8) (z : Bool) (held : Nat), Confined (.indexPulse · ch z held) (fun c d => { c with enc := d.enc, trig := d.trig })) ∧
  (∀ (ch : Fin 8), Confined (.zeroSpeedTimeout · ch) (fun c d => { c with enc := d.enc, trig := d.trig })) ∧
  (∀ (k : Fin 4) (op : VcamOp), Confined (.vcamControlPacket · k op) (fun c d => { c with port := d.port, vcam := d.vcam })) ∧
  (∀ (port : Fin 16), Confined (.recoveryAttempt · port) (fun c d => { c with port := d.port })) ∧
  (∀ (seam : Fin 16), Confined (.seamPositionApply · seam) (fun c d => { c with gang := d.gang, seam := d.seam })) ∧
  (∀ (roll : Fin 8), Confined (.rotundaSweep · roll) (fun c d => { c with rotunda := d.rotunda })) ∧
  (Confined .shadowPeriodStart (fun c d => { c with engines := d.engines, lane := d.lane })) ∧
  (Confined .orangeryFlushTimeout (fun c d => { c with dram := d.dram, orangery := d.orangery })) ∧
  (Confined .lookbackJobStart (fun c d => { c with dram := d.dram, engines := d.engines, orangery := d.orangery, pcie := d.pcie })) ∧
  (Confined .zipJobStart (fun c d => { c with pcie := d.pcie, zip := d.zip })) ∧
  (∀ (stream : Fin 4), Confined (.rtcpSenderReport · stream) (fun c _ => c)) ∧
  (∀ (axis : Fin 4), Confined (.axisHoldDelay · axis) (fun c d => { c with axis := d.axis })) ∧
  (∀ (axis : Fin 4), Confined (.homeReference · axis) (fun c d => { c with axis := d.axis, mark := d.mark })) ∧
  (∀ (axis : Fin 4), Confined (.homeBackoffDone · axis) (fun c d => { c with axis := d.axis })) ∧
  (∀ (axis : Fin 4), Confined (.homeMaxTravel · axis) (fun c d => { c with axis := d.axis })) ∧
  (∀ (port : Fin 2) (frame : EthFrame), Confined (.ethFrameReceived · port frame) (fun c d => { c with time := d.time })) ∧
  (Confined .ref10mLoss (fun c d => { c with time := d.time })) ∧
  (Confined .ppsOutEdge (fun c d => { c with time := d.time })) ∧
  (∀ (output : Fin 8), Confined (.pulseBoundary · output) (fun c d => { c with time := d.time })) ∧
  (∀ (ch : Fin 8) (samples : List Bool), Confined (.auxOverloadChange · ch samples) (fun c d => { c with aux := d.aux })) ∧
  (∀ (d : Fin 2), Confined (.toneBlockEnd · d) (fun c d => { c with aux := d.aux })) ∧
  (∀ (tag : Tag) (pitch : Option (Nat × Nat)), Confined (.sarecTagReceived · tag pitch) (fun c d => { c with gang := d.gang })) ∧
  (∀ (nodes : List Nat) (encoders : Nat) (overlaps : List Nat), Confined (.gangForm · nodes encoders overlaps) (fun c d => { c with gang := d.gang, trig := d.trig })) ∧
  (∀ (x : GangExchange), Confined (.gangExchangeReceived · x) (fun c d => { c with gang := d.gang })) ∧
  (∀ (ch : Fin 4), Confined (.dramRefreshWindowEnd · ch) (fun c d => { c with dram := d.dram })) ∧
  (Confined .dramZqCalibration (fun c _ => c))

/-- An event of calibration, supply, security, the modes and the host link changes its own part of the device, no memory and no mailbox. -/
def Obligations.SystemEventsKeepToTheirBlock : Prop :=
  (Confined .calPhaseDone (fun c d => { c with cal := d.cal })) ∧
  (Confined .calTimeout (fun c d => { c with cal := d.cal })) ∧
  (∀ (heights : List Nat), Confined (.calLinksDone · heights) (fun c d => { c with cal := d.cal })) ∧
  (∀ (monitor : Fin 32) (lowest : Nat), Confined (.supplyExcursionSustained · monitor lowest) (fun c d => { c with supply := d.supply })) ∧
  (∀ (monitor : Fin 32) (lowest durationUs : Nat), Confined (.supplyOver · monitor lowest durationUs) (fun c d => { c with supply := d.supply })) ∧
  (Confined .lifeSummary (fun c d => { c with health := d.health })) ∧
  (∀ (mb : Fin 8) (unlock : Bool), Confined (.sessionChallengeExpiry · mb unlock) (fun c d => { c with sec := d.sec })) ∧
  (∀ (mb : Fin 8), Confined (.sessionIdleTimeout · mb) (fun c d => { c with sec := d.sec })) ∧
  (Confined .proofLockoutEnd (fun c d => { c with sec := d.sec })) ∧
  (∀ (source : Fin 9) (powered : Bool), Confined (.tamperClear · source powered) (fun c d => { c with sec := d.sec })) ∧
  (∀ (code inst : Nat), Confined (.rateLimitSecondEnd · code inst) (fun c _ => c)) ∧
  (Confined .modeConditionReport (fun c d => { c with modes := d.modes })) ∧
  (Confined .lodgeCheckpoint (fun c d => { c with modes := d.modes })) ∧
  (∀ (value : Nat), Confined (.evqTailWrite · value) (fun c d => { c with evq := d.evq })) ∧
  (∀ (ch : Fin 32), Confined (.dmaStopRequest · ch) (fun c d => { c with pcie := d.pcie })) ∧
  (∀ (ch : Fin 32) (value : Nat), Confined (.dmaChainWrite · ch value) (fun c d => { c with pcie := d.pcie })) ∧
  (∀ (ch : Fin 32) (nextAgain : Nat), Confined (.dmaDoorbell · ch nextAgain) (fun c d => { c with pcie := d.pcie }))

/-- A raised event takes the next sequence and joins the FIFO of 256, or is counted as lost with its sequence when the ring or the FIFO
is full (R459, R461, R462); a masked event is not raised at all (R464); one that Borusk firmware raises waits during a Lodge restart
(R25). -/
def Obligations.RaisedEventsTakeTheNextSequence : Prop :=
  ∀ (journal : Bool) (code sev source : Nat) (payload : List Byte) (c : Chip),
    let u := raiseWith journal code sev source payload c
    let full := (c.evq.ring.enabled = true ∧ c.evq.ring.full = true) ∨ 256 ≤ c.evq.fifo.length
    (c.evq.fifo.length ≤ 256 → u.evq.fifo.length ≤ 256) ∧
    (lodgeRestarts c = true → raisedByFirmware code payload = true →
      u = { c with evq := { c.evq with waiting := c.evq.waiting ++ [(journal, code, sev, source, payload)] } }) ∧
    ((lodgeRestarts c = true → raisedByFirmware code payload = false) →
    (sev ≠ 4 → code ≠ 0x0102 → bit (vget c.evq.mask (code / 256 % 16)) (code % 16) = false → u = c) ∧
    (c.modes.boot = .done → eventEnabled c code sev = true → c.modes.personality = 0 →
      u.evq.nextSequence = (c.evq.nextSequence + 1) % 2 ^ 32 ∧
      (c.modes.lockdown = false → full →
        u.evq.fifo = c.evq.fifo ∧ u.evq.lostTotal = min (c.evq.lostTotal + 1) (2 ^ 32 - 1) ∧
        u.evq.firstLost = (if c.evq.lostPending = 0 then c.evq.nextSequence else c.evq.firstLost)) ∧
      (c.modes.lockdown = false → ¬ full →
        u.evq.lostTotal = c.evq.lostTotal ∧
        ∃ e : Event, u.evq.fifo = c.evq.fifo ++ [e] ∧ e.code = code ∧ e.severity = sev ∧ e.source % 128 = source % 128 ∧
          e.sequence = c.evq.nextSequence ∧ (e.timeS, e.timeNs) = clock c ∧ e.payload = fit 12 payload)))

/-- In the PW1212 personality ST_NOT_READY is reported as ST_BUSY with its wait, ST_DATA_ERROR as ST_ABORTED with detail 0, and every
other status unchanged (R561): in an answer to a legacy command, and in a refusal at the doorbell of a legacy code. -/
def Obligations.LegacyStatusesAreTheForerunners : Prop :=
  ∀ (c : Chip) (mb : Fin 8) (st d : Nat), st < 65536 → d < 65536 →
    let reported (u : Chip) : Prop :=
      (st = stNotReady → rd (vget u.mbx.mb mb).bytes 6 2 = stBusy ∧ rd (vget u.mbx.mb mb).bytes 12 2 = d) ∧
      (st = stDataError → rd (vget u.mbx.mb mb).bytes 6 2 = stAborted ∧ rd (vget u.mbx.mb mb).bytes 12 2 = 0) ∧
      (st ≠ stNotReady → st ≠ stDataError → rd (vget u.mbx.mb mb).bytes 6 2 = st ∧ rd (vget u.mbx.mb mb).bytes 12 2 = d)
    (∀ (j : Job) (body : List Byte), (vget c.mbx.mb mb).job = some j → j.rawCode ≠ j.code → body.length ≤ 4032 → reported (respondNow mb st d body c)) ∧
    (∀ (executed : Bool) (audited : Option Job), c.modes.personality = 1 → 0x80 ≤ rd (vget c.mbx.mb mb).bytes 2 2 →
      rd (vget c.mbx.mb mb).bytes 2 2 ≤ 0xBF → reported (refuseDoorbell mb st d executed audited c))

/-- In the PW1212 personality the events of five groups and EV_VIEW_DROPPED are not raised: no sequence, no loss, no journal entry; every
other event is raised just as in the native personality (R562). What Borusk firmware raises during a Lodge restart is raised, or not, at its
end (R25). -/
def Obligations.LegacyEventsAreThoseOfTheForerunner : Prop :=
  ∀ (journal : Bool) (code sev source : Nat) (payload : List Byte) (c : Chip), c.modes.personality = 1 →
    ((code / 256 = 0x06 ∨ code / 256 = 0x08 ∨ code / 256 = 0x0B ∨ code / 256 = 0x0C ∨ code / 256 = 0x0F ∨ code = 0x0700) →
      raiseNow journal code sev source payload c = c ∧
      ((lodgeRestarts c = true → raisedByFirmware code payload = false) → raiseWith journal code sev source payload c = c)) ∧
    (¬ (code / 256 = 0x06 ∨ code / 256 = 0x08 ∨ code / 256 = 0x0B ∨ code / 256 = 0x0C ∨ code / 256 = 0x0F ∨ code = 0x0700) →
      raiseWith journal code sev source payload c =
        { raiseWith journal code sev source payload { c with modes := { c.modes with personality := 0 } } with modes := c.modes })

/-- A ring entry lands at ring_base + size × (head mod entry_count), then the head block with the head after it and two totals; no other
byte of host memory changes (R203). A ring that is not full holds one entry more, and an accepted tail never overfills it. -/
def Obligations.RingEntriesAndHeadBlocksLand : Prop :=
  (∀ (r : Ring) (data : List Byte) (depth total : Nat) (c : Chip) (m : Mem), m.wf = true → c.out = [] → data.length = r.entrySize →
    0 < r.entryCount → depth < 2 ^ 32 → total < 2 ^ 32 →
    (r.headAddr + 32 ≤ r.base ∨ r.base + r.entrySize * r.entryCount ≤ r.headAddr) →
    let slot := r.base + r.entrySize * (r.head % r.entryCount)
    let after := hostAfter (ringPut r data depth total c).2.out.reverse m
    (ringPut r data depth total c).1.head = (r.head + 1) % 2 ^ 32 ∧ after.wf = true ∧
    after.readBytes slot data.length = data ∧
    after.readBytes r.headAddr 32 = le 4 ((r.head + 1) % 2 ^ 32) ++ le 4 depth ++ le 4 total ++ zeros 20 ∧
    (∀ a : Nat, (a < slot ∨ slot + data.length ≤ a) → (a < r.headAddr ∨ r.headAddr + 32 ≤ a) → after.read a = m.read a)) ∧
  (∀ r : Ring, r.head < 2 ^ 32 → r.tail < 2 ^ 32 → r.entryCount < 2 ^ 32 →
    (r.full = false → ({ r with head := wrapU 32 (r.head + 1) } : Ring).used = r.used + 1) ∧
    (∀ tail : Nat, tail < 2 ^ 32 → (r.accepts tail = true ↔ ({ r with tail } : Ring).used ≤ r.entryCount)))

/-- A masked vector, and every vector in D3hot, waits in its pending bit and is sent once, however often its source fired (R437, R439). -/
def Obligations.HeldVectorsAreSentOnce : Prop :=
  (∀ (c : Chip) (v n : Nat), v < 64 → 0 < n → ((vget c.pcie.msix v).mask = true ∨ c.pcie.d3hot = true) →
    let d := Nat.repeat (signalVector v) n c
    d.out = c.out ∧ (vget d.pcie.msix v).pending = true) ∧
  (∀ (s : State) (t : Nat) (v : Fin 64), let e := vget s.chip.pcie.msix v
    e.mask = true → e.pending = true → s.chip.pcie.d3hot = false →
    ∃ u, exec (.msixEntryWrite t v 3 0) s = .next u ∧ u.chip.out = [.msix v (e.addrHi * 2 ^ 32 + e.addrLo) e.data] ∧
      (vget u.chip.pcie.msix v).pending = false ∧ (vget u.chip.pcie.msix v).mask = false ∧
      ∃ w, exec (.msixEntryWrite t v 3 0) u = .next w ∧ w.chip.out = [])

/-- A saturating counter stops at all ones of its width; reaching that value sets its mark and raises EV_COUNTER_SATURATED, once (R549). -/
def Obligations.SaturatingCountersStopAndReportOnce : Prop :=
  ∀ (command offset inst width old n : Nat) (c : Chip), 0 < width → old ≤ 2 ^ width - 1 →
    let r := satAdd command offset inst width old n c
    r.1 = min (old + n) (2 ^ width - 1) ∧ r.1 ≤ 2 ^ width - 1 ∧ old ≤ r.1 ∧
    (old + n < 2 ^ width - 1 → r.2 = c) ∧
    (2 ^ width - 1 ≤ old + n → (command, offset, inst) ∈ r.2.saturated) ∧
    (2 ^ width - 1 ≤ old + n → (command, offset, inst) ∉ c.saturated → c.modes.boot = .done → c.modes.personality = 0 → lodgeRestarts c = false →
      eventEnabled c 0x0D09 1 = true → r.2.evq.nextSequence = (c.evq.nextSequence + 1) % 2 ^ 32) ∧
    ((command, offset, inst) ∈ c.saturated → r.2 = c) ∧
    (satAdd command offset inst width r.1 0 r.2).2 = r.2

/-- Counting in quadrature follows the table of R28, an illegal transition is a change of both inputs (R29), and motion back undoes a
count; in up/down form two simultaneous rising edges count nothing (R31); every count moves the count at once, and the direction state
changes after `direction_hysteresis` counts in the new direction and not before (R36). -/
def Obligations.CountsFollowTheAcceptedLevels : Prop :=
  (∀ a0 b0 a1 b1 : Bool,
    (countStep .quadrature a0 b0 a1 b1 = none ↔ (a0 ≠ a1 ∧ b0 ≠ b1)) ∧
    (∀ n : Int, countStep .quadrature a0 b0 a1 b1 = some n → countStep .quadrature a1 b1 a0 b0 = some (-n)) ∧
    countStep .upDown false false true true = some 0) ∧
  countStep .quadrature false false false true = some 1 ∧ countStep .quadrature false true true true = some 1 ∧
  countStep .quadrature true true true false = some 1 ∧ countStep .quadrature true false false false = some 1 ∧
  (∀ (e : Enc) (fwd : Bool) (t n : Nat), e.against = 0 → e.forward ≠ fwd → 0 < e.directionHysteresis →
    let u := Nat.repeat (fun x : Enc => x.count1 fwd t) n e
    u.count = (if n = 0 then e.count else wrapS 64 (e.count + (if fwd then (n : Int) else -(n : Int)))) ∧
    (n < e.directionHysteresis → u.forward = e.forward) ∧ (n = e.directionHysteresis → u.forward = fwd))

/-- The phase runs from 0 to counts_per_rev - 1; it wraps at either end and moves the revolution count by one with it, and the revolution
count wraps in two's complement at 48 bits, so that the modular difference of two readings is the number of turns (R32). -/
def Obligations.ThePhaseWrapsWithTheRevolution : Prop :=
  ∀ (e : Enc) (t : Nat), 0 < e.countsPerRev → e.phase < e.countsPerRev → -(2 ^ 47 : Int) ≤ e.revolutions → e.revolutions < (2 ^ 47 : Int) →
    let f := e.count1 true t
    let b := e.count1 false t
    f.phase < e.countsPerRev ∧ b.phase < e.countsPerRev ∧
    (e.phase = e.countsPerRev - 1 → f.phase = 0 ∧ f.revolutions = wrapS 48 (e.revolutions + 1) ∧ wrapS 48 (f.revolutions - e.revolutions) = 1) ∧
    (e.phase < e.countsPerRev - 1 → f.phase = e.phase + 1 ∧ f.revolutions = e.revolutions) ∧
    (e.phase = 0 → b.phase = e.countsPerRev - 1 ∧ b.revolutions = wrapS 48 (e.revolutions - 1) ∧ wrapS 48 (b.revolutions - e.revolutions) = -1) ∧
    (0 < e.phase → b.phase = e.phase - 1 ∧ b.revolutions = e.revolutions)

/-- An index never changes the count of any channel, so it never moves MD; a realignment acts on the phase and the revolution count only
(R35). -/
def Obligations.AnIndexNeverMovesMd : Prop :=
  (∀ (c : Chip) (ch : Nat), let u := takeIndex ch c
    (∀ k : Nat, (vget u.enc k).count = (vget c.enc k).count) ∧ mdNow u = mdNow c ∧ u.trig.mdCount = c.trig.mdCount ∧ u.trig.mdBase = c.trig.mdBase) ∧
  (∀ e : Enc, e.realigned = { e with phase := e.realigned.phase, revolutions := e.realigned.revolutions } ∧ e.realigned.phase = 0)

/-- MD is held between 0 and 64 bits: a result below 0 is 0, one above is all ones, and either sets the position-suspect mark of the
next line (R40, R550); the high-water mark never falls (R44). -/
def Obligations.MdSaturatesAndTheMarkNeverFalls : Prop :=
  ∀ (before : Nat) (c : Chip), c.trig.anchored = true → mdCounts c = true →
    let x := mdOfCount c (mainEnc c).count
    let u := mdFollow before c
    (x < 0 → u.trig.mdCount = 0 ∧ u.trig.saturatePending = true) ∧
    ((2 ^ 64 : Int) ≤ x → u.trig.mdCount = 2 ^ 64 - 1 ∧ u.trig.saturatePending = true) ∧
    (0 ≤ x → x < (2 ^ 64 - 1 : Int) → (u.trig.mdCount : Int) = x ∧ u.trig.saturatePending = c.trig.saturatePending) ∧
    c.trig.hwm ≤ u.trig.hwm ∧ u.trig.mdCount ≤ u.trig.hwm

/-- The first steps of a lane engine (R87, R88, R91): a raw pixel of b bits is shifted left by 14 - b, with the shifts of the seven
formats, and is saturated exactly at 2^b - 1; y1 is 4·x - o - δ; y2 is y1 · g / 16384 with halves rounded up. -/
def Obligations.RawPixelsAreShiftedOffsetAndGained : Prop :=
  (∀ (p : Port) (x : Nat), x < 2 ^ p.bitsPerPixel →
    unpack p [x] = [x <<< (14 - p.bitsPerPixel)] ∧ (unpack p [x] = [p.fullScale] ↔ x = 2 ^ p.bitsPerPixel - 1)) ∧
  (∀ p : Port, (p.pixelFormat = 0x01080001 → p.shift = 6) ∧ (p.pixelFormat = 0x01100003 ∨ p.pixelFormat = 0x010A0046 → p.shift = 4) ∧
    (p.pixelFormat = 0x01100005 ∨ p.pixelFormat = 0x010C0047 → p.shift = 2) ∧
    (p.pixelFormat = 0x01100025 ∨ p.pixelFormat = 0x010E0104 → p.shift = 0)) ∧
  (∀ (b : CorrBank) (delta : Int) (xs : List Nat) (u : Nat), u < xs.length →
    (b.step2 delta xs).getD u 0 = 4 * (xs.getD u 0 : Int) - (b.entry u).1 - delta) ∧
  (∀ (y1 : Int) (g : Nat), 16384 * gained y1 g ≤ y1 * g + 8192 ∧ y1 * g + 8192 < 16384 * (gained y1 g + 1))

/-- The drift estimate and the reference model are low-pass filters that never overshoot (R89, R158): δ and the mean stay between their
old value and their new input; `var` stays within 24 bits, `n` within 16, and the integer root that σ is taken from is exact (R156). -/
def Obligations.TheFiltersStayBetweenTheirInputs : Prop :=
  (∀ (k : Nat) (delta m : Int), min delta m ≤ deltaStep k delta m ∧ deltaStep k delta m ≤ max delta m) ∧
  (∀ (e : ModelEntry) (r : Reference) (x : Nat) (d : Int), e.n ≠ 0 → e.n ≤ 65535 →
    let u := (e.update r x d).1
    min e.mean (4096 * x) ≤ u.mean ∧ u.mean ≤ max e.mean (4096 * x) ∧ u.var ≤ 2 ^ 24 - 1 ∧ u.n ≤ 65535 ∧ e.n ≤ u.n) ∧
  (∀ x : Nat, x < 2 ^ 256 → isqrt x * isqrt x ≤ x ∧ x < (isqrt x + 1) * (isqrt x + 1))

/-- A tracked seam is held by the sixteenth weak measurement in a row and by no earlier one, never moves by a weak one, and the first good
measurement releases it (R129, R132). -/
def Obligations.SixteenWeakMeasurementsHoldASeam : Prop :=
  ∀ (c : Chip) (k : Nat) (nm conf n : Nat) (pc pm dc dm : Int) (z : Seam), k < 15 → (getSeam c k).weakCount = 0 → (getSeam c k).held = false →
    let u := Nat.repeat (weakMeasurement k nm conf) n c
    (getSeam u k).dc = (getSeam c k).dc ∧ (getSeam u k).dm = (getSeam c k).dm ∧ (getSeam u k).next = (getSeam c k).next ∧
    (n < 16 → (getSeam u k).held = false) ∧ (16 ≤ n → (getSeam u k).held = true) ∧
    (let v := goodMeasurement k nm conf pc pm dc dm z u
     (getSeam v k).held = false ∧ (getSeam v k).weakCount = 0 ∧
     ∃ (a b : Int), (getSeam v k).next = (getSeam c k).next ++ [(dc + a, dm + b, nm + 64, true)] ∧
       a.natAbs ≤ z.maxStepCd ∧ b.natAbs ≤ z.maxStepMd ∧
       (a = pc - dc ∨ a.natAbs = z.maxStepCd) ∧ (b = pm - dm ∨ b.natAbs = z.maxStepMd))

/-- The Sundial at n ticks after an instant is what n rounds of the tick of R343 make of its seconds, nanoseconds and fraction, and it
never runs backward; its seconds stop at all ones of 48 bits (R550). -/
def Obligations.TheSundialCountsTicks : Prop :=
  let tick (inc : Nat) (x : Nat × Nat × Nat) : Nat × Nat × Nat :=
    let f := x.2.1 * 2 ^ 32 + x.2.2 + inc
    if 10 ^ 9 * 2 ^ 32 ≤ f then (x.1 + 1, (f - 10 ^ 9 * 2 ^ 32) / 2 ^ 32, (f - 10 ^ 9 * 2 ^ 32) % 2 ^ 32) else (x.1, f / 2 ^ 32, f % 2 ^ 32)
  let second := 10 ^ 9 * 2 ^ 32
  ∀ (x : Sundial), x.ns < 10 ^ 9 → x.frac < 2 ^ 32 → x.increment ≤ second →
    (∀ n : Nat, let total := sunTotal x (x.at_ + 4 * n)
      let counted := (x.s * 10 ^ 9 + x.ns) * 2 ^ 32 + x.frac + n * x.increment
      (counted < 2 ^ 48 * second →
        Nat.repeat (tick x.increment) n (x.s, x.ns, x.frac) = ((secNs (total / 2 ^ 32)).1, (secNs (total / 2 ^ 32)).2, total % 2 ^ 32)) ∧
      (2 ^ 48 * second ≤ counted → total = (2 ^ 48 - 1) * second + counted % second) ∧ (secNs (total / 2 ^ 32)).2 < 10 ^ 9) ∧
    (∀ t t' : Nat, t ≤ t' → sunTotal x t / second ≤ sunTotal x t' / second ∧
      (sunTotal x t' / second < 2 ^ 48 - 1 → sunTotal x t ≤ sunTotal x t'))

/-- What a compression engine writes is a DEFLATE stream of its input, whatever the input, the level and the choice of codes, and no
longer than the bound of R288 allows, in every wrapper (R284, R287, R288). -/
def Obligations.CompressedStreamsExpandToTheirInput : Prop :=
  ∀ (level : Nat) (fixed : Bool) (bs : List Byte),
    inflate 0 bs.length (deflate 0 level fixed bs) = { output := bs, consumed := (deflate 0 level fixed bs).length } ∧
    (∀ wrapper : Nat, (deflate wrapper level fixed bs).length ≤ deflateBound wrapper bs.length)

/-- Commands of the encoders and the line trigger: a request that passes its checks has its effect: rules R30, R46, R49, R54, R599. -/
def Obligations.WebCommandsRun : Prop :=
  Runs 0x0300 .encConfigure acceptsEncConfigure (fun _ j c =>
    let p := j.payload
    let ch := rd p 0 1
    let f := rd p 3 1
    let v := rd p 24 1
    (let e := vget c.enc ch
     let e' : Enc := {
       configured := true, form := match rd p 1 1 with
         | 0 => .quadrature
         | 1 => .stepDir
         | _ => .upDown
       glitchSamples := rd p 2 1, invertA := bit f 0, invertB := bit f 1, invertZ := bit f 2, swapAb := bit f 3, indexEnable := bit f 4,
       countsPerRev := rd p 4 4, indexTolerance := rd p 8 2, realign := rd p 10 1 == 1, directionHysteresis := rd p 11 1,
       speedAvgLog2 := rd p 12 1, zeroSpeedTimeout := rd p 14 2, wuPerCount := rd p 16 8, eventVector := v,
       pinA := e.rawA, pinB := e.rawB, pinZ := e.rawZ, rawA := e.rawA, rawB := e.rawB, rawZ := e.rawZ, lastDeviation := e.lastDeviation, forward := true, stopped := true }
     let main := ch == c.trig.mainChannel && c.trig.anchored
     let c := if main then { c with trig := { c.trig with hwm := hwmNow c } } else c
     let c := { c with enc := vset c.enc ch e' }
     reply stOk (if main then { c with trig := { c.trig with mdBase := c.trig.mdCount, countRef := 0 } } else c))) ∧
  Runs 0x0301 .encGetState acceptsEncGetState (fun _ j c =>
    let p := j.payload
    let ch := rd p 0 1
    let e := vget c.enc ch
    let main := ch == c.trig.mainChannel
    (let body := if !e.configured then zeros 72 else
       leS 8 e.count ++ leS 8 e.revolutions ++ le 4 e.phase ++ le 4 (satU 32 (e.speedUm c.now)) ++ le 4 e.illegalCount ++
       leS 4 e.lastDeviation ++ le 2 e.stateBits ++ zeros 6 ++ le 8 (if main then mdNow c else 0) ++
       le 8 (if main && c.trig.anchored then hwmNow c else 0) ++ le 8 (nextTarget c) ++ le 8 c.trig.number
     replyBody body (if bit (rd p 1 1) 0 then { c with enc := vset c.enc ch { e with suspect := false } } else c))) ∧
  Runs 0x0302 .trigConfigure acceptsTrigConfigure (fun _ j c =>
    let p := j.payload
    let f := rd p 1 1
    let w := rd p 2 2
    let m := rd p 8 4
    (let c := if c.gang.formed && c.gang.role == 1 then
         { c with trig := { c.trig with mainChannel := rd p 0 1, configuredSince := true } }
       else refreshPeriod (reanchor { c with trig := { c.trig with
         mainChannel := rd p 0 1, cxpDelayComp := bit f 0, trigoutActiveLow := bit f 1, trigoutWidthNs := w, cxpTriggerMask := rd p 4 2,
         trigoutMask := rd p 6 2, minPeriodReq := m, mdStart := rd p 16 8, configuredSince := true } })
     replyBody (le 4 Config.cxpLead ++ le 4 Config.trigoutLead ++ le 4 c.trig.minPeriod) c)) ∧
  Runs 0x0303 .trigSetPitch acceptsTrigSetPitch (fun _ j c =>
    reply stOk (modTx (rd j.payload 0 4) (fun x => { x with entries := x.entries ++ [{ code := 0x0303, payload := j.payload.drop 4 }] }) c)) ∧
  Runs 0x0304 .webSetGeometry acceptsWebSetGeometry (fun _ j c =>
    reply stOk (modTx (rd j.payload 0 4) (fun x => { x with entries := x.entries ++ [{ code := 0x0304, payload := j.payload.drop 4 }] }) c))

/-- Commands of the camera ports, lanes and virtual cameras: rules R58, R59, R68, R69, R74, R75, R77, R80. -/
def Obligations.PortCommandsRun : Prop :=
  Runs 0x0200 .portDiscover acceptsPortDiscover (fun env j c =>
    let p := j.payload
    let n := rd p 0 1
    let x := vget c.port n
    let f := rd p 3 1
    let d := rd p 8 2
    (let q : Discovery := {
       mb := env.mb, links := rd p 1 1, speed := rd p 2 1, fallback := bit f 1, minPeriodAddr := rd p 4 4,
       timeoutMs := if d = 0 then 5000 else d, power := bit f 0, queued := !x.accesses.isEmpty }
     let c := modPort n (fun x => { x with state := .discovering, discovery := some q }) c
     replyLater (if q.queued then c else startDiscovery n q c))) ∧
  Runs 0x0201 .portConfigure acceptsPortConfigure (fun _ j c =>
    let p := j.payload
    let n := rd p 0 1
    let x := vget c.port n
    let f := rd p 2 1
    let host := rd p 1 1 == 0
    let on := host && bit f 0
    (let c := match x.discovery, host with
       | some d, false => discoveryFails n stHwFault 0 0 0 d c
       | _, _ => c
     reply stOk (modPort n (fun x => { (if host then x else { x.idleLinks with relocked := false, outstanding := [], timedOut := [] }) with
       state := match x.state with
         | .fault => if !bit f 0 then .fault else if host then .idle else .off
         | .off => if host then .idle else .off
         | s => if host then s else .off
       power := on, powerAt := if on && !x.power then c.now else x.powerAt, autoRecover := bit f 1, lineTimeoutUs := rd p 4 4,
       dataLatencyMinNs := rd p 8 4, codeErrorLimit := rd p 12 2, pocBlankMs := rd p 14 2, controlTimeoutMs := rd p 16 2 }) c))) ∧
  Runs 0x0202 .portReadCameraReg acceptsPortReadCameraReg (fun env j c =>
    let p := j.payload
    (replyLater (startAccess (rd p 0 1) { mb := env.mb, write := false, addr := rd p 4 4, length := rd p 8 2, data := [] } c))) ∧
  Runs 0x0203 .portWriteCameraReg acceptsPortWriteCameraReg (fun env j c =>
    let p := j.payload
    let n := rd p 0 1
    let len := rd p 8 2
    (replyLater (startAccess n { mb := env.mb, write := true, addr := rd p 4 4, length := len, data := p.drop 12 } c))) ∧
  (∀ seen, Runs 0x0204 (fun t mb => .portGetLinkQuality t mb seen) acceptsPortGetLinkQuality (fun _ j c =>
    let p := j.payload
    let n := rd p 0 1
    let x := vget c.port n
    (let c := (List.range x.links).foldl (fun c m => match seen[m]? with
       | some (new, errors) => takeErrors n m new errors c
       | none => c) c
     let x := vget c.port n
     replyBody ((x.link.toList.mapIdx (linkEntry x c.now)).flatten ++ le 1 x.state.code)
      (if bit (rd p 1 1) 0 then modPort n Port.clearLinks c else c)))) ∧
  Runs 0x0205 .laneMap acceptsLaneMap (fun _ j c =>
    let p := j.payload
    let ps := (List.range 16).map fun l => rd p l 1
    (reply stOk (mapLanes ps c))) ∧
  Runs 0x0206 .laneGetStatus acceptsLaneGetStatus (fun _ _ c =>
    (replyBody ((c.lane.toList.mapIdx (laneEntry c)).flatten ++ le 1 (c.engines.spare.getD 0xFF) ++ zeros 3 ++ le 4 c.engines.retired)
      { c with lane := vmapIdx (fun l x => { x with bufferPeak := if x.port.isSome then laneFill c l else 0 }) c.lane })) ∧
  Runs 0x0207 .vcamConfigure acceptsVcamConfigure (fun _ j c =>
    let p := j.payload
    let k := rd p 0 1
    let v := vget c.vcam k
    let on := rd p 2 1 == 1
    let cfg := vcamCfgOf p
    let n := cfg.port
    (let body := le 4 cfg.width ++ le 4 (1000000000 / c.trig.minPeriod) ++
       le 4 (ceilDiv cfg.load (c.trig.minPeriod * cfg.mdDecimation)) ++ le 4 (cfg.capacity / 100)
     if !on then
       replyBody body (let off := { v with enabled := false, next := none, stopped := false, acquiring := false, imageLine := 0 }
                       let c' := { c with vcam := vset c.vcam k off }
                       if v.enabled then returnPort v.cfg.port c' else c')
     else if v.enabled then
       replyBody body (vcamTake k { c with vcam := vset c.vcam k { v with next := some cfg, imageLine := if v.stopped then 0 else v.imageLine } })
     else
       replyBody body (turnPort n { c with vcam := vset c.vcam k { enabled := true, cfg, userId := v.userId } })))

/-- Commands of the calibrations: rules R105, R109, R118, R383, R484. -/
def Obligations.CalibrationCommandsRun : Prop :=
  Runs 0x0400 .calFlatField acceptsCalFlatField (fun _ j c =>
    let p := j.payload
    let k := flatCfgOf p
    (let id := if k.bright then k.resultId else c.cal.nextId
     let c := if k.bright then modResult id (fun r => { r with runState := 0, status := stPending }) c
       else { c with cal := { c.cal with
         nextId := if c.cal.nextId = 0xFFFFFFFF then 1 else c.cal.nextId + 1
         results := c.cal.results ++ [{ id, kind := 0, runState := 0, laneMask := k.mask }] } }
     { status := stPending, body := le 4 id, chip := startRun id 0 (b2n k.bright) k.timeoutS p c })) ∧
  Runs 0x0401 .calGeometry acceptsCalGeometry (fun _ j c =>
    let p := j.payload
    let k := geoCfgOf p
    (let id := c.cal.nextId
     let c := { c with cal := { c.cal with
       nextId := if id = 0xFFFFFFFF then 1 else id + 1
       results := c.cal.results ++ [{ id, kind := 1, runState := 0, laneMask := k.mask, cdPitch := k.cdPitch, column0 := k.column0, measuresOffsets := k.bandLength != 0 }] } }
     { status := stPending, body := le 4 id, chip := startRun id 1 0 k.timeoutS p c })) ∧
  Runs 0x0402 (fun t mb => .calGetResult t mb none) acceptsCalGetResult (fun _ j c =>
    let p := j.payload
    let section_ := rd p 4 1
    let l := rd p 5 1
    let first := rd p 6 2
    let r := c.cal.results.find? fun r => r.id == rd p 0 4
    let x := r.bind fun r => r.lanes.find? fun x => x.lane == l
    (match section_, r with
     | 5, _ => replyBody (calLive c l) c
     | _, none => reply stNotFound c
     | n, some r =>
       let y : CalLane := x.getD { lane := l }
       let body := match n with
         | 0 => calSummary r none
         | 1 => calSummary r (some y)
         | 2 => tableBytes ((List.range (min 1000 (16384 - first))).map fun i => y.table.getD (first + i) (0, 0x4000))
         | 3 => segmentBytes (calGetResult.fitSegments y.segments)
         | _ => (y.defects.take 1000).flatMap fun e => le 2 e.1 ++ le 1 (e.2.1 % 256) ++ le 1 e.2.2
       replyBody body (if bit (rd p 8 1) 0 then discardResult r c else c))) ∧
  (∀ e, Runs 0x0402 (fun t mb => .calGetResult t mb (some e)) acceptsCalGetResult (fun env j c =>
    let r := calGetResult env j c
    let c := takeRead false 0xFFFF { e with hit := .area } c
    if r.status ≠ stOk ∧ r.status ≠ stPending then r else if readFails e then reply stHwFault c else calGetResult env j c)) ∧
  Runs 0x0404 .calAux acceptsCalAux (fun _ j c =>
    let p := j.payload
    let mask := rd p 0 1
    let external := rd p 1 1 == 1
    { status := stPending
      chip := { c with aux := { c.aux with run := some { mask, external, phase := rd p 2 1, avgLog2 := rd p 3 1, refUv := rd p 4 4, tolerance := rd p 8 4, apply := bit (rd p 12 1) 0, startAt := c.now } } } }) ∧
  Runs 0x0403 .calLinks acceptsCalLinks (fun _ j c =>
    let p := j.payload
    let start := rd p 6 1 == 0
    (if start then reply stPending (linksStart p c)
     else replyBody ((c.cal.links.map linksBody).getD []) c))

/-- Staging commands of the imaging pipeline: the entry joins its transaction (R302): rules R114, R149, R179, R180, R181, R211, R212, R226,
R239. -/
def Obligations.PipelineCommandsRun : Prop :=
  Runs 0x0500 .pipeSetCorrection acceptsPipeSetCorrection (fun _ j c =>
    let p := j.payload
    let item := rd p 4 1
    let id := rd p 0 4
    let q := p.drop 4
    let result := c.cal.results.find? fun r => r.id == rd p 8 4
    let mask := rd p 12 2
    let es : List Entry := match item, result with
      | 3, some r => calEntries c r mask 12
      | _, _ => [{ code := 0x0500, payload := q }]
    (reply stOk (modTx id (fun x => { x with entries := x.entries ++ es }) c))) ∧
  Runs 0x0501 .pipeSetStitch acceptsPipeSetStitch (fun _ j c =>
    reply stOk (modTx (rd j.payload 0 4) (fun x => { x with entries := x.entries ++ [{ code := 0x0501, payload := j.payload.drop 4 }] }) c)) ∧
  Runs 0x0502 .pipeSetReference acceptsPipeSetReference (fun _ j c =>
    reply stOk (modTx (rd j.payload 0 4) (fun x => { x with entries := x.entries ++ [{ code := 0x0502, payload := j.payload.drop 4 }] }) c)) ∧
  Runs 0x0503 .pipeSetDetection acceptsPipeSetDetection (fun _ j c =>
    reply stOk (modTx (rd j.payload 0 4) (fun x => { x with entries := x.entries ++ [{ code := 0x0503, payload := j.payload.drop 4 }] }) c)) ∧
  Runs 0x0504 .pipeSetFilters acceptsPipeSetFilters (fun _ j c =>
    reply stOk (modTx (rd j.payload 0 4) (fun x => { x with entries := x.entries ++ [{ code := 0x0504, payload := j.payload.drop 4 }] }) c)) ∧
  Runs 0x0505 .pipeSetLabelling acceptsPipeSetLabelling (fun _ j c =>
    reply stOk (modTx (rd j.payload 0 4) (fun x => { x with entries := x.entries ++ [{ code := 0x0505, payload := j.payload.drop 4 }] }) c)) ∧
  Runs 0x0508 .pipeSetTiles acceptsPipeSetTiles (fun _ j c =>
    reply stOk (modTx (rd j.payload 0 4) (fun x => { x with entries := x.entries ++ [{ code := 0x0508, payload := j.payload.drop 4 }] }) c)) ∧
  Runs 0x0506 .pipeLoadClassifier acceptsPipeLoadClassifier (fun _ j c =>
    let c := releaseModel c
    let p := j.payload
    let id := rd p 0 4
    let f := rd p 4 1
    let n := rd p 6 2
    let first := bit f 0
    let last := bit f 1
    let unload := bit f 2
    let old := classifierEntry c id
    let held : List Byte := if first then [] else (old.map fun e => e.payload.drop 1).getD []
    let bytes := held ++ p.drop 16
    let counted := (if first then 0 else (old.bind (·.counted)).getD 0) + (p.length - 4)
    let bad := decide (4000 < n) || n % 8 != 0 || (unload && !(first && last && n == 0))
    let e : Entry := { code := 0x0506, payload := le 1 (b2n unload) ++ bytes, counted := some counted, complete := last
                       invalid := bad || (!first && (old.map (·.invalid)).getD false) }
    (if !last || unload then replyBody (le 4 bytes.length) (putClassifier id e c)
     else match openContainer c bytes with
       | .ok plain => replyBody (le 4 bytes.length) (putClassifier id { e with data := plain } c)
       | .error st => { status := st, detail := if st = stBadParam then 0xFFFF else containerAuthDetail c bytes, chip := putClassifier id { e with invalid := true } c })) ∧
  Runs 0x0507 .pipeSetRecurrence acceptsPipeSetRecurrence (fun _ j c =>
    reply stOk (modTx (rd j.payload 0 4) (fun x => { x with entries := x.entries ++ [{ code := 0x0507, payload := j.payload.drop 4 }] }) c))

/-- Commands of the output rings, the counters and the Orangery: rules R214, R250, R251, R257, R259, R270, R485. -/
def Obligations.OutputAndHistoryCommandsRun : Prop :=
  Runs 0x0700 .outSetRecordRing acceptsOutSetRecordRing (fun _ j c =>
    let p := j.payload
    let enable := bit (rd p 0 1) 0
    let old := c.records.ring
    let new := ringAt p 128
    (let c := ringChannel old enable new 1 { c with records := { c.records with ring := old.change enable new } }
     replyBody (le 4 c.records.ring.head ++ le 4 c.records.queue.length) c)) ∧
  Runs 0x0701 .outSetTileRing acceptsOutSetTileRing (fun _ j c =>
    let p := j.payload
    let enable := bit (rd p 0 1) 0
    let old := c.tiles.ring
    let new := ringAt p (rd p 12 4)
    (let c := ringChannel old enable new 2 { c with tiles := { c.tiles with ring := old.change enable new } }
     replyBody (le 4 c.tiles.ring.head ++ le 4 c.tiles.jobs.length) c)) ∧
  Runs 0x0705 .outGetStats acceptsOutGetStats (fun _ j c =>
    let k := statSections j.payload
    (replyBody (statsBody 15 k c) (statsRead k c))) ∧
  Runs 0x0800 .lookbackConfigure acceptsLookbackConfigure (fun _ j c =>
    let p := j.payload
    let f := rd p 0 1
    let top := maxRingGib c
    let gib := if rd p 4 4 = 0 then top else rd p 4 4
    let first := bit f 0 && !c.orangery.everEnabled
    let resize := gib != ringGibNow c
    (let c := if first || resize then discardHistory c else if c.orangery.enable && !bit f 0 then flushBlocks c else c
     let c := modOrangery (fun o => { o with
       enable := bit f 0, depth8 := bit f 1, ringGib := gib, flushMs := rd p 8 4, everEnabled := o.everEnabled || bit f 0 }) c
     let n := ringExtents c
     replyBody (le 8 (n * extentBytes) ++ le 4 n ++ le 4 (n / 4)) c)) ∧
  Runs 0x0801 .lookbackRetrieve acceptsLookbackRetrieve (fun _ j c =>
    let p := j.payload
    let o := c.orangery
    let r := regionOf p 0
    let (first, lines) := regionSpan o r
    let w := (regionGrid o r).2
    (let c := addJob { id := o.nextJob, replay := false, region := r, first, lines, request := p } c
     { status := stPending, body := le 4 o.nextJob ++ le 4 lines ++ le 4 w ++ zeros 4 ++ le 8 first, chip := c })) ∧
  Runs 0x0802 .lookbackReplay acceptsLookbackReplay (fun _ j c =>
    let p := j.payload
    let o := c.orangery
    let r := regionOf p 0
    let id := rd p 24 4
    let (first, lines) := regionSpan o r
    let es := ((openTx c id).map (·.entries)).getD []
    let warm := if bit (rd p 32 1) 0 then 0 else min (rd p 28 4) (first - ((oldestHeld o).map (·.tag.number)).getD first)
    (let new : LbJob := { id := o.nextJob, replay := true, region := r, first, lines, request := p, warmup := warm, entries := es }
     { status := stPending, body := le 4 o.nextJob ++ le 4 lines ++ le 4 (regionGrid o r).2 ++ le 4 warm, chip := addJob new c })) ∧
  Runs 0x0803 .lookbackPin acceptsLookbackPin (fun _ j c =>
    let p := j.payload
    let pin := rd p 1 1 == 1
    (if pin then pinRegion p c
     else
       let c := modOrangery (fun o => { o with pins := o.pins.filter fun x => x.id != rd p 0 1 }) c
       let (free, c) := freeNat c
       replyBody (le 4 0 ++ le 4 (pinnedExtents c.orangery).length ++ le 8 free) c)) ∧
  Runs 0x0804 .lookbackStatus acceptsLookbackStatus (fun _ j c =>
    let id := rd j.payload 0 4
    let job := c.orangery.jobs.find? fun x => x.id == id
    (let (held, c) := heldFields c
     let o := c.orangery
     let log := o.writtenLog.filter fun w => decide (c.now < w.1 + 1000000000)
     let coded := log.foldl (fun n w => n + w.2.1) 0
     let (free, c) := if coded = 0 then freeNat c else (0, c)
     let ratio := if coded = 0 then free else log.foldl (fun n w => n + w.2.2) 0 * 1000 / coded
     let last := match job with
       | some x => le 2 (if x.finished then x.status else stPending) ++ le 4 x.linesDone ++ le 4 x.linesMissing
       | none => zeros 10
     let depth8 := if o.spanSeen then o.spanDepth8 else storesEight c
     replyBody (held ++ le 4 ratio ++ le 8 coded ++ le 4 (pinnedExtents o).length ++ le 4 o.blocksLost ++ le 1 (if depth8 then 8 else 12) ++
       le 1 (o.jobs.filter (·.running)).length ++ le 1 ((jobsLive o).filter fun x => !x.running).length ++ le 1 o.pins.length ++ le 2 o.stagingPeak ++ last)
       (modOrangery (fun o => { o with stagingPeak := stagingFill o }) c)))

/-- Commands of the views and of the compression engines: rules R271, R289, R292, R295. -/
def Obligations.ViewAndCompressionCommandsRun : Prop :=
  Runs 0x0702 .viewConfigure acceptsViewConfigure (fun _ j c =>
    let p := j.payload
    let v := viewOf p
    let k := rd p 0 1
    (replyBody (le 4 v.width ++ le 4 v.frameBytes ++ le 4 (ceilDiv (rtpRate c v) 1000000))
      { c with view := vmod c.view k fun x => { x with
        configured := true, cfg := v
        ring := { channel := 8 + k, base := rd p 40 8, entryCount := rd p 48 4, entrySize := rd p 52 4, headAddr := rd p 56 8 } } })) ∧
  Runs 0x0703 .viewStreamStart acceptsViewStreamStart (fun _ j c =>
    let p := j.payload
    let k := rd p 0 1
    let v := vget c.view k
    let d := v.cfg.delivery
    (let c := if d = 0 then takeChannel (8 + k) 3 c else c
     let (seq, c) := freeNat c
     let (ssrc, c) := freeNat c
     let c := { c with view := vset c.view k { v with
       started := true, frameNumber := 0, rows := [], current := [], lastRow := none, dropped := 0, lateBoxes := 0, boxes := [], unreported := 0
       firstDropped := none, suspended := false, rtpSequence := seq % 2 ^ 32, ssrc := ssrc % 2 ^ 32, packets := 0, octets := 0
       ring := { v.ring with enabled := d == 0, head := 0, tail := 0 } } }
     reply stOk (if c.health.level ≠ 0 then suspendView k c else arpRequest v.cfg c))) ∧
  Runs 0x0704 .viewStreamStop acceptsViewStreamStop (fun _ j c =>
    let p := j.payload
    let k := rd p 0 1
    let v := vget c.view k
    (let c := if v.cfg.delivery = 0 ∧ v.ring.enabled then freeChannel (8 + k) c else c
     reply stOk { c with view := vset c.view k { v with started := false, suspended := false, ring := { v.ring with enabled := false } } })) ∧
  Runs 0x0900 .zipSubmit acceptsZipSubmit (fun _ j c =>
    let p := j.payload
    let id := c.zip.nextId
    let archive := rd p 0 1 == 4
    let x := if archive then archiveOf p id else zipOf p id
    let ahead := (c.zip.jobs.filter fun y => y.state == 0).length
    { status := stPending, body := le 4 id ++ le 4 ahead ++ le 8 x.maxOutput,
      chip := { c with zip := { c.zip with jobs := c.zip.jobs ++ [x], nextId := nextTxId id } } }) ∧
  Runs 0x0901 .zipStatus acceptsZipStatus (fun _ j c =>
    let x := findZip c (rd j.payload 0 4)
    (match x with
     | none => reply stNotFound c
     | some x => replyBody (le 1 x.state ++ le 1 x.error ++ le 2 (if x.state = 2 then x.status else stPending) ++ le 4 x.tag ++ le 8 x.consumed ++
         le 8 x.output ++ le 8 x.errorBit) c)) ∧
  Runs 0x0902 .zipCancel acceptsZipCancel (fun _ j c =>
    let x := findZip c (rd j.payload 0 4)
    (match x with
     | none => reply stNotFound c
     | some x =>
       let body (k : Nat) : List Byte := le 1 k ++ zeros 3
       match x.state with
       | 0 => replyBody (body 0) (zipFinish { x with status := stAborted } c)
       | 1 => replyBody (body 1) (zipAbort x c)
       | _ => replyBody (body 2) c))

/-- Commands of the Ledger, the axes and the marking heads: rules R300, R305, R312, R319, R324, R327, R339, R340, R341. -/
def Obligations.LedgerAndMotionCommandsRun : Prop :=
  Runs 0x0600 .ledgerOpen acceptsLedgerOpen (fun _ j c =>
    let p := j.payload
    (let (id, c) := newTx (rd p 0 1 == 1) (rd p 4 4) false c
     replyBody (le 4 id ++ le 4 (txCount c)) c)) ∧
  Runs 0x0601 (fun t mb => .ledgerCommit t mb none) acceptsLedgerCommit (fun _ j c =>
    let p := j.payload
    match openTx c (rd p 0 4) with
    | some x => withOpenBody (commitTx x (rd p 4 1) (rd p 8 8) (rd p 16 6) (rd p 22 4) c)
    | none => reply stBadState c) ∧
  (∀ e, Runs 0x0601 (fun t mb => .ledgerCommit t mb (some e)) acceptsLedgerCommit (fun env j c =>
    let r := ledgerCommit env j c
    let c := takeRead false 0xFFFF { e with hit := .area } c
    if r.status ≠ stOk ∧ r.status ≠ stPending then r else if readFails e then reply stHwFault c else ledgerCommit env j c)) ∧
  Runs 0x0602 .ledgerAbort acceptsLedgerAbort (fun _ j c =>
    let id := rd j.payload 0 4
    (match (c.ledger.opened ++ c.ledger.armed).find? fun x => x.id == id with
     | some x => replyBody (le 1 4 ++ zeros 15) (closeTx { x with state := .aborted } c)
     | none =>
       let x := (findTx c id).getD { id, rejectLate := false, tag := 0 }
       { status := stBadState, detail := mode c, body := le 1 x.state.code ++ zeros 7 ++ le 8 x.applied, chip := c })) ∧
  Runs 0x0603 .ledgerStatus acceptsLedgerStatus (fun _ j c =>
    let id := rd j.payload 0 4
    let counts := le 4 c.ledger.opened.length ++ le 4 c.ledger.armed.length
    (match if id = 0 then none else findTx c id with
     | none => replyBody ([0xFF] ++ zeros 31 ++ counts ++ zeros 4) c
     | some x => replyBody (le 1 x.state.code ++ le 1 (b2n x.rejectLate) ++ le 1 x.pointKind ++ le 1 x.rejectReason ++
         le 4 x.entries.length ++ le 4 x.payloadBytes ++ le 4 x.entryIndex ++ le 8 x.pointMd ++ le 8 x.applied ++ counts ++ le 4 x.tag) c)) ∧
  Runs 0x0B00 .axisConfigure acceptsAxisConfigure (fun _ j c =>
    let p := j.payload
    let a := axisOf p
    let k := rd p 0 1
    (reply stOk (modAxis k (configureAxis c a) (sampledAxis k c)))) ∧
  Runs 0x0B01 .axisHome acceptsAxisHome (fun _ j c =>
    let p := j.payload
    let k := rd p 0 1
    let x := vget c.axis k
    let r := rd p 1 1
    let positive := rd p 2 1 == 1
    (let h : Homing := {
       reference := r, positive, velocity := rd p 4 8, backoff := rd p 12 4, maxTravel := rd p 16 4, homePosition := rdS p 24 8, origin := x.pos c.now }
     let travel : Int := h.maxTravel + 2 ^ 40
     let far := x.pos c.now + (if positive then travel else -travel)
     let segs := planMove ((h.velocity : Rat) / 65536) x.cfg.aMax x.cfg.jMax (x.kin c.now) far
     reply stPending (modAxis k (fun x => { x.begin c.now segs far .home with state := .homing, referenced := false, homing := some h }) c))) ∧
  Runs 0x0B02 .axisMove acceptsAxisMove (fun _ j c =>
    let p := j.payload
    if rd p 0 4 ≠ 0 then reply stOk (modTx (rd p 0 4) (fun x => { x with entries := x.entries ++ [{ code := 0x0B02, payload := p.drop 4 }] }) c)
    else
      let k := rd p 4 1
      let c := startMove k (p.drop 4) c
      replyBody (le 6 (vget c.axis k).arrivalS ++ le 4 (vget c.axis k).arrivalNs ++ zeros 2) c) ∧
  Runs 0x0B03 .axisStop acceptsAxisStop (fun _ j c =>
    let p := j.payload
    (reply stOk (stopAxis (rd p 0 1) (rd p 1 1 == 1) (bit (rd p 2 1) 0) (bit (rd p 2 1) 1) c))) ∧
  Runs 0x0B04 .axisStatus acceptsAxisStatus (fun _ j c =>
    let p := j.payload
    (if rd p 1 1 = 1 then replyBody (((c.mark.log.drop (rd p 2 2)).take 64).flatMap missedBytes) c
     else
       let (body, c) := axisState (rd p 0 1) c
       replyBody body c)) ∧
  Runs 0x0B05 .markConfigure acceptsMarkConfigure (fun _ j c =>
    reply stOk (modTx (rd j.payload 0 4) (fun x => { x with entries := x.entries ++ [{ code := 0x0B05, payload := j.payload.drop 4 }] }) c))

/-- Commands of the Sundial, PTP, the servo, the pulse outputs and the capture inputs: rules R345, R348, R349, R353, R365, R366, R369, R370. -/
def Obligations.TimeCommandsRun : Prop :=
  Runs 0x0A00 .timeGet acceptsTimeGet (fun _ j c =>
    (let (b, c) := if rd j.payload 0 1 = 0 then timeAndServo j c else outputsAndCaptures c
     replyBody b c)) ∧
  Runs 0x0A01 .timeSet acceptsTimeSet (fun _ j c =>
    let p := j.payload
    let relative := rd p 0 1 == 1
    (reply stOk (if relative then stepSun 1 ((sunTotal c.time.sun c.now : Int) + rdS p 24 8 * 2 ^ 32).toNat c
      else stepSun 1 ((rd p 8 6 * 1000000000 + rd p 14 4) * 2 ^ 32) c))) ∧
  Runs 0x0A02 .ptpConfigure acceptsPtpConfigure (fun _ j c =>
    reply stOk (if rd j.payload 0 1 = 0 then ptpClockApply j.payload c else ptpPortApply j.payload c)) ∧
  Runs 0x0A03 .ptpStatus acceptsPtpStatus (fun _ j c =>
    let p := j.payload
    let k := rd p 0 1
    let e := vget c.time.eth k
    (replyBody (le 1 e.portState ++ le 1 (b2n e.linkUp) ++ le 1 c.time.clock.profile ++ (masterBytes c).1 ++ (masterBytes c).2 ++
       leS 8 e.offsetFromMaster ++ leS 8 (e.mAvg.getD 0) ++ le 4 e.syncReceived ++ le 4 e.delayExchanges ++
       le 4 e.pathOutliers ++ le 4 e.pathSteps ++ le 4 e.txtsOverflows ++ le 1 e.txtsPeak ++ zeros 3)
      (modEth k (fun e => { e with txtsPeak := if firmwareRuns c then 0 else e.txts.length }) c))) ∧
  Runs 0x0A04 .servoConfigure acceptsServoConfigure (fun _ j c =>
    let p := j.payload
    (reply stOk (servoApply p c))) ∧
  Runs 0x0A05 .pulseSchedule acceptsPulseSchedule (fun _ j c =>
    let p := j.payload
    if rd p 0 4 ≠ 0 then reply stOk (modTx (rd p 0 4) (fun x => { x with entries := x.entries ++ [{ code := 0x0A05, payload := p.drop 4 }] }) c)
    else
      let o := rd p 4 1
      let c := programPulse o (pulseOf (p.drop 4)) c
      replyBody ((pulseEntry (vget c.time.pulse o) c).1.take 1 ++ zeros 3) c) ∧
  Runs 0x0A06 .pulseCancel acceptsPulseCancel (fun _ j c =>
    let p := j.payload
    let o := rd p 0 1
    let x := vget c.time.pulse o
    (replyBody ((pulseEntry x c).1.take 1 ++ zeros 3 ++ le 4 x.emitted)
      (modPulse o (fun x => { x with state := if x.state = .armed ∨ x.state = .running then .cancelled else x.state }) c))) ∧
  Runs 0x0A07 .captureConfigure acceptsCaptureConfigure (fun _ j c =>
    let p := j.payload
    let i := rd p 0 1
    let enable := rd p 1 1 != 0
    let old := (vget c.time.capture i).ring
    let new : Ring := { channel := rd p 3 1, irqCount := rd p 4 2, irqHoldoffUs := rd p 6 2, entryCount := rd p 8 4, entrySize := 32, base := rd p 16 8, headAddr := rd p 24 8 }
    (reply stOk (ringChannel old enable new 6 (modCapture i (fun x => { x with edges := rd p 1 1, glitchSamples := rd p 2 1, ring := old.change enable new }) c))))

/-- Commands of the auxiliary inputs, the gang and the DRAM: rules R380, R384, R386, R387, R389, R402, R408, R429. -/
def Obligations.AuxiliaryAndGangCommandsRun : Prop :=
  Runs 0x0C00 .auxConfigure acceptsAuxConfigure (fun _ j c =>
    let p := j.payload
    if rd p 0 1 = 1 then auxChannel p c
    else if rd p 0 1 = 2 then
      reply stOk ((setBits 8 (rd p 4 1)).foldl (fun c k => if (vget c.aux.ch k).enable then auxSuppress k 2 c else c) c)
    else
      let enable := bit (rd p 4 1) 0
      let old := c.aux.ring
      let new : Ring := {
        channel := rd p 5 1, irqCount := rd p 6 2, irqHoldoffUs := rd p 8 2, entryCount := rd p 12 4, entrySize := 32, base := rd p 16 8, headAddr := rd p 24 8 }
      reply stOk (ringChannel old enable new 7 { c with aux := { c.aux with ring := old.change enable new } })) ∧
  Runs 0x0C01 .auxLoadCoeffs acceptsAuxLoadCoeffs (fun _ j c =>
    let p := j.payload
    let a := vget c.aux.ch (rd p 4 1)
    let body (bank : Nat) : List Byte := le 1 bank ++ zeros 3 ++ delayFields (a.groupDelay (bankOf (p.drop 4)))
    if rd p 0 4 ≠ 0 then
      { reply stOk (modTx (rd p 0 4) (fun x => { x with entries := x.entries ++ [{ code := 0x0C01, payload := p.drop 4 }] }) c) with body := body 0xFF }
    else replyBody (body (1 - a.current)) (auxLoadApply (p.drop 4) c)) ∧
  Runs 0x0C02 .auxSwapBank acceptsAuxSwapBank (fun _ j c =>
    let p := j.payload
    let a := vget c.aux.ch (rd p 4 1)
    if rd p 0 4 ≠ 0 then reply stOk (modTx (rd p 0 4) (fun x => { x with entries := x.entries ++ [{ code := 0x0C02, payload := p.drop 4 }] }) c)
    else replyBody (le 1 (b2n (a.fading || a.swapNext.isSome)) ++ zeros 3) (auxSwapApply (p.drop 4) c)) ∧
  Runs 0x0C03 .auxToneConfigure acceptsAuxToneConfigure (fun _ j c =>
    let p := j.payload
    (reply stOk (modTone (rd p 0 1) (fun _ => {
      enable := rd p 1 1 == 1, channel := rd p 2 1, frequencyMhz := rd p 4 4, blockLength := rd p 8 4, onThreshold := rd p 12 4, offThreshold := rd p 16 4 }) c))) ∧
  Runs 0x0C04 .auxRead acceptsAuxRead (fun _ j c =>
    let p := j.payload
    (replyBody (match rd p 0 1 with
      | 0 => c.aux.ch.toList.flatMap (auxState c)
      | 1 => (c.aux.ch.toList.mapIdx fun k a =>
          delayFields (a.groupDelay (vget a.bank a.current)) ++ le 4 (ratRound (modulatorNs (a.skew k))).toNat ++ le 4 a.rateMhz).flatten
      | 2 => c.aux.tone.toList.flatMap fun t => le 1 (b2n t.on) ++ le 1 t.channel ++ le 2 t.phase ++ le 4 t.magnitude ++ le 4 t.blocks ++ zeros 4
      | _ => c.aux.cal.toList.flatMap fun x => le 2 x.verdict ++ le 2 x.status ++ leS 4 x.offset ++ le 4 x.gain ++ le 4 x.repeatDeviation) c)) ∧
  Runs 0x0F00 .gangConfigure acceptsGangConfigure (fun _ j c =>
    let p := j.payload
    let action := rd p 23 1
    (reply stOk (if action = 0 then gangConfigured p c
      else scheduleJoin (if rd p 24 8 = 0 then joinPoint c else rd p 24 8) c))) ∧
  Runs 0x0F01 .gangStatus acceptsGangStatus (fun _ _ c =>
    let g := c.gang
    (replyBody (le 1 g.state.code ++ le 1 g.role ++ le 1 g.members ++ le 1 (packBits [g.portUp 0, g.portUp 1, openAbove c c.perg.next || openBelow c c.perg.next, g.nodeConflict]) ++
      le 1 (if g.nodes.isEmpty then c.modes.nodeId else g.leaderNode) ++ le 1 c.modes.nodeId ++ le 1 (gangSeamState c) ++ leS 1 g.seam.dc ++ leS 1 g.seam.dm ++ [0] ++
      le 2 g.seam.confidence ++ le 4 (vget g.latency 0) ++ le 4 (vget g.latency 1) ++ le 4 g.splits ++ le 4 g.framesRetried ++ le 4 g.imports ++
      le 8 g.lastSplitTrigger ++ le 8 g.joinTrigger) c)) ∧
  Runs 0x0D05 .dramStatus acceptsDramStatus (fun _ j c =>
    let p := j.payload
    (if rd p 1 1 = 0 then let (b, c) := channelSection (rd p 0 1) c; replyBody b c
     else if rd p 1 1 = 1 then replyBody (trainingSection (rd p 0 1) c) c
     else replyBody (logSection c) c))

/-- Commands of the event ring, health, thermal and the life record: rules R463, R464, R496, R501, R508, R512, R513. -/
def Obligations.EventAndHealthCommandsRun : Prop :=
  Runs 0x0107 .sysSetEventRing acceptsSysSetEventRing (fun _ j c =>
    let p := j.payload
    let enable := bit (rd p 0 1) 0
    let old := c.evq.ring
    let new : Ring := {
      irqCount := rd p 2 2, irqHoldoffUs := rd p 4 2, entryCount := rd p 8 4, entrySize := 32, base := rd p 16 8, headAddr := rd p 24 8 }
    (let c := { c with evq := { c.evq with ring := old.change enable new, irqSeverity := rd p 1 1 } }
     replyBody (le 4 c.evq.ring.head ++ le 4 c.evq.fifo.length) c)) ∧
  Runs 0x0108 .sysSetEventMask acceptsSysSetEventMask (fun _ j c =>
    (reply stOk { c with evq := { c.evq with mask := vmapIdx (fun g _ => rd j.payload (2 * g) 2) c.evq.mask } })) ∧
  Runs 0x0D00 .healthStatus acceptsHealthStatus (fun _ j c =>
    let p := j.payload
    let set := bit (rd p 0 1) 0
    let enable := bit (rd p 1 1) 1
    let old := c.life.ring
    let new : Ring := { channel := rd p 2 1, irqCount := rd p 4 2, irqHoldoffUs := rd p 6 2, entryCount := rd p 8 4, entrySize := 128,
                        base := rd p 16 8, headAddr := rd p 24 8 }
    (let c := if set then
        ringChannel old enable new 8 { c with life := { c.life with ring := old.change enable new, telemetryEvent := bit (rd p 1 1) 0 } }
      else c
     replyBody (healthBody c) c)) ∧
  Runs 0x0D01 .thermalConfigure acceptsThermalConfigure (fun _ j c =>
    let p := j.payload
    (reply stOk (thermalApply p c))) ∧
  Runs 0x0D02 .thermalAckRequest acceptsThermalAckRequest (fun _ j c =>
    let x := rd j.payload 0 4
    (let c := modHealth (fun h => { h with
       acknowledged := true, throttleReq := false, extensionUsed := h.extensionUsed || x != 0, graceEnd := h.graceEnd + x * 1000000 }) c
     replyBody (le 4 (graceRemaining c) ++ le 1 c.health.level ++ [0, 0, 0]) c)) ∧
  Runs 0x0D03 .lifeRead acceptsLifeRead (fun _ j c =>
    let p := j.payload
    let sec := rd p 0 1
    (if sec = 0 then replyBody (totalsBytes c) c
     else
       let es := journalPart c.life.areaA (rd p 4 4) (rd p 8 2)
       replyBody (le 2 es.length ++ [0, 0] ++ le 4 ((c.life.areaA.head?.map fun x => rd x 4 4).getD 0) ++ es.flatten) c)) ∧
  Runs 0x0D04 .lifeSetCalendar acceptsLifeSetCalendar (fun _ j c =>
    let p := j.payload
    (reply stOk (refreshUtc { c with life := { c.life with hold := bit (rd p 2 1) 0, setOffset := some (rdS p 0 2) } })))

/-- Commands of security: rules R471, R518, R521, R523, R525, R528. -/
def Obligations.SecurityCommandsRun : Prop :=
  Runs 0x0E00 .secSessionOpen acceptsSecSessionOpen (fun env j c =>
    let p := j.payload
    let cls := rd p 1 1
    (if rd p 0 1 = 0 then newChallenge false env.mb c
     else
       let x := ((challengeOf c false env.mb).map (·.value)).getD []
       let c := setChallenge false env.mb none c
       match judge c x env.mb cls p with
       | .keyAbsent => { status := stAuthFail, detail := 2, chip := c }
       | .fails => { status := stAuthFail, detail := 0, chip := proofFailed env.mb 2 cls c }
       | .holds =>
         let c := openSession env.mb cls (rd p 4 4) (modSec (fun s => { s with failures := 0, lockoutUntil := none }) c)
         replyBody (le 1 cls ++ [0, 0, 0] ++ le 4 (((vget c.sec.sessions env.mb).map (·.id)).getD 0)) c)) ∧
  Runs 0x0E01 .secSessionClose acceptsSecSessionClose (fun env _ c =>
    (reply stOk (endSession env.mb 1 c))) ∧
  Runs 0x0E03 .secFuseRead acceptsSecFuseRead (fun _ _ c =>
    (replyBody ((List.range 5).flatMap fun k =>
    let f := vget c.sec.fuses k
    le 1 k ++ le 1 f.used ++ le 1 (changesAllowed k) ++ [0] ++ le 2 f.fused ++ le 2 f.inEffect) c)) ∧
  Runs 0x0E02 .secFuseWrite acceptsSecFuseWrite (fun _ j c =>
    let p := j.payload
    let k := rd p 0 1
    let f := vget c.sec.fuses k
    let v := fuseTarget c p
    (if v = f.fused then replyBody (fuseBody c k) c
     else match burn k v c with
      | (false, c) => { status := stHwFault, detail := 4, chip := c }
      | (true, c) =>
        let c := if k = 2 then
            endIntegrate (modSec (fun s => { s with keys := vset s.keys 0 (some (sliceB p 4 32)), keyGeneration := v }) c)
          else c
        replyBody (fuseBody c k) c)) ∧
  Runs 0x0E04 .secKeyLoad acceptsSecKeyLoad (fun _ j c =>
    let p := j.payload
    let slot := rd p 0 1
    let load := rd p 1 1 == 0
    let key := sliceB p 4 32
    (let (kcv, c) := if load then ((Config.aesBlock key (zeros 16)).take 3, c) else freeBytes 3 c
     replyBody (le 1 slot ++ fit 3 kcv) (modSec (fun s => { s with keys := vset s.keys slot (if load then some key else none) }) c))) ∧
  Runs 0x0E05 .secTamperConfigure acceptsSecTamperConfigure (fun _ j c =>
    let p := j.payload
    let new (k : Nat) : Nat := if rd p k 1 = 0xFF then vget c.sec.actions k else rd p k 1
    (let due := maxOf ((List.range 9).map fun k => if vget c.sec.asserted k && decide (vget c.sec.actions k < new k) then new k else 0)
     let c := modSec (fun s => { s with actions := vmapIdx (fun k _ => new k) s.actions, switchActiveLow := rd p 9 1 }) c
     let c := if due = 0 then c else enterLockdown (tamperActs due c)
     replyBody (le 2 (packBits c.sec.asserted.toList) ++ le 1 (b2n c.sec.latch) ++ [0] ++ c.sec.counts.toList.flatMap (le 4)) c)) ∧
  Runs 0x0E06 .secUnlock acceptsSecUnlock (fun env j c =>
    let p := j.payload
    let cls := rd p 1 1
    (if rd p 0 1 = 0 then newChallenge true env.mb c
     else
       let x := ((challengeOf c true env.mb).map (·.value)).getD []
       let c := setChallenge true env.mb none c
       match judge c x env.mb cls p with
       | .keyAbsent => { status := stAuthFail, detail := 2, chip := c }
       | .fails => { status := stAuthFail, detail := 0, chip := proofFailed env.mb 6 cls c }
       | .holds =>
         let c := modSec (fun s => { s with failures := 0, lockoutUntil := none, latch := false }) c
         replyBody (le 1 cls ++ zeros 7) (sessionEvent env.mb 5 cls 0 c)))

/-- Commands of the system: identity, mode, reset, firmware, configuration images: rules R2, R19, R436, R479, R481, R482, R487, R488, R533. -/
def Obligations.SystemCommandsRun : Prop :=
  Runs 0x0100 .sysGetInfo acceptsSysGetInfo (fun _ _ c =>
    (replyBody (infoBody 0x1640 0xB0 c) c)) ∧
  Runs 0x0101 .sysGetCaps acceptsSysGetCaps (fun _ _ c =>
    (replyBody capsBody c)) ∧
  Runs 0x0103 .sysGetMode acceptsSysGetMode (fun _ _ c =>
    (replyBody (le 1 (mode c) ++ le 1 c.health.level ++ [0, 0] ++ le 4 (conditions c) ++ le 4 (satU 32 ((c.now - c.modes.since) / 1000000)) ++
      le 1 c.modes.previous ++ [0, 0, 0]) c)) ∧
  Runs 0x0102 .sysSetMode acceptsSysSetMode (fun env j c =>
    let old := c.modes.base
    let b := (baseOf (rd j.payload 0 1)).getD old
    let c := if old = .configure ∧ b.triggers then checkMaps c else c
    if b = old then replyBody (modeBody c) c
    else if old = .standby then replyLater (modModes (fun m => { m with change := .selfTest env.mb }) c)
    else if old.triggers && !b.triggers then replyLater (startDrain b env.mb c)
    else
      let c := reportMode (if b = .standby then enterStandby c else enterTriggering b c)
      replyBody (modeBody c) c) ∧
  Runs 0x0104 .sysResetSubsystem acceptsSysResetSubsystem (fun env j c =>
    let p := j.payload
    let k := rd p 1 1
    let target := rd p 0 1
    (match target with
     | 0 => reply stOk (hostInterfaceReset (respond env.mb stOk 0 [] c))
     | 1 => reply stOk (clearStats c)
     | 2 => reply stOk (auxReset k c)
     | 3 => reply stOk (ethReset k c)
     | _ => reply stOk (if c.gang.cfg.uses k then sarecLost (c.gang.cfg.linkAt k) c else c))) ∧
  Runs 0x0105 .sysFwStage acceptsSysFwStage (fun env j c =>
    let p := j.payload
    let x := (c.fw.stage.map fun x => (x.data, x.length)).getD ([], 0)
    let before := if bit (rd p 1 1) 0 then [] else x.1
    let size := if bit (rd p 1 1) 0 then rd p 8 4 else x.2
    if rd p 0 1 = 0 then
      let image := env.bulk.readBytes (rd p 4 4) (rd p 8 4)
      stageEnds image (stageWrite image c)
    else
      let data := sliceB p 16 (rd p 2 2)
      let c := stageWrite data c
      if bit (rd p 1 1) 1 then stageEnds (before ++ data) c
      else replyBody (stageBody (before ++ data).length (stageBank c) 0 0)
        (modFw (fun f => { f with stage := some { mb := env.mb % 8, length := size, data := before ++ data } }) c)) ∧
  Runs 0x0106 .sysFwActivate acceptsSysFwActivate (fun _ j c =>
    let b := rd j.payload 0 1
    (if c.modes.boot = .recovery then
      reply stPending (endSessions (modModes (fun m => { m with boot := .booting, primary := 1 }) (modFw (fun f => { f.writeRecord b with running := b }) c)))
     else
      reply stPending (modModes (fun m => { m with notReady := .activationPending }) (modFw (fun f => { f with activating := some b }) c)))) ∧
  Runs 0x0109 (fun t mb => .sysExportConfig t mb none) acceptsSysExportConfig (fun _ j c =>
    let p := j.payload
    let off := rd p 0 4
    let x := imageOf c
    (replyBody (le 4 x.length ++ le 4 (imageRecords c).length ++ le 8 (snapshotTrigger c)) (emit (.bulkWrite off x) c))) ∧
  (∀ e, Runs 0x0109 (fun t mb => .sysExportConfig t mb (some e)) acceptsSysExportConfig (fun env j c =>
    let r := exportConfig env j c
    let c := takeRead false 0xFFFF { e with hit := .area } c
    if r.status ≠ stOk ∧ r.status ≠ stPending then r else if readFails e then reply stHwFault c else exportConfig env j c)) ∧
  Runs 0x010A .sysImportConfig acceptsSysImportConfig (fun env j c =>
    let p := j.payload
    let off := rd p 0 4
    let len := rd p 4 4
    let x := env.bulk.readBytes off (if off + len ≤ windowBytes then len else 0)
    let records := readRecords (rd x 20 4) (x.drop 64)
    (importRecords env j (records.getD []) c))

/-- The forerunner's command set: each legacy code runs its native command, and a setting command is staged in an internal transaction of
its own and committed at once: rules R559, R560. -/
def Obligations.LegacyCommandsRun : Prop :=
  (∀ (s : State) (t : Nat) (mb : Fin 8) (j : Job), s.holdsLegacy mb false j = true →
    let c := s.tick t
    let env : Env := ⟨mb, s.bulk⟩
    let runs (f : Env → Job → Chip → Reply) : Prop := exec (.legacyCommand t mb) s = .next (s.put (finish mb (f env j c)))
    (j.rawCode = 0x82 → runs getMode) ∧ (j.rawCode = 0x8A → runs encConfigure) ∧ (j.rawCode = 0x8B → runs encGetState) ∧
    (j.rawCode = 0xA0 → runs outSetRecordRing) ∧ (j.rawCode = 0xA1 → runs outSetTileRing) ∧ (j.rawCode = 0xA2 → runs setEventRing) ∧
    (j.rawCode = 0xA3 → runs (getStats 11)) ∧ (j.rawCode = 0xA4 → runs setEventMask) ∧ (j.rawCode = 0xA9 → runs zipStatus) ∧
    (j.rawCode = 0xAA → runs zipCancel) ∧ (j.rawCode = 0xB1 → runs timeSet) ∧ (j.rawCode = 0xB3 → runs ptpStatus) ∧
    (j.rawCode = 0xBA → runs calGetResult) ∧
    (j.rawCode = 0x80 → j.payload = [] → runs fun _ _ c => replyBody (infoBody 0x1212 0x21 c) c) ∧
    (j.rawCode = 0x83 → j.payload = [] → runs fun _ _ c => reply stOk (clearStats c)) ∧
    (j.rawCode = 0x81 → rd j.payload 0 1 ≠ 10 → runs setMode) ∧
    (j.rawCode = 0x84 → rd j.payload 0 1 ≤ 11 → rd j.payload 2 1 ≤ 6 → runs portDiscover) ∧
    (j.rawCode = 0x85 → rd j.payload 0 1 ≤ 11 → runs portRead) ∧ (j.rawCode = 0x86 → rd j.payload 0 1 ≤ 11 → runs portWrite) ∧
    (j.rawCode = 0x87 → rd j.payload 0 1 ≤ 11 → runs portConfigure) ∧
    (j.rawCode = 0x8C → rd j.payload 4 2 < 4096 → rd j.payload 6 2 < 4096 → runs trigConfigure) ∧
    (j.rawCode = 0xA8 → rd j.payload 0 1 = 4 → runs zipSubmit) ∧ (j.rawCode = 0xB0 → rd j.payload 0 1 = 0 → runs timeGet) ∧
    (j.rawCode = 0xB2 → rd j.payload 0 1 ≠ 0 ∨ rd j.payload 4 1 = 0 → runs ptpConfigure) ∧
    (j.rawCode = 0xB8 → rd j.payload 0 2 < 4096 → runs calFlatField) ∧ (j.rawCode = 0xB9 → rd j.payload 0 2 < 4096 → runs calGeometry) ∧
    (j.rawCode = 0x88 → j.payload.length = 28 → runs fun env j c =>
      let r := laneMap env { j with payload := j.payload.take 12 ++ List.replicate 4 (BitVec.ofNat 8 0xFF) ++ j.payload.drop 12 } c
      if r.status = stBadParam ∧ 16 ≤ r.detail ∧ r.detail < 0xFFFF then { r with detail := r.detail - 4 } else r) ∧
    (j.rawCode = 0x89 → runs fun env j c => { laneStatus env j c with
      body := (laneStatus env j c).body.take 384 ++ (laneStatus env j c).body.drop 512 })) ∧
  (∀ (s : State) (t : Nat) (mb : Fin 8) (j : Job) (x : Tx),
    let c := s.tick t
    let env : Env := ⟨mb, s.bulk⟩
    let opened := newTx false 0 true c
    let k := settingRequest j opened.1
    let staged := settingCommand j.code env k opened.2
    let applied := commitTx x 0 0 0 0 staged.chip
    s.holdsLegacy mb true j = true → c.ledger.armed.any (·.internal) = false → modelHeld c mb = false → firstSetting c mb = true →
    j.code ≠ 0x0506 → passes (settingLimits j.code k.payload) = true → staged.status = stOk → openTx staged.chip opened.1 = some x →
    applied.status = stOk →
    exec (.legacySettingCommand t mb) s = .next (s.put (finish mb { staged with chip := applied.chip })))

/-- Encoder, index and line trigger events: what each does to the Web's state: rules R28, R34, R38, R47. -/
def Obligations.EncoderAndTriggerEvents : Prop :=
  (∀ (s : State) (t : Nat) (ch : Fin 8) (a b : Bool) (heldA heldB : Nat),
    let c := s.tick t
    let e := vget c.enc ch
    let pinA := if e.glitchSamples ≤ heldA then a else e.pinA
    let pinB := if e.glitchSamples ≤ heldB then b else e.pinB
    let moved := { c with enc := vset c.enc ch { e with rawA := a, rawB := b, pinA, pinB } }
    let step := countStep e.form (e.seen e.pinA e.pinB).1 (e.seen e.pinA e.pinB).2 (e.seen pinA pinB).1 (e.seen pinA pinB).2
    (e.configured = false ∨ step = some 0 → exec (.encoderCount t ch a b heldA heldB) s = .next (s.put moved)) ∧
    (e.configured = true → step = some 1 → exec (.encoderCount t ch a b heldA heldB) s = .next (s.put (takeCount ch true moved))) ∧
    (e.configured = true → step = some (-1) → exec (.encoderCount t ch a b heldA heldB) s = .next (s.put (takeCount ch false moved))) ∧
    (e.configured = true → step = none → exec (.encoderCount t ch a b heldA heldB) s = .next (s.put (illegalTransition ch moved)))) ∧
  (∀ (s : State) (t : Nat) (ch : Fin 8) (z : Bool) (held : Nat),
    let c := s.tick t
    let e := vget c.enc ch
    let pinZ := if e.glitchSamples ≤ held then z else e.pinZ
    let moved := { c with enc := vset c.enc ch { e with rawZ := z, pinZ } }
    let active := if e.forward then (xor e.pinZ e.invertZ = false ∧ xor pinZ e.invertZ = true) else (xor e.pinZ e.invertZ = true ∧ xor pinZ e.invertZ = false)
    (e.configured = true → e.indexEnable = true → e.countsPerRev ≠ 0 → active →
      exec (.indexPulse t ch z held) s = .next (s.put (takeIndex ch moved))) ∧
    (¬ active → exec (.indexPulse t ch z held) s = .next (s.put moved))) ∧
  (∀ (s : State) (t : Nat) (ch : Fin 8),
    let c := s.tick t
    let e := vget c.enc ch
    let kept := if (ch : Nat) = c.trig.mainChannel then { holdInstant c with trig := { (holdInstant c).trig with hwm := hwmNow c } } else c
    e.configured = true → e.stopped = false → e.times.headD 0 + e.zeroSpeedTimeout * 1000000 ≤ c.now →
    exec (.zeroSpeedTimeout t ch) s = .next (s.put (raise 0x0303 1 ch (le 1 ch ++ zeros 3 ++ leS 8 e.count)
      { kept with enc := vset kept.enc ch { e with stopped := true, times := [] } }))) ∧
  (∀ (s : State) (t : Nat) (tag : Tag),
    let c := s.tick t
    let issued := issueTrigger c
    generatorRuns c = true → (∀ last, c.trig.lastTrigger = some last → last + c.trig.minPeriod ≤ tickNow c) →
    (∀ known, knownInstant c = some known → known ≤ tickNow c) → (knownInstant c = none → triggerGoal c ≤ mdAt c (tickNow c)) →
    issued.trig.tags.head? = some tag →
    exec (.lineTrigger t) s = .next (s.put (
      let applied := applyDue true tag issued
      let based := moveBase (targetMd c (c.trig.j + skippedTargets c)) applied
      let joined := if joinDue based tag.md then gangJoin tag.number based else based
      afterTrigger tag.number (sendTag joined)))) ∧
  (∀ (s : State) (t : Nat) (known : Nat),
    let c := s.tick t
    generatorRuns c = false ∨ (knownInstant c = some known ∧ tickNow c < known) ∨ (knownInstant c = none ∧ mdAt c (tickNow c) < triggerGoal c) →
    exec (.lineTrigger t) s = .next (s.put c))

/-- Events of the camera ports, their links and the virtual cameras: discovery, control packets, lines and their loss, power and eye scans,
recovery: rules R60, R65, R66, R68, R69, R70, R71, R73, R74, R81. -/
def Obligations.PortEvents : Prop :=
  (∀ (s : State) (t : Nat) (port : Fin 16) (d : Discovery) (i : CameraInfo) (speed : Nat),
    let c := s.tick t
    let links := if d.links = 0 then i.defaultLinks else d.links
    let asked := if d.speed = 0 then i.defaultSpeed else d.speed
    let first := if c.modes.personality = 1 then min asked 6 else asked
    let limit := (vget c.port port).codeErrorLimit
    let told := bootstrapTraffic port links (speedsTried d first limit links i) d c
    let eye := (shownAt speed i.scans).getD []
    let errors := (shownAt speed i.errors).getD []
    let trained := modPort port (fun x => { x with
      state := if (laneOf c port).isSome && triggering c then .streaming else .ready
      discovery := none, links, speed, pixelFormat := i.pixelFormat, width := i.width
      camMinPeriodNs := if d.minPeriodAddr = 0 then 0 else i.minPeriodNs
      cxpRevision := i.revision, modelName := i.model, serial := i.serial, packetData := i.packetData
      link := trainedLinks links eye errors told.now x.link }) told
    let ready := if (laneOf trained port).isSome then refreshPeriod trained else trained
    (vget c.port port).discovery = some d → d.queued = false → cameraAccepted i = true →
    (speedsToTry d first).find? (locksHealthy i limit links) = some speed →
    exec (.discoveryComplete t port (some i)) s = .next (s.put (respond d.mb stOk 0 (discoverBody (vget ready.port port) links speed) ready))) ∧
  (∀ (s : State) (t : Nat) (port : Fin 16) (d : Discovery), (vget s.chip.port port).discovery = some d → d.queued = false →
    exec (.discoveryComplete t port none) s = .next (s.put (discoveryFails port stTimeout 0 0 0 d (s.tick t)))) ∧
  (∀ (s : State) (t : Nat) (port : Fin 16) (code : Nat) (data : List Byte) (a : Access) (rest : List Access),
    let c := s.tick t
    let k := packetBytes (vget c.port port) a
    let taken := modAccess port (fun a => { a with done := a.done + k, retries := 0, data := if a.write then a.data else a.data ++ fit k data }) c
    (vget c.port port).accesses = a :: rest →
    exec (.controlAckReceived t port true false code data) s =
        .next (s.put (if a.length ≤ a.done + k then endAccess port stOk code taken else sendPacket port taken)) ∧
      exec (.controlAckReceived t port true true code data) s = .next (s.put (endAccess port stAborted code c)) ∧
      exec (.controlAckReceived t port false false code data) s = .next (s.put (
        if a.retries < 3 then sendPacket port (modAccess port (fun a => { a with retries := a.retries + 1 }) c)
        else endAccess port stTimeout code c)) ∧
      exec (.controlAckTimeout t port) s = .next (s.put (
        if a.retries < 3 then sendPacket port (modAccess port (fun a => { a with retries := a.retries + 1 }) c)
        else nextTransaction port (respond a.mb stTimeout 0
          (le 2 a.done ++ le 2 0 ++ (if a.write then [] else zeros 4 ++ a.data)) (modPort port (fun x => { x with accesses := rest }) c))))) ∧
  (∀ (s : State) (t : Nat) (k : Fin 4) (links speed offset length : Nat) (r : Fin 16) (id : List Byte),
    let c := s.tick t
    let v := vget c.vcam k
    let put (v : Vcam) : Chip := { c with vcam := vset c.vcam k v }
    v.enabled = true →
    exec (.vcamControlPacket t k .discovery) s = .next (s.put (emit (.vcamAck k 0 []) c)) ∧
      exec (.vcamControlPacket t k (.read r)) s = .next (s.put (emit (.vcamAck k 0 (vcamRegister c k r)) c)) ∧
      exec (.vcamControlPacket t k (.connectionConfig links speed)) s =
        .next (s.put (emit (.vcamAck k (if links = v.cfg.links ∧ speed = v.cfg.speed then 0 else 1) []) c)) ∧
      exec (.vcamControlPacket t k .acquisitionStart) s = .next (s.put (emit (.vcamAck k 0 []) (put { v with acquiring := true, imageLine := 0 }))) ∧
      exec (.vcamControlPacket t k (.readXml offset length)) s = .next (s.put (emit (.vcamAck k 0 (sliceB Config.genicamFile offset length)) c)) ∧
      exec (.vcamControlPacket t k (.writeReadOnly r)) s = .next (s.put (emit (.vcamAck k 1 []) c)) ∧
      exec (.vcamControlPacket t k .acquisitionStop) s =
        .next (s.put (emit (.vcamAck k 0 []) (vcamTake k (put { v with acquiring := false, imageLine := 0 })))) ∧
      exec (.vcamControlPacket t k (.writeUserId id)) s = .next (s.put (emit (.vcamAck k 0 []) (put { v with userId := id }))) ∧
      exec (.vcamTriggerPacket t k) s = .next (s.put (emit (.vcamAck k 0 []) (put { v with triggers := wrapU 64 (v.triggers + 1) })))) ∧
  (∀ (s : State) (t : Nat) (port : Fin 16) (first l : Nat) (packets crcErrors : List Nat) (stream : List Byte) (o : Outstanding)
      (past rest : List Outstanding),
    let c := s.tick t
    let x := vget c.port port
    let counted := countPackets port packets crcErrors c
    let matched := losePast port past (modPort port (fun x => { x with
      outstanding := rest, timedOut := x.timedOut.filter fun y => decide (o.number < y.1.number) }) counted)
    let buffered := bufferLine l o.number (x.linePixels stream) matched
    (x.state = .streaming ∨ x.relocked = true) → x.width ≤ (x.linePixels stream).length → laneOf counted port = some l →
    matchLine x first = some (o, past, rest) →
    ((∀ y ∈ x.timedOut, y.1.number ≠ o.number) → (∀ n ∈ crcErrors, n = 0) → exec (.cameraLineReceived t port first packets crcErrors stream) s =
      .next (s.put (
        if x.relocked then linkUp port o.number (modPort port (fun x => { x with state := .streaming, relocked := false }) buffered) else buffered))) ∧
    ((∃ y ∈ x.timedOut, y.1.number = o.number) → exec (.cameraLineReceived t port first packets crcErrors stream) s = .next (s.put matched)) ∧
    ((∀ y ∈ x.timedOut, y.1.number ≠ o.number) → (∃ n ∈ crcErrors, n ≠ 0) → exec (.cameraLineReceived t port first packets crcErrors stream) s =
      .next (s.put (lineLost port o.number matched)))) ∧
  (∀ (s : State) (t : Nat) (port : Fin 16) (o : Outstanding) (rest : List Outstanding),
    let c := s.tick t
    let x := vget c.port port
    x.outstanding = o :: rest →
    (o.at_ + x.lineTimeoutUs * 1000 ≤ c.now → exec (.lineTimeout t port) s = .next (s.put (lineLost port o.number (modPort port (fun x => { x with
      outstanding := rest, timedOut := ((x.timedOut ++ [(o, c.now)]).reverse.take 64).reverse }) c)))) ∧
    (c.now < o.at_ + x.lineTimeoutUs * 1000 → exec (.lineTimeout t port) s = .next (s.put c))) ∧
  (∀ (s : State) (t : Nat) (port : Fin 16) (link : Fin 4),
    let c := s.tick t
    let lost := calLinkSeen port link (fun x => { x with verdict := setBit x.verdict 4 true }) (linkLost port link c)
    exec (.linkLost t port link) s = .next (s.put (
      if (vget c.port port).state ≠ .down ∧ (vget lost.port port).state = .down ∧ (laneOf lost port).isSome then calStop lost else lost))) ∧
  (∀ (s : State) (t : Nat) (port : Fin 16),
    let c := s.tick t
    let x := vget c.port port
    x.power = true → x.powerAt + x.pocBlankMs * 1000000 ≤ c.now → x.discovery = none →
    exec (.powerFault t port) s = .next (s.put (loseOutstanding port (linkDown port 0xFF 1 (firstLostLine c port)
      (modPort port (fun x => { x.idleLinks with state := .fault, power := false, discovery := none, relocked := false }) c))))) ∧
  (∀ (s : State) (t : Nat) (port : Fin 16) (link : Fin 4) (width new errors : Nat),
    let c := s.tick t
    let x := vget c.port port
    let k := vget x.link link
    let healthy := decide (eyeThreshold x.speed ≤ width) && decide (errors < x.codeErrorLimit)
    (link : Nat) < x.links → k.state ≠ 3 → k.state ≠ 0 → ((healthy = true ∨ k.unhealthyOnce = false) →
      exec (.eyeScan t port link width new errors) s = .next (s.put (calLinkSeen port link (fun y => { y with
          speed := x.speed, eyeMin := if y.eyeMax = 0 then width else min y.eyeMin width, eyeMax := max y.eyeMax width })
        (modPort port (fun x => { x with link := vmod x.link link fun y => { y with
          eyeWidth := width, lastScan := (takeErrors port link new errors c).now, state := if healthy then 1 else 2
          unhealthyOnce := !healthy, qualityRaised := y.qualityRaised && !healthy } }) (takeErrors port link new errors c))))) ∧
    (x.codeErrorLimit ≤ errors → exec (.codeErrorLimit t port link new errors) s = .next (s.put (qualityLow port link
      (modPort port (fun x => { x with link := vmod x.link link fun y => { y with state := 2 } }) (takeErrors port link new errors c)))))) ∧
  (∀ (s : State) (t : Nat) (port : Fin 16),
    let c := s.tick t
    (vget c.port port).recovers = true → (vget c.port port).lastAttempt + 100000000 ≤ c.now →
    exec (.recoveryAttempt t port) s = .next (s.put (modPort port (fun x => { x with lastAttempt := c.now }) c))) ∧
  (∀ (s : State) (t : Nat) (port : Fin 16) (width pixelFormat : Nat),
    let c := s.tick t
    let x := vget c.port port
    let read := emit (.cxpBootstrap port .pixelFormat none) (emit (.cxpBootstrap port .width none) c)
    let up := modPort port (fun x => { x with link := vmapIdx (fun m y => if m < x.links then { y with state := if eyeThreshold x.speed ≤ y.eyeWidth ∧ y.errorsLastS < x.codeErrorLimit then 1 else 2 } else y) x.link }) read
    x.recovers = true →
    (width ≠ x.width ∨ pixelFormat ≠ x.pixelFormat → exec (.linkRelock t port width pixelFormat) s =
      .next (s.put (linkDown port 0xFF 2 c.trig.number (modPort port (fun x => { x with mismatch := true }) read)))) ∧
    (width = x.width → pixelFormat = x.pixelFormat → (laneOf up port).isSome = true → triggering up = true →
      exec (.linkRelock t port width pixelFormat) s = .next (s.put (modPort port (fun x => { x with relocked := true, outstanding := [], timedOut := [] }) up))) ∧
    (width = x.width → pixelFormat = x.pixelFormat → (laneOf up port = none ∨ triggering up = false) → exec (.linkRelock t port width pixelFormat) s =
      .next (s.put (linkUp port c.trig.number (modPort port (fun x => { x with state := .ready }) up)))))

/-- Events of the imaging pipeline: correction, stitching, seams, detection, labelling, classification and the Rotunda: rules R103, R127,
R130, R133, R135, R169, R175, R187, R220, R235. -/
def Obligations.ImagingEvents : Prop :=
  (∀ (s : State) (t : Nat) (lane : Fin 16) (n : Nat) (line : CamLine),
    let c := s.tick t
    pipelineRuns c = true → laneMapped c lane = true → (vget c.engines.binding lane).isSome = true → bit c.engines.withheld lane = false →
    contributed c lane n = false → c.perg.next ≤ n → n < c.trig.number → cameraLine c (settingsAt c n) lane n = some line →
    exec (.laneLineCorrection t lane n) s = .next (s.put (correctLine lane n (settingsAt c n) line c))) ∧
  (∀ (s : State) (t : Nat) (line : Stitched) (rest : List Stitched),
    let c := s.tick t
    let made := assembleLine c
    let kept := rotundaLine (settingsAt c c.perg.next) c.perg.next (storeLine (settingsAt c c.perg.next) line.tag made)
    canAssemble c = true → made.perg.recent = line :: rest →
    exec (.stitchedLineAssembly t) s = .next (s.put (
      if kept.modes.base = .relay then viewLine { line, mask := line.columns.map fun _ => 0 } kept else kept))) ∧
  (∀ (s : State) (t : Nat) (lane : Fin 16) (m : Nat),
    let c := s.tick t
    let counted := satAdd 0x0206 (32 * (lane : Nat) + 16) lane 32 (vget c.lane lane).linesLost 1 c
    laneMapped c lane = true → ((List.range 5).map (c.perg.next + ·)).find? (fun m => decide (m < c.trig.number) && !settled c lane m) = some m →
    exec (.pergolaWaitExpiry t lane) s = .next (s.put
      { modLane lane (fun x => { x with linesLost := counted.1 }) counted.2 with
        perg := { counted.2.perg with expired := counted.2.perg.expired ++ [((lane : Nat), m)] } })) ∧
  (∀ (s : State) (t : Nat) (seam : Fin 16) (pc pm : Int) (conf : Nat),
    let c := s.tick t
    let x := getSeam c seam
    let nm := c.perg.next / 1024 * 1024 - 1
    let at_ := x.positionAt nm
    let counted := satAdd 0x0705 (16 + 16 * (seam : Nat) + 8) seam 32 x.measurements 1 c
    let z := seamSettings c seam nm
    let cleared := modSeam seam (fun s => { s with
      sums := [], possible := 0, taints := s.taints.filter fun m => decide (nm < m), measurements := counted.1 }) counted.2
    x.sums ≠ [] → 1024 ≤ c.perg.next → (c.perg.next % 1024 = 0 ∨ z.inWindow c.perg.next = false) → z.track = true →
    x.possible ≤ 2 * (x.sums.getD 76 {}).n → (∀ m ∈ x.taints, nm < m ∨ m + 2 ^ z.corrLinesLog2 < nm + 1) →
    { x with textureMin := z.textureMin }.measure at_.1 at_.2 = (some (pc, pm), conf) →
    exec (.seamMeasurement t seam) s = .next (s.put (
      if nm < x.appliedAt then modSeam seam (fun s => { s with confidence := conf }) cleared
      else if conf < z.confThreshold ∨ pc.natAbs = 8 ∨ pm.natAbs = 4 then weakMeasurement seam nm conf cleared
      else goodMeasurement seam nm conf pc pm at_.1 at_.2 z cleared))) ∧
  (∀ (s : State) (t : Nat) (seam : Fin 16) (dc dm : Int) (n : Nat) (measured : Bool),
    let c := s.tick t
    (getSeam c seam).applies.filter (decide <| · ≤ c.perg.next) = [] →
    ((getSeam c seam).next.filter fun y => decide (y.2.2.1 ≤ c.perg.next)).getLast? = some (dc, dm, n, measured) →
    exec (.seamPositionApply t seam) s = .next (s.put (modSeam seam (fun x => { x with
      applies := x.applies.filter (fun m => decide (c.perg.next < m)), dc, dm, next := x.next.filter fun y => !decide (y.2.2.1 ≤ c.perg.next) }) c))) ∧
  (∀ (s : State) (t : Nat) (line : Stitched) (rest : List Stitched),
    let c := s.tick t
    let taken := { c with perg := { c.perg with out := rest } }
    let x := settingsAt taken line.tag.number
    let found := takeDet (c.det.process x (c.modes.base == .inspect) true (c.health.level == 3) line) taken
    pipelineRuns c = true → c.perg.out = line :: rest →
    (c.modes.base = .relay → exec (.detectionLine t) s = .next (s.put taken)) ∧
    (c.modes.base ≠ .relay → exec (.detectionLine t) s =
      .next (s.put (if x.fd ≤ line.tag.number then deliverMask (line.tag.number - x.fd) found else found)))) ∧
  (∀ (s : State) (t : Nat),
    let c := s.tick t
    exec (.streakEvaluation t) s = .next (s.put (takeDet (c.det.evaluate (settingsAt c (c.det.last.getD 0))) c))) ∧
  (∀ (s : State) (t : Nat) (m : MaskLine) (rest : List MaskLine),
    let c := s.tick t
    pipelineRuns c = true → c.det.out = m :: rest → (gangAbove c m.line.tag.number = true → c.gang.exchange.any (fun e => e.1 == m.line.tag.number) = true) →
    exec (.labelLine t) s =
      .next (s.put (pruneOlder (labelMask (settingsAt c m.line.tag.number) m { c with det := { c.det with out := rest } })))) ∧
  (∀ (s : State) (t : Nat) (k : Closed) (rest : List Closed),
    let c := s.tick t
    firstClosed c = some (k, rest) →
    exec (.blobClassify t) s = .next (s.put (releaseModel (pruneOlder (emitRecord k { c with carry := { c.carry with closed := rest } }))))) ∧
  (∀ (s : State) (t : Nat) (roll : Fin 8) (n : Nat) (xs : List (Option RollSample)) (x : RollSample),
    let c := s.tick t
    c.rotunda.samples.find? (fun s => decide (s.1 < c.perg.next)) = some (n, xs) → sampleOf c n roll = some x →
    exec (.rotundaSweep t roll) s = .next (s.put { c with rotunda := { c.rotunda with cells := c.rotunda.cells.filter fun y =>
      !(y.roll == (roll : Nat) && decide (2 ≤ revsBehind x.rev16 y.last) && decide (revsBehind x.rev16 y.last < 32768)) } }))

/-- Events of the output rings and of the spare engine: records, tiles, the interrupt hold-off, shadow periods, faults and self-tests: rules
R136, R137, R138, R144, R203, R209. -/
def Obligations.OutputAndSpareEvents : Prop :=
  (∀ (s : State) (t : Nat) (r : Rec) (rest : List Rec),
    let c := s.tick t
    let taken := placeGap { c with records := { c.records with queue := rest } }
    let written := ringPut taken.records.ring r.data taken.records.queue.length taken.records.droppedTotal taken
    let after := { written.2 with records := { written.2.records with ring := written.1 } }
    c.records.queue = r :: rest → c.records.ring.enabled = true → c.records.ring.full = false → hostWrites c = true → waitsForTile c r = false →
    exec (.recordRingWrite t) s = .next (s.put (if r.gap = 0 then after else raise 0x0504 3 0x7F (le 4 r.gap ++ le 8 r.id) after))) ∧
  (∀ (s : State) (t : Nat) (j : TileJob) (rest : List TileJob),
    let c := s.tick t
    c.tiles.jobs = j :: rest → j.fromLookback = false → tileRingOpen c = true → tileEngine c j = true →
    exec (.tileWrite t) s = .next (s.put (writeTile j true c))) ∧
  (∀ (s : State) (t : Nat) (inTime : Bool) (errors : List ReadError) (j : TileJob) (rest : List TileJob),
    let c := s.tick t
    c.tiles.jobs = j :: rest → j.fromLookback = true → tileRingOpen c = true → (inTime = true → tileEngine c j = true) →
    ∃ (k : TileJob) (found : Bool), exec (.lateTileDelivery t inTime errors) s = .next (s.put (writeTile k found (takeReads errors c))) ∧
      (found = true → inTime = true) ∧ k.size = j.size ∧ k.c0 = j.c0 ∧ k.n0 = j.n0 ∧ k.pixels.length = j.size * j.size) ∧
  (∀ (s : State) (t : Nat) (channel : Fin 33) (r : Ring),
    let c := s.tick t
    r.holdoffOver c.now = true →
    (channel = 32 → c.evq.ring = r → ∀ (sent : Chip), sent = signalVector 1 c →
      exec (.irqHoldoffExpiry t channel) s = .next (s.put { sent with evq := { sent.evq with ring := { r with sinceIrq := 0, signalBy := none } } })) ∧
    (channel ≠ 32 → ringOf c channel = some r → exec (.irqHoldoffExpiry t channel) s =
      .next (s.put (signalVector (2 + channel) (modRing channel (fun r => { r with sinceIrq := 0, signalBy := none }) c))))) ∧
  (∀ (s : State) (t : Nat) (l sp : Nat),
    let c := s.tick t
    c.engines.spare = some sp → triggering c = true → replaying c = false → c.engines.shadow = none → c.engines.interrupted = none →
    nextShadowLane c c.engines.lastLane = some l →
    exec (.shadowPeriodStart t) s = .next (s.put { c with engines := { c.engines with
      shadow := some (l, 256 * ((firstOwed c l + 255) / 256)), lastLane := some l, interrupted := none, confirming := false, copy := none, blocks := [] } })) ∧
  (∀ (s : State) (t block upset working spare l first sp : Nat),
    let c := s.tick t
    let taken := modEngines (fun e => { e with blocks := e.blocks.filter fun b => b.1 != block }) c
    c.engines.shadow = some (l, first) → c.engines.spare = some sp → block % 256 = 0 → first ≤ block → block < first + 2 ^ 20 →
    blockProcessed c l block = true → ((c.engines.blocks.find? fun b => b.1 == block).map (·.2)).getD (0xFFFFFFFF, 0xFFFFFFFF) = (working, spare) →
    (Nat.xor working (upset % 2 ^ 32) = spare → exec (.shadowBlockCompare t block upset) s =
      .next (s.put (modEngines (fun e => { e with mismatched := setBit e.mismatched l false }) taken))) ∧
    (Nat.xor working (upset % 2 ^ 32) ≠ spare →
      let moved := takeover l (if c.engines.confirming then 2 else 1) c.perg.next taken
      exec (.shadowBlockCompare t block upset) s = .next (s.put (modEngines (fun e => { e with
          mismatched := setBit e.mismatched l true
          testing := e.testing.map fun x => if x.lane = l ∧ bit c.engines.mismatched l then { x with cause := 2 } else x })
        (raise 0x0501 2 l (le 1 l ++ le 1 ((vget c.engines.binding l).getD 0xFF) ++ le 1 sp ++ [0] ++ le 8 block) moved))))) ∧
  (∀ (s : State) (t : Nat) (engines : List (Fin 17)),
    let c := s.tick t
    let es := engines.map Fin.val
    let spareFirst := es.filter fun e => c.engines.spare == some e
    let byLane := (List.range 16).filterMap fun l => (vget c.engines.binding l).filter es.contains
    exec (.engineFault t engines) s = .next (s.put ((spareFirst ++ byLane).foldl (fun c e => engineFault e c) c))) ∧
  (∀ (c : Chip) (engine l : Nat),
    c.engines.spare ≠ some engine → engineLane c engine = some l → bit c.engines.withheld l = false →
    engineFault engine c = takeover l 0 (firstOwed c l) c) ∧
  (∀ (c : Chip) (engine : Nat),
    let out := modEngines (fun x => { x with spare := none, testing := x.testing ++ [{ engine, lane := 0xFF, cause := 3 }] }) (interruptShadow c)
    c.engines.spare = some engine → engineFault engine c = { out with orangery := { out.orangery with
      jobs := out.orangery.jobs.map fun x => if x.replay && x.running then { x with preempted := true } else x } }) ∧
  (∀ (s : State) (t : Nat) (engine : Fin 17) (passed : Bool) (x : UnderTest),
    let c := s.tick t
    let ended := modEngines (fun y => { y with testing := y.testing.filter fun z => z.engine != (engine : Nat) }) c
    c.engines.testing.find? (fun x => x.engine == (engine : Nat)) = some x →
    (passed = true → x.cause ≠ 1 → x.cause ≠ 2 → exec (.engineSelfTestDone t engine passed) s =
      .next (s.put (newSpare engine (takeoverEvent x.lane engine 0xFF 4 ended.trig.number ended)))) ∧
    (passed = false ∨ x.cause = 2 → exec (.engineSelfTestDone t engine passed) s = .next (s.put (
      takeoverEvent x.lane engine 0xFF 5 ended.trig.number
        (modEngines (fun y => { y with retired := setBit y.retired engine true }) ended)))))

/-- Events of the Orangery, the views and the compression engines: blocks written and flushed, jobs started and done, frames, sender
reports, compression jobs: rules R246, R247, R254, R255, R265, R267, R292, R296. -/
def Obligations.HistoryViewAndCompressionEvents : Prop :=
  (∀ (s : State) (t : Nat) (b : Block) (rest : List Block),
    let c := s.tick t
    let gone := modOrangery (fun o => { o with staging := rest }) c
    let taken := writerFill (stagingUsed gone.orangery) gone
    c.orangery.staging = b :: rest →
    exec (.orangeryBlockWrite t false) s = .next (s.put (dropBlock b taken)) ∧
    ∀ (es : List Nat) (placed : Chip), placeBytes (b.bytes / extentBytes + 2) b.bytes [] taken = some (es, placed) →
      exec (.orangeryBlockWrite t true) s = .next (s.put (pinPlaced b es (modOrangery (fun o => { o with
        blocks := { b with extents := es } :: o.blocks
        writtenLog := (placed.now, b.bytes, Block.rawBytes b) :: o.writtenLog.filter fun w => decide (placed.now < w.1 + 1000000000) }) placed)))) ∧
  (∀ (s : State) (t : Nat),
    let c := s.tick t
    quietFor (c.orangery.flushMs * 1000000) c = true → exec (.orangeryFlushTimeout t) s = .next (s.put ((List.range 16).foldl (fun c l =>
      match blockInProgress c.orangery l with
      | some b => stageBlock b (modOrangery (fun o => { o with building := vset o.building l [] }) c)
      | none => c) c))) ∧
  (∀ (s : State) (t : Nat) (j : LbJob),
    let c := s.tick t
    let flushed := flushFor j c
    (c.orangery.jobs.filter (·.running)).length < 4 → mode c ≠ 3 → lodgeRestarts c = false → jobInTurn c = some j →
    (j.replay = true →
      let r := interruptShadow flushed
      let k := if rd j.request 24 4 = 0 then r else replayConfig (replayEntries j r) r
      exec (.lookbackJobStart t) s = .next (s.put (modJob j.id (fun j => { j with
        running := true, det := some (replayDet r j k.det)
        carryCfg := (k.carry.planeSelect, k.carry.segmentLinesLog2, k.carry.minArea) }) r))) ∧
    (∀ ch, j.replay = false → jobChannel flushed j = some ch → exec (.lookbackJobStart t) s =
      .next (s.put (modJob j.id (fun j => { j with running := true, channel := some ch }) (takeChannel ch 4 flushed))))) ∧
  (∀ (s : State) (t job : Nat) (errors : List ReadError) (j : LbJob),
    let c := s.tick t
    let told := takeReads errors c
    c.orangery.jobs.find? (fun j => j.id == job && j.running) = some j →
    (j.replay = true → c.health.level = 0 ∨ j.preempted = true →
      exec (.lookbackJobDone t job errors) s = .next (s.put (replayEnds j (errors.any fun e => e.hit == .model && readFails e) told))) ∧
    (j.replay = false → hostWrites c = true → exec (.lookbackJobDone t job errors) s = .next (s.put (retrieve j told)))) ∧
  (∀ (s : State) (t : Nat) (stream : Fin 4),
    let c := s.tick t
    let v := vget c.view stream
    let rows := v.rows.take v.cfg.frameHeight
    v.started = true → viewModes c = true → c.health.level = 0 →
    (v.cfg.delivery = 0 → v.ring.enabled = true → v.ring.full = false → hostWrites c = true →
      let header := frameHeader stream v rows c
      let planes := planeBytes v.cfg (·.grey) rows.reverse ++ (if v.cfg.overlay then planeBytes v.cfg (·.overlay) rows.reverse else [])
      let written := ringPut v.ring (header.1 ++ planes) 0 v.dropped header.2
      exec (.frameEmit t stream true true none) s = .next (s.put { written.2 with view := vset written.2.view stream { v with
        ring := written.1, frameNumber := v.frameNumber + 1, lastRow := ((rows.head?).map (·.r)).or v.lastRow } })) ∧
    (v.cfg.delivery = 0 → v.ring.enabled = false ∨ v.ring.full = true ∨ hostWrites c = false → exec (.frameEmit t stream true true none) s = .next (s.put (dropFrame stream 0 c))) ∧
    (∀ mac : Nat, v.cfg.delivery ≠ 0 → destMac c v.cfg = some mac →
      let sent := sendPackets stream (v.cfg.delivery - 1) mac (rtpTime c) (framePackets v.cfg rows.reverse) c
      exec (.frameEmit t stream true true none) s = .next (s.put { sent with view := vmod sent.view stream fun v => { v with
        frameNumber := v.frameNumber + 1, lastRow := ((rows.head?).map (·.r)).or v.lastRow } })) ∧
    (v.cfg.delivery ≠ 0 → destMac c v.cfg = none →
      exec (.frameEmit t stream true true none) s = .next (s.put (dropFrame stream 1 (arpRequest v.cfg c)))) ∧
    (v.cfg.delivery ≠ 0 → (destMac c v.cfg).isSome = true → exec (.frameEmit t stream true false none) s = .next (s.put (dropFrame stream 1 c))) ∧
    exec (.frameEmit t stream false true none) s = .next (s.put (dropFrame stream 3 c)) ∧
    (∀ e : ReadError, readFails { e with hit := .rows } = true →
      exec (.frameEmit t stream true true (some e)) s = .next (s.put (dropFrame stream 3 (takeRead false 0xFFFF { e with hit := .rows } c)))) ∧
    (∀ mac : Nat, v.cfg.delivery ≠ 0 → destMac c v.cfg = some mac → exec (.rtcpSenderReport t stream) s = .next (s.put (emit
      (.eth (v.cfg.delivery - 1) 1 (ethTo c (v.cfg.delivery - 1) mac v.cfg.destIp (v.cfg.destPort + 1)) ([0x80, 200, 0, 6] ++ be 4 v.ssrc ++
        be 4 ((((sunNs c / 1000000000 : Nat) : Int) - c.life.totals.utcOffset + 2208988800) % 2 ^ 32).toNat ++
        be 4 (sunNs c % 1000000000 * 2 ^ 32 / 1000000000) ++ be 4 (rtpTime c) ++ be 4 v.packets ++ be 4 v.octets)) c)))) ∧
  (∀ (s : State) (t : Nat) (j : ZipJob) (e ch : Nat),
    let c := s.tick t
    let heads := ([zipHead c false, zipHead c true].filterMap id).filter fun j => (zipEngine c j).isSome && (zipChannel c j).isSome
    c.health.level = 0 → mode c ≠ 3 → lodgeRestarts c = false → heads = [j] → zipEngine c j = some e → zipChannel c j = some ch →
    exec (.zipJobStart t) s = .next (s.put (modZip j.id (fun j => { j with state := 1, engine := e, channel := ch }) (takeChannel ch 5 c)))) ∧
  (∀ (s : State) (t : Nat) (a b : ZipJob) (e ch : Nat),
    let c := s.tick t
    let first := if c.zip.jobs.idxOf a ≤ c.zip.jobs.idxOf b then a else b
    c.health.level = 0 → mode c ≠ 3 → lodgeRestarts c = false → zipHead c false = some a → zipHead c true = some b →
    (zipEngine c a).isSome = true → (zipChannel c a).isSome = true → (zipEngine c b).isSome = true → (zipChannel c b).isSome = true →
    zipEngine c first = some e → zipChannel c first = some ch →
    exec (.zipJobStart t) s = .next (s.put (modZip first.id (fun j => { j with state := 1, engine := e, channel := ch }) (takeChannel ch 5 c)))) ∧
  (∀ (s : State) (t job n : Nat) (source : List Byte) (hwFault : Bool) (j : ZipJob),
    let c := s.tick t
    let e := runZip j (sliceB source 0 j.sourceLength)
    c.zip.jobs.find? (fun j => j.id == job && j.state == 1) = some j → hostWrites c = true → (hwFault = false ∨ j.coder = true) →
    e.junk = false → e.consumed = some n →
    exec (.zipJobDone t job source hwFault) s = .next (s.put (zipFinish { j with
      status := e.status, error := e.error, consumed := n, output := e.output.length, errorBit := e.errorBit } (writeData j.dest e.output (emit (.hostRead j.source (32 * ceilDiv j.sourceLength 32)) c)))))

/-- Events of the marking heads and the axes: firing, the end of a move, hold current, stalls, driver faults, limit switches, chatter,
homing; and the hysteresis chopper of a winding, sample by sample: rules R318, R323, R325, R326, R327, R328, R329, R330, R337. -/
def Obligations.MotionEvents : Prop :=
  (∀ (s : State) (t : Nat) (head : Fin 4) (m : Mark) (rest : List Mark),
    let c := s.tick t
    let y := vget c.mark.heads head
    let taken := modHead head (fun z => { z with queue := rest }) c
    y.queue = m :: rest → inspecting c = true → y.cfg.enable = true → m.fireMd ≤ (mdNow c : Int) →
    exec (.markFire t head) s = .next (s.put (towardFirst head
      (if inPosition taken y.cfg m.target then fireHead head m taken else missMark head 6 0 m taken)))) ∧
  (∀ (s : State) (t : Nat) (axis : Fin 4),
    let c := s.tick t
    let stopped := modAxis axis (fun x => { x with
      profile := none, position := x.target, standstillAt := c.now, state := if x.state = .moving then .idle else x.state }) c
    (vget c.axis axis).profile.isSome = true → (vget c.axis axis).ended c.now = true → (vget c.axis axis).state ≠ .homing →
    (headOn stopped axis = none → exec (.axisMoveComplete t axis) s = .next (s.put stopped)) ∧
    (∀ h, headOn stopped axis = some h →
      exec (.axisMoveComplete t axis) s = .next (s.put (if marking stopped then towardFirst h stopped else stopped)))) ∧
  (∀ (s : State) (t : Nat) (axis : Fin 4),
    let c := s.tick t
    (vget c.axis axis).profile = none →
    (vget c.axis axis).standstillAt + (vget c.axis axis).cfg.holdDelayMs * 1000000 ≤ c.now → ((vget c.axis axis).state = .idle ∨ (vget c.axis axis).state = .unreferenced) →
    exec (.axisHoldDelay t axis) s = .next (s.put (modAxis axis (fun x => { x with current := .hold }) c))) ∧
  (∀ (s : State) (t : Nat) (axis : Fin 4),
    let c := s.tick t
    let x := vget c.axis axis
    let told := axisStallEvent axis 0 (countStall axis c)
    x.cfg.encoder ≠ 0xFF → x.stalled c = true → x.state ≠ .disabled → x.state ≠ .fault →
    ((∀ h, x.homing = some h → h.reference ≠ 0 ∨ h.backingOff = true) →
      exec (.axisStall t axis) s = .next (s.put (modAxis axis (fun x => { x with faultKeeps := false })
        (axisFault axis 0 (x.state == .homing) (modAxis axis (fun x => x.freeze told.now .hold) told))))) ∧
    (∀ h, x.homing = some h → h.reference = 0 → h.backingOff = false →
      exec (.axisStall t axis) s = .next (s.put (homeReference axis c)))) ∧
  (∀ (s : State) (t : Nat) (axis : Fin 4),
    let c := s.tick t
    let told := axisStallEvent axis 1 (countStall axis c)
    let off (x : Axis) : Axis := { x with current := .off, en := false, windingA := {}, windingB := {} }
    exec (.axisDriverFault t axis) s = .next (s.put (
      if (vget told.axis axis).state = .homing then modAxis axis off (homeFails axis 4 told)
      else axisFault axis 0 false (modAxis axis (fun x => off (x.freeze told.now .off)) told)))) ∧
  (∀ (s : State) (t : Nat) (axis : Fin 4) (positive : Bool),
    let c := s.tick t
    let x := vget c.axis axis
    let seen := modAxis axis (fun x => x.setSwitch positive true) c
    let v := (x.kin c.now).v
    gpLive c (x.switch positive) = true →
    exec (.switchStateAccepted t axis positive true) s = exec (.limitSwitch t axis positive) s ∧
    exec (.switchStateAccepted t axis positive false) s = .next (s.put (modAxis axis (fun x => x.setSwitch positive false) c)) ∧
    (x.homing = none → x.state ≠ .fault → ((positive = true ∧ 0 < v) ∨ (positive = false ∧ v < 0)) →
      exec (.limitSwitch t axis positive) s = .next (s.put (axisFault axis 1 true
        (axisLimitEvent axis 0 (b2n positive) (modAxis axis (fun x => x.halt c.now true) seen))))) ∧
    (x.homing = none → (x.state = .fault ∨ (positive = true ∧ v ≤ 0) ∨ (positive = false ∧ 0 ≤ v)) →
      exec (.limitSwitch t axis positive) s = .next (s.put seen)) ∧
    (∀ h, x.homing = some h → exec (.limitSwitch t axis positive) s = .next (s.put (
      if h.reference = (if positive then 2 else 1) then homeReference axis seen
      else homeFails axis 2 (axisLimitEvent axis 1 (b2n positive) seen)))) ∧
    (∀ transitions, x.state ≠ .disabled → 8 < transitions →
      let told := raise 0x0B02 3 axis (le 1 axis ++ le 1 (b2n positive) ++ le 1 (satU 8 transitions) ++ [0] ++ posBytes axis c) c
      exec (.switchChatter t axis positive transitions) s = .next (s.put (
        if x.state = .homing then homeFails axis 3 told else axisFault axis 2 false (modAxis axis (fun x => x.halt told.now true) told))))) ∧
  (∀ (s : State) (t : Nat) (axis : Fin 4) (h : Homing),
    let c := s.tick t
    let x := vget c.axis axis
    let m := x.kin c.now
    let at_ : Kin := { p := h.homePosition, v := if h.reference = 0 then 0 else m.v, a := if h.reference = 0 then 0 else m.a }
    let target := satS 48 (h.homePosition + (if h.positive then -(h.backoff : Int) else h.backoff))
    x.homing = some h → x.state = .homing →
    (h.backingOff = false →
      (h.reference = 0 → x.stalled c = true → exec (.homeReference t axis) s = .next (s.put (modAxis axis (fun x => { x with
        referenced := true, encRef := h.homePosition, countRef := if x.cfg.encoder = 0xFF then 0 else (vget c.enc x.cfg.encoder).count
        countAt := c.now, insideAt := c.now
        position := h.homePosition, target, homing := some { h with backingOff := true }
        profile := some { start := c.now, p := at_.p, v := at_.v, a := at_.a, segs := planMove ((h.velocity : Rat) / 65536) x.cfg.aMax x.cfg.jMax at_ target } }) c))) ∧
      (h.reference = 0 → x.stalled c = false → exec (.homeReference t axis) s = .next (s.put c)) ∧
      (h.reference ≠ 0 → exec (.homeReference t axis) s = .next (s.put (switchAsserted axis (h.reference == 2) c))) ∧
      (h.maxTravel ≤ (x.pos c.now - h.origin).natAbs → exec (.homeMaxTravel t axis) s = .next (s.put (homeFails axis 1 c)))) ∧
    (h.backingOff = true → x.ended c.now = true → exec (.homeBackoffDone t axis) s = .next (s.put (homeDone axis 0 (modAxis axis (fun x => { x with
      state := .idle, homing := none, profile := none, position := x.target, standstillAt := c.now, phaseRetained := false }) c))))) ∧
  (∀ (w : Winding) (a : AxisCfg) (target : Int) (sensed now : Nat), (target ≠ 0 → w.positive = decide (0 < target)) → w.reversedAt ≤ now →
    let u := w.sample a target sensed now
    (target = 0 → u.drive = false ∧ (w.drive = false → u = w)) ∧
    (target ≠ 0 → now < w.edgeAt + a.blankNs → u = w) ∧
    (target ≠ 0 → w.edgeAt + a.blankNs ≤ now →
      (w.drive = true → w.upper a target ≤ (sensed : Int) → u.drive = false ∧ u.edgeAt = now ∧
        (a.fastDecay = false → u.pins a now = (false, false)) ∧
        (a.fastDecay = true → u.pins a (now + 40) = (decide (target < 0), decide (0 < target)))) ∧
      (w.drive = false → (sensed : Int) ≤ w.lower a target → u.drive = true ∧ u.edgeAt = now ∧
        u.pins a (now + 40) = (decide (0 < target), decide (target < 0))) ∧
      (w.drive = true → (sensed : Int) < w.upper a target → u = w) ∧ (w.drive = false → w.lower a target < (sensed : Int) → u = w)))

/-- Events of the Sundial, PTP, the Ethernet ports, the pulse outputs and the capture inputs: rules R344, R348, R349, R350, R351, R354,
R355, R357, R358, R360, R362, R363, R369. -/
def Obligations.TimeEvents : Prop :=
  (∀ (s : State) (t : Nat) (port : Fin 2) (m : PtpMessage),
    let c := s.tick t
    let stamped := if m.messageType < 4 then stamp (vget c.time.eth port).ingressLatencyPs c else ((vget c.time.eth port).rxTimestamp / 65536, c)
    let taken := modEth port (fun e => { e with
      rxTimestamp := stamped.1 * 65536, requestTimestamp := if m.messageType = 2 then stamped.1 * 65536 else e.requestTimestamp
      syncReceived := if m.messageType = 0 then wrapU 32 (e.syncReceived + 1) else e.syncReceived }) stamped.2
    let announced := selectMaster (modEth port (fun e => { e with announceAt := c.now, master := some (grandmasterOf m) }) taken)
    ptpRuns c port m.domain = true →
    (ptpAccepts c port m = false → exec (.ptpMessageReceived t port m) s = .next (s.put c)) ∧
    (ptpAccepts c port m = true → m.messageType ≠ 0xB → exec (.ptpMessageReceived t port m) s = .next (s.put taken)) ∧
    (ptpAccepts c port m = true → m.messageType = 0xB →
      ((vget taken.time.eth port).master = none ∨ ∃ g, (vget taken.time.eth port).master = some g ∧
        (g.sender = (grandmasterOf m).sender ∨ (grandmasterOf m).better g = true)) →
      exec (.ptpMessageReceived t port m) s = .next (s.put (
        if (vget announced.time.eth port).portState = 9 then
          refreshUtc (modEth port (fun e => { e with utc := if m.utcValid then some m.utcOffset else none }) announced)
        else announced))) ∧
    (∀ g, ptpAccepts c port m = true → m.messageType = 0xB → (vget taken.time.eth port).master = some g → g.sender ≠ (grandmasterOf m).sender →
      (grandmasterOf m).better g = false → exec (.ptpMessageReceived t port m) s = .next (s.put taken))) ∧
  (∀ (s : State) (t : Nat) (port : Fin 2) (messageType sequence domain : Nat),
    let c := readTimestamps port (s.tick t)
    let header := le 1 messageType ++ le 1 domain ++ be 2 sequence
    let send (body : List Byte) (c : Chip) : Chip := emit (.eth port 4 (ptpTo c port messageType) (header ++ body)) c
    let stamped := stamp (vget c.time.eth port).egressLatencyPs c
    ptpRuns c port domain = true →
    (4 ≤ messageType → followed messageType = none → exec (.ptpMessageTransmit t port messageType sequence domain) s = .next (s.put (send [] c))) ∧
    (∀ first, 4 ≤ messageType → followed messageType = some first →
      (∀ x ∈ (vget c.time.eth port).owed, x.matches first sequence domain = false) →
      exec (.ptpMessageTransmit t port messageType sequence domain) s = .next (s.put c)) ∧
    (∀ first x rest, 4 ≤ messageType → followed messageType = some first → (vget c.time.eth port).owed = x :: rest → x.matches first sequence domain = true →
      exec (.ptpMessageTransmit t port messageType sequence domain) s =
        .next (s.put (send (be 6 x.s ++ be 4 x.ns) (modEth port (fun e => { e with owed := rest }) c)))) ∧
    (messageType < 4 → leavesNoEntry stamped.2 messageType = true → exec (.ptpMessageTransmit t port messageType sequence domain) s =
      .next (s.put (emit (.eth port 4 (ptpTo stamped.2 port messageType) (oneStepFrame stamped.2 port messageType
        (header ++ oneStepBytes messageType stamped.1 (vget stamped.2.time.eth port).requestTimestamp))) stamped.2))) ∧
    (messageType < 4 → leavesNoEntry stamped.2 messageType = false → (vget stamped.2.time.eth port).txts.length < 16 →
      exec (.ptpMessageTransmit t port messageType sequence domain) s = .next (s.put (modEth port (fun e => { e with
        txts := e.txts ++ [{ sequence := sequence % 65536, messageType := messageType % 16, domain
                             s := (max 0 stamped.1).toNat / 1000000000, ns := (max 0 stamped.1).toNat % 1000000000, frac := 0 }]
        txtsPeak := max e.txtsPeak (e.txts.length + 1) }) (send [] stamped.2))))) ∧
  (∀ (s : State) (t : Nat) (port : Fin 2) (ip mac : Nat) (data : List Byte),
    let c := s.tick t
    let e := vget c.time.eth port
    e.enable = true → e.linkUp = true →
    exec (.ethFrameReceived t port (.arpRequest e.ipv4 ip mac)) s =
      .next (s.put (emit (.eth port 2 (ethTo c port mac ip 0) (be 2 2 ++ be 6 (portMac c port) ++ be 4 e.ipv4 ++ be 6 mac ++ be 4 ip)) c)) ∧
    exec (.ethFrameReceived t port (.icmpEcho e.ipv4 ip mac data)) s = .next (s.put (emit (.eth port 3 (ethTo c port mac ip 0) data) c)) ∧
    exec (.ethFrameReceived t port (.arpReply ip mac)) s = .next (s.put (modEth port (fun e => { e with
      arp := ((ip, mac) :: e.arp.filter fun y => y.1 != ip).take 64 }) c)) ∧
    exec (.ethFrameReceived t port (.rtcp data)) s = .next (s.put c) ∧
    exec (.ethFrameReceived t port .other) s = .next (s.put c)) ∧
  (∀ (s : State) (t : Nat) (offset : Int) (k : Nat),
    let ps := offset * 1000 - (vget (s.tick t).time.eth k).delayAsymmetryPs
    let taken := modEth k (fun e => { e with offsetFromMaster := divNearest (ps * 65536) 1000 }) (s.tick t)
    slavePort (s.tick t) = some k →
    exec (.servoOffsetSample t offset) s = .next (s.put (if taken.time.servo.source = 1 then takeOffset (divNearest ps 1000) taken else taken))) ∧
  (∀ (s : State) (t : Nat) (port : Fin 2) (mean : Int),
    let counted := modEth port (fun e => { e with delayExchanges := wrapU 32 (e.delayExchanges + 1) }) (s.tick t)
    let sampled (c : Chip) : Chip :=
      let aged := modServo (fun x => { x with withheld := x.withheld.map fun y => (y.1, y.2 + 1) }) c
      releaseOffsets aged.time.servo.withheld.length aged
    slavePort (s.tick t) = some (port : Nat) → lodgeRestarts (s.tick t) = false →
    ((vget counted.time.eth port).mAvg = none → exec (.pathDelaySample t port mean) s =
      .next (s.put (sampled (modEth port (fun e => { e with mAvg := some (mean * 65536) }) counted)))) ∧
    (∀ a, (vget counted.time.eth port).mAvg = some a → ((mean * 65536 - a).natAbs : Int) ≤ (counted.time.servo.pathStepNs : Int) * 65536 →
      let outlier := satAdd 0x0A03 48 port 32 (vget counted.time.eth port).pathOutliers (b2n (vget counted.time.eth port).suspect.isSome) counted
      exec (.pathDelaySample t port mean) s = .next (s.put (sampled (modEth port (fun e => { e with
        mAvg := some (a + (mean * 65536 - a) / 16), suspect := none, pathOutliers := outlier.1 }) outlier.2))))) ∧
  (∀ (s : State) (t h : Nat),
    let c := s.tick t
    let ended := modServo (fun x => { x with holdUntil := none }) c
    c.time.servo.holdUntil = some h → h ≤ c.now → lodgeRestarts c = false →
    exec (.pathHoldExpiry t) s = .next (s.put (enterServo .acquiring ended))) ∧
  (∀ (s : State) (t : Nat),
    let c := s.tick t
    c.time.servo.source = 2 →
    exec (.ppsInEdge t c.time.servo.ppsFalling) s = .next (s.put c) ∧
    exec (.ppsInEdge t !c.time.servo.ppsFalling) s = .next (s.put (takeOffset
      ((((sunNs c % 1000000000 : Nat) : Int) - c.time.servo.ppsInOffsetNs + 500000000) % 1000000000 - 500000000)
      (sourceBack (modServo (fun x => { x with lastPps := some c.now }) c)))) ∧
    ((∀ x, c.time.servo.lastPps = some x → x + 1500000000 ≤ c.now) → exec (.ppsInLost t) s = .next (s.put (sourceLost c)))) ∧
  (∀ (s : State) (t : Nat),
    let c := s.tick t
    c.time.sun.freqRef = 1 →
    exec (.ref10mLoss t) s = .next (s.put (ptpState 2 0xFF 1 2 (modTime (fun x => { x with sun := { x.sun with freqRef := 2 } }) c)))) ∧
  (∀ (s : State) (t : Nat),
    let c := s.tick t
    c.time.servo.ppsOutEnable = true → sunNs c % 1000000000 ≤ 4 → (∀ x, c.time.servo.ppsOutUntil = some x → x ≤ c.now) →
    exec (.ppsOutEdge t) s = .next (s.put (emit (.ppsOut (c.time.servo.ppsOutWidthMs * 1000000))
      (modServo (fun x => { x with ppsOutUntil := some (c.now + x.ppsOutWidthMs * 1000000) }) c)))) ∧
  (∀ (s : State) (t : Nat) (output : Fin 8),
    let c := s.tick t
    let p := vget c.time.pulse output
    (pulsesRun c = true → (p.state = .armed ∨ p.state = .running) → boundaryReached c p = true → p.inPulse = false →
      exec (.pulseBoundary t output) s = .next (s.put (
        if p.mode % 2 = 0 then modPulse output (fun p => { p with state := .done }) (firePulse output c)
        else modPulse output (fun p => ({ p with state := .running } : Pulse).goOn (p.k + 1)) (firePulse output c)))) ∧
    (p.mode % 2 = 1 → pulsesRun c = true → (p.state = .armed ∨ p.state = .running) → boundaryReached c p = true → p.inPulse = true →
      p.rejectLate = false → exec (.pulseBoundary t output) s =
        .next (s.put (modPulse output (fun p => ({ p with state := .running } : Pulse).goOn (p.k + 1)) c))) ∧
    (let ended := emit (.pulse output p.activeLow) (modPulse output (fun p => { p with inPulse := false }) c)
     p.inPulse = true → p.endsAt ≤ c.now → (p.mode % 2 = 1 ∧ p.rejectLate = false ∨ p.emitted ≠ 0) → exec (.pulseWidthEnd t output) s =
      .next (s.put (match headOfOutput ended output with
        | some h => if marking ended then towardFirst h ended else ended
        | none => ended)))) ∧
  (∀ (s : State) (t : Nat) (input : Fin 4) (rising : Bool) (held : Nat),
    let c := s.tick t
    let x := vget c.time.capture input
    let seen := modCapture input (fun x => { x with lastEdge := some c.now }) c
    let error := freeInt (-131072) 262144 seen
    let total := (max 0 ((sunTotal error.2.time.sun error.2.now / 65536 : Nat) + error.1)).toNat
    let data := captureBytes input rising x.ring.head total (mdNow error.2)
    let counted := modCapture input (fun x => { x with captured := wrapU 32 (x.captured + 1) }) error.2
    x.glitchSamples ≤ held → pulsesRun seen = true → bit x.edges (if rising then 0 else 1) = true → (∀ e, x.lastEdge = some e → e + 16 ≤ c.now) →
    (x.ring.enabled = true → x.ring.full = false → hostWrites counted = true →
      exec (.captureEdge t input rising held) s = .next (s.put (modCapture input (fun y => { y with ring := (ringPut x.ring data 0 x.dropped counted).1 })
        (ringPut x.ring data 0 x.dropped counted).2))) ∧
    (x.ring.enabled = false ∨ x.ring.full = true ∨ hostWrites counted = false →
      exec (.captureEdge t input rising held) s = .next (s.put (
        modCapture input (fun y => { y with dropped := (satAdd 0x0A00 (136 + 16 * (input : Nat)) input 32 x.dropped 1 counted).1 })
          (satAdd 0x0A00 (136 + 16 * (input : Nat)) input 32 x.dropped 1 counted).2)))) ∧
  (∀ (s : State) (t : Nat) (port : Fin 2) (up : Bool),
    let c := s.tick t
    exec (.ethLinkChange t port up) s = .next (s.put (followSlave (slavePort c)
      (modEth port (fun e => { e with linkUp := up && !c.modes.thermalHalt && !c.modes.lockdown }) c)))) ∧
  (∀ (s : State) (t : Nat) (port : Fin 2),
    let c := s.tick t
    (vget c.time.eth port).portState ∈ [4, 7, 8, 9] → announceMissing c port = true → lodgeRestarts c = false →
    let gone := modEth port (fun e => { e with master := none }) c
    exec (.announceReceiptTimeout t port) s = .next (s.put (selectMaster (setPortState port (allowedState gone port 6) gone))))

/-- Events of the auxiliary inputs: modulator samples, overload, tone blocks, the ring entry of a slow channel: rules R372, R378, R389,
R390. -/
def Obligations.AuxiliaryEvents : Prop :=
  (∀ (s : State) (t : Nat) (ch : Fin 8) (new : List Bool),
    let c := s.tick t
    let a := vget c.aux.ch ch
    let samples := a.cycles (a.early ++ new)
    let watched := auxWatch ch new c
    let before := { vget watched.aux.ch ch with early := [] }
    let ran := Aux.run samples before
    auxRuns c = true → a.enable = true → samples ≠ [] →
    exec (.auxOutputSample t ch new) s =
      .next (s.put (ran.1.foldl (fun d y => auxDeliver ch y.1 y.2 (muxCycle before d)) (modAux ch (fun _ => ran.2) watched)))) ∧
  (∀ (s : State) (t : Nat) (ch : Fin 8) (samples : List Bool),
    let c := s.tick t
    let kept (d : Chip) : Chip := modAux ch (fun a => { a with early := a.early ++ samples }) d
    auxRuns c = true → (vget c.aux.ch ch).enable = true →
    (c.aux.run = none → exec (.auxOverloadChange t ch samples) s = .next (s.put (kept (modAux ch (fun a => samples.foldl Aux.watch a) c)))) ∧
    (∀ r, c.aux.run = some r →
      let judged := Aux.watchAll (samplesSince c r.startAt) samples (vget c.aux.ch ch)
      let seen := modAux ch (fun _ => judged.2) c
      exec (.auxOverloadChange t ch samples) s = .next (s.put (kept (if judged.1 ∧ bit r.mask ch = true then
        { seen with aux := { seen.aux with run := some { r with capture := vmod r.capture ch fun x => { x with overloaded := true } } } }
      else seen))))) ∧
  (∀ (a : Aux) (b : Bool),
    let run := if a.equal ≠ 0 ∧ b = a.lastBit then a.equal + 1 else 1
    (a.watch b).lastBit = b ∧ (a.watch b).equal = run ∧ (64 ≤ run → (a.watch b).overload = true ∧ (a.watch b).quiet = 0) ∧
    (run < 64 → (a.watch b).quiet = a.quiet + 1 ∧ ((a.watch b).overload = true ↔ (a.overload = true ∧ a.quiet + 1 < 1024)))) ∧
  (∀ (s : State) (t : Nat) (d : Fin 2),
    let c := s.tick t
    let x := vget c.aux.tone d
    let xs := x.samples.reverse
    let found := toneOf x.frequencyMhz (vget c.aux.ch x.channel).decimation (xs.take x.blockLength)
    let magnitude := satU 32 found.1
    let on := if x.on then decide (x.offThreshold ≤ magnitude) else decide (x.onThreshold ≤ magnitude)
    let measured := modTone d (fun y => { y with
      samples := (xs.drop x.blockLength).reverse, on, phase := found.2 % 65536, magnitude, blocks := wrapU 32 (x.blocks + 1) }) c
    x.enable = true → x.blockLength ≠ 0 → x.blockLength ≤ x.samples.length →
    exec (.toneBlockEnd t d) s = .next (s.put (if on = x.on then measured else
      raise 0x0C01 1 d (le 1 d ++ le 1 (b2n on) ++ le 2 (found.2 % 65536) ++ le 4 magnitude ++ le 4 (wrapU 32 (x.blocks + 1))) measured))) ∧
  (∀ (s : State) (t : Nat) (ch : Fin 8),
    let c := s.tick t
    let a := vget c.aux.ch ch
    let flags := packBits [a.current == 1, a.fade.isSome, a.entry.any fun v => v == codeMax || v == -codeMax, a.overload]
    let data := le 1 ch ++ le 1 flags ++ le 1 a.entry.length ++ [0] ++ le 4 a.entrySequence ++ timeBytes a.entryS a.entryNs ++
      fit 12 (a.entry.flatMap (leS 3)) ++ [0, 0]
    let taken := modAux ch (fun a => { a with entry := [] }) c
    a.entryAt + 1000000 ≤ c.now → a.entry ≠ [] →
    (c.aux.ring.enabled = true → c.aux.ring.full = false → hostWrites c = true →
      exec (.auxRingEntryTimeout t ch) s = .next (s.put { (ringPut taken.aux.ring data 0 taken.aux.dropped taken).2 with
        aux := { (ringPut taken.aux.ring data 0 taken.aux.dropped taken).2.aux with ring := (ringPut taken.aux.ring data 0 taken.aux.dropped taken).1 } })) ∧
    (c.aux.ring.enabled = false ∨ c.aux.ring.full = true ∨ hostWrites c = false →
      exec (.auxRingEntryTimeout t ch) s = .next (s.put { taken with aux := { taken.aux with dropped := satU 32 (taken.aux.dropped + 1) } })))

/-- Events of the gang: tags, the follower's trigger, link latency, loss and health, formation, what a neighbour sends: rules R394, R396,
R400, R402, R407. -/
def Obligations.GangEvents : Prop :=
  (∀ (s : State) (t : Nat) (tag : Tag) (pitch : Option (Nat × Nat)),
    let c := s.tick t
    let g := c.gang
    let joins := g.joinsAt tag
    let ports := match if joins then g.leaderAt else g.partitionLeader with
      | some q => g.portsFrom q (if joins then 2 ^ g.cfg.size - 1 else g.members)
      | none => []
    joins = true ∨ (g.formed = true ∧ g.role = 1) →
    exec (.sarecTagReceived t tag pitch) s = .next (s.put (sendSarec ports 0 (tagMessage tag pitch) { c with gang := { g with
      tags := g.tags ++ [tag]
      pitches := match pitch with
        | some (n, d) => g.pitches ++ [(tag.number, n, d)]
        | none => g.pitches } }))) ∧
  (∀ (s : State) (t : Nat) (tag : Tag) (rest : List Tag),
    let c := s.tick t
    let taken := modGang (fun g => { g with tags := rest, pitches := g.pitches.filter fun y => y.1 != tag.number }) c
    let numbered := renumber tag.number taken
    let listed := { numbered with trig := { numbered.trig with leaderTags := (tag.number :: numbered.trig.leaderTags).take 256 } }
    let aligned := alignMd false tag none listed
    c.gang.tags = tag :: rest → triggering c = true → c.gang.formed = true → c.gang.role ≠ 0 → c.gang.joinsAt tag = false →
    (∀ y ∈ c.gang.pitches, y.1 ≠ tag.number) →
    exec (.followerTrigger t) s = .next (s.put (afterTrigger tag.number (applyDue false tag (sendTrigger tag.number 0 (pushTag tag aligned)))))) ∧
  (∀ (s : State) (t : Nat) (link : Fin 2) (ns retried : Nat),
    let c := s.tick t
    let counted := satAdd 0x0F01 24 0 32 c.gang.framesRetried retried c
    c.gang.portUp link = true →
    exec (.sarecLatencyMeasure t link ns retried) s =
      .next (s.put (modGang (fun g => { g with latency := vset g.latency link (satU 32 ns), framesRetried := counted.1 }) counted.2))) ∧
  (∀ (s : State) (t : Nat) (link : Fin 4),
    let down := modGang (fun g => { g with links := vset g.links link false }) (s.tick t)
    let left := Nat.land down.gang.reachable down.gang.members
    let up := modGang (fun g => { g with links := vset g.links link true }) (s.tick t)
    let counted := satAdd 0x0F01 20 0 32 down.gang.splits 1 down
    let split := modGang (fun g =>
      let g := { g with members := left, state := .island, splits := counted.1, lastSplitTrigger := counted.2.trig.number, joinMd := none }
      { g with role := g.roleNow }) counted.2
    (down.gang.cfg.usesLink link = false ∨ down.gang.formed = false → exec (.sarecLinkLost t link) s = .next (s.put down)) ∧
    (down.gang.cfg.usesLink link = true → down.gang.formed = true → left ≠ down.gang.members →
      exec (.sarecLinkLost t link) s = .next (s.put (gangSplit 0 split))) ∧
    (down.gang.cfg.usesLink link = true → down.gang.state = .joined → left = down.gang.members →
      exec (.sarecLinkLost t link) s = .next (s.put down)) ∧
    (up.gang.state ≠ .island → exec (.sarecLinkHealthy t link) s = .next (s.put up)) ∧
    (up.gang.state = .island → (∀ b, b < up.gang.cfg.size → up.gang.cfg.usesLink b = true → vget up.gang.links b = true) →
      (up.gang.cfg.autoRejoin = false ∨ up.gang.leaderAt ≠ some up.gang.cfg.position) →
      exec (.sarecLinkHealthy t link) s = .next (s.put (modGang (fun g => { g with state := .rejoining }) up)))) ∧
  (∀ (s : State) (t : Nat) (nodes : List Nat) (encoders : Nat) (overlaps : List Nat),
    let c := s.tick t
    let g := c.gang
    let formed := { g with
      nodes := nodes.map (· % 256), encoders := setBit encoders g.cfg.position g.cfg.localEncoder, overlaps, nodeConflict := false, leaderNode := nodes.foldl min 255, members := 2 ^ g.cfg.size - 1
      state := .joined, links := vmapIdx (fun b up => up || g.cfg.usesLink b) g.links }
    g.state = .forming → sarecRuns c = true → nodes.length = g.cfg.size →
    (nodes.eraseDups.length = nodes.length →
      exec (.gangForm t nodes encoders overlaps) s = .next (s.put { c with trig := { c.trig with pitchDue := true }, gang := { formed with role := formed.roleNow } })) ∧
    (nodes.eraseDups.length ≠ nodes.length → exec (.gangForm t nodes encoders overlaps) s = .next (s.put (gangSplit 2
      { c with gang := { g with nodeConflict := true, state := .notGanged, members := g.cfg.self, role := 0 } })))) ∧
  (∀ (s : State) (t line pitch count position offset md : Nat) (pixels : List (Option Nat)) (column0 : Int) (blobs : List (Blob × Bool)),
    let c := s.tick t
    let g := c.gang
    1 < g.cfg.size →
    exec (.gangExchangeReceived t (.samples line pixels column0 pitch)) s = .next (s.put { c with gang := { g with
      samples := ((line, pixels) :: g.samples.filter fun y => y.1 != line).take 256
      gridsAbove := noteGrid line (column0, pitch) g.gridsAbove } }) ∧
    exec (.gangExchangeReceived t (.lowerGrid line column0 pitch count)) s = .next (s.put { c with gang := { g with
      gridsBelow := noteGrid line (column0, pitch, count) g.gridsBelow } }) ∧
    exec (.gangExchangeReceived t (.runs line blobs)) s = .next (s.put { c with gang := { g with
      exchange := (g.exchange.filter fun y => y.1 != line) ++ [(line, blobs)] } }) ∧
    exec (.gangExchangeReceived t (.viewOffset position offset)) s = .next (s.put (sendSarec (offsetPorts g) 3 (offsetMessage position offset)
      { c with gang := { g with viewOffsets := (position, offset) :: g.viewOffsets.filter fun y => y.1 != position } })) ∧
    exec (.gangExchangeReceived t (.join md)) s =
      .next (s.put (if g.state = .rejoining then tellJoin { c with gang := { g with joinMd := some md } } else c)))

/-- Events of the DRAM channels and the SRAM patrol: refresh, activation limits, tracking, retraining, speed change, scrubbing: rules R417,
R421, R424, R425, R426, R431, R506. -/
def Obligations.MemoryArrayEvents : Prop :=
  (∀ (s : State) (t : Nat) (ch : Fin 4) (rank : Fin 2) (left : Nat),
    let c := s.tick t
    dramRuns c ch = true → (rank : Nat) < (vget c.dram.ch ch).ranks →
    exec (.dramRefresh t ch rank left) s = .next (s.put (modCh ch (fun d => { d with owed := vset d.owed rank (owedAfter d rank) })
      (belvedereFill (min left c.dram.belvedereUsed) c)))) ∧
  (∀ (was : Bool) (used size : Nat), (3 * size < 4 * used → panics was used size = true) ∧ (2 * used < size → panics was used size = false) ∧
    (size ≤ 2 * used → 4 * used ≤ 3 * size → panics was used size = was)) ∧
  (∀ (s : State) (t : Nat) (ch : Fin 4) (bank row activations : Nat) (requester : Fin 6),
    let c := s.tick t
    let d := vget c.dram.ch ch
    let counts := (List.replicate 6 0).set requester activations
    let limits := decide (2 ≤ (requester : Nat)) && !d.throttled.contains (bank, (requester : Nat))
    let issued := satAdd 0x0D05 32 ch 32 d.rfmIssued (1 + (activations - 2048) / 512) c
    let throttled := satAdd 0x0D05 36 ch 32 d.throttleEvents (b2n limits) issued.2
    dramRuns c ch = true → 2048 < activations → (∀ a ∈ d.activations, a.bank ≠ bank) →
    exec (.dramActivationLimit t ch bank [(row, counts)]) s = .next (s.put (modCh ch (fun d => { d with
      rfmIssued := issued.1, throttleEvents := throttled.1, activations := d.activations ++ [{ bank, row, counts }]
      throttled := if limits then d.throttled ++ [(bank, (requester : Nat))] else d.throttled }) throttled.2))) ∧
  (∀ (s : State) (t : Nat) (ch : Fin 4), exec (.dramRefreshWindowEnd t ch) s =
    .next (s.put (modCh ch (fun d => { d with activations := [], throttled := [] }) (s.tick t)))) ∧
  (∀ (s : State) (t : Nat), ∃ u, exec (.dramZqCalibration t) s = .next u ∧ u.chip.dram = s.chip.dram ∧ u.host = s.host ∧ u.bulk = s.bulk ∧
    u.chip = s.tick t) ∧
  (∀ (s : State) (t : Nat) (ch : Fin 4) (directions : List Int),
    let c := s.tick t
    let boot := c.dram.bootSpeed
    backgroundRuns c = true → dramRuns c ch = true → panicking c ch = false →
    exec (.dramDqsTracking t ch directions) s = .next (s.put (modCh ch (fun d => ((directions.take 10).zip (List.range 10)).foldl (fun d x =>
      let d := DramChannel.modLane boot x.2 (LaneTraining.track (if 0 < x.1 then 1 else if x.1 < 0 then -1 else 0)) d
      if 8 ≤ (d.lane boot x.2).moved.natAbs then d.request x.2 2 else d) d) c))) ∧
  (∀ (s : State) (t : Nat) (ch : Fin 4) (eyePs eyeSteps centre : Nat) (first : Retrain) (q : List (Nat × Nat)),
    let c := s.tick t
    let d := vget c.dram.ch ch
    let r : Retrain := { first with runs := (eyePs, eyeSteps, centre) :: first.runs }
    dramRuns c ch = true →
    ((d.training = some first ∧ d.queue = q) ∨ (d.training = none ∧ first.runs = [] ∧ d.queue = (first.lane, first.cause) :: q)) →
    (trainingResult c.now d.temperature (d.lane c.dram.bootSpeed first.lane) r.runs = none → exec (.dramRetrainStep t ch eyePs eyeSteps centre) s =
      .next (s.put (modCh ch (fun d => { d with training := some r, queue := q }) c))) ∧
    (∀ x, trainingResult c.now d.temperature (d.lane c.dram.bootSpeed first.lane) r.runs = some x → exec (.dramRetrainStep t ch eyePs eyeSteps centre) s =
      .next (s.put (retrainEnds ch first.lane first.cause x (modCh ch (fun d => { d with training := none, queue := q }) c))))) ∧
  (∀ (s : State) (t : Nat) (ch : Fin 4) (v : Nat) (rest : List Nat),
    let c := s.tick t
    let changed := modCh ch (fun d => { d with speed := v, training := none, queue := (List.range 10).map fun l => (l, 3) }) c
    c.dram.switching = some (v, (ch : Nat) :: rest) →
    (rest ≠ [] → exec (.dramSpeedSwitch t ch) s = .next (s.put (modDram (fun d => { d with switching := some (v, rest) }) changed))) ∧
    (rest = [] → c.dram.pendingSpeed = none → exec (.dramSpeedSwitch t ch) s =
      .next (s.put (modDram (fun d => { d with switching := none, pendingSpeed := none }) changed)))) ∧
  (∀ (s : State) (t : Nat) (ch : Fin 4) (e : ReadError) (device : Fin 10) (permille : Nat) (extent : Option Nat) (rewritten : Bool),
    let c := s.tick t
    let place := 10 * (e.group : Nat) + device
    let counted := raiseLimited 0x0D06 1 ch ch ([0] ++ le 1 ch ++ le 1 place ++ [0] ++ le 4 0 ++ le 4 e.row) 4 4 false 1 (correctOne ch place c)
    backgroundRuns c = true → dramRuns c ch = true → panicking c ch = false →
    (outcomeOf e = .corrected device →
      exec (.dramPatrolScrub t ch [e] extent rewritten permille) s =
        .next (s.put (modCh ch (fun d => { d with scrubPermille := min 1000 permille }) counted))) ∧
    (outcomeOf e = .clean → exec (.dramPatrolScrub t ch [e] extent rewritten permille) s =
      .next (s.put (modCh ch (fun d => { d with scrubPermille := min 1000 permille }) c))) ∧
    exec (.dramPatrolScrub t ch [] extent rewritten permille) s =
      .next (s.put (modCh ch (fun d => { d with scrubPermille := min 1000 permille }) c))) ∧
  (∀ (s : State) (t : Nat) (ch : Fin 4) (permille x : Nat) (e : ReadError) (rewritten : Bool),
    let told := modCh ch (fun d => { d with scrubPermille := min 1000 permille }) (uncorrectable true x { e with ch } (s.tick t))
    backgroundRuns (s.tick t) = true → dramRuns (s.tick t) ch = true → panicking (s.tick t) ch = false → outcomeOf e = .uncorrectable →
    exec (.dramPatrolScrub t ch [e] (some x) rewritten permille) s = .next (s.put (if rewritten then retireExtent ch 0xFF x told else told))) ∧
  (∀ (s : State) (t : Nat) (w : SramWord),
    let c := s.tick t
    let row := (SramHit.pool w.hit, w.row)
    let corrected := sramCorrect (SramHit.pool w.hit) w.addr c
    backgroundRuns c = true → (w.flipped.filter (· < 72)).eraseDups.length = 1 →
    exec (.sramScrub t [w]) s = .next (s.put (
      if corrected.supply.rowsOnce.contains row then modSupply (fun x => { replaceRow x with rowsOnce := [] }) corrected
      else modSupply (fun x => { x with rowsOnce := [row] }) corrected)))

/-- Events of health, supply and the life record: housekeeping, grace, supply excursions, journal, telemetry: rules R489, R495, R503, R504,
R508, R509, R513. -/
def Obligations.HealthAndLifeEvents : Prop :=
  (∀ (s : State) (t : Nat) (r : Round),
    let c := s.tick t
    let counted := satAdd 0x0D00 14 0 16 c.health.roundsDiscarded 1 c
    let taken := if r.references then modHealth (fun h => { h.convert r.die with railMv := vmapIdx (fun m v => r.rails.getD m v) h.railMv }) c
      else modHealth (fun h => { h.convert h.sensors.toList with roundsDiscarded := counted.1 }) counted.2
    let told := ((List.range 24).filter fun n => vget taken.health.failed n && !vget c.health.failed n).foldl (fun d n => sensorFailEvent c.health n d) taken
    let judged := dramRound r.dram told
    let level := thresholds (if judged.health.failed.toList.all id then enterHalt judged else judged)
    let kept := modHealth (fun h => { h with
      levelFloor := if h.pinnedBits = c.health.pinnedBits then h.levelFloor else max h.levelFloor h.level
      high := if h.rounds = 0 then h.dieTemp else max h.high h.dieTemp, low := if h.rounds = 0 then h.dieTemp else min h.low h.dieTemp }) level
    let totals := agingRound (hoursRound (cycleRound kept))
    exec (.housekeepingRound t r) s = .next (s.put { totals with health := { totals.health with
      rounds := totals.health.rounds + 1, roundAt := totals.now
      registers := hkRegisters (modHealth (fun h => { h with rounds := h.rounds + 1, roundAt := totals.now }) totals) } })) ∧
  (∀ (s : State) (t : Nat),
    let c := s.tick t
    let h := c.health
    h.state = .grace → h.graceEnd ≤ h.roundAt →
    (h.request.value ≤ h.dieTemp → exec (.graceTimeExpiry t) s = .next (s.put (changeLevel 0 (modHealth Health.enforce c)))) ∧
    (h.dieTemp < h.request.value → exec (.graceTimeExpiry t) s = .next (s.put { c with health := { h with state := .spent } }))) ∧
  (∀ (s : State) (t : Nat) (monitor : Fin 32) (lowest durationUs : Nat),
    let c := s.tick t
    let warn (kind duration : Nat) (c : Chip) : Chip := raise 0x0D05 2 monitor
      (le 1 monitor ++ le 1 (railOf monitor) ++ le 1 kind ++ [0] ++ le 2 (satU 16 lowest) ++ le 2 (satU 16 duration) ++ le 4 0) c
    let boot := satAdd 0x0D00 144 0 32 c.supply.dipsSinceBoot 1 c
    let life := satAdd 0x0D03 28 0 32 c.life.totals.supplyDips 1 boot.2
    let dips := life.2.now :: life.2.supply.dipTimes.filter fun t => decide (life.2.now < t + 1000000000)
    exec (.supplyExcursionSustained t monitor lowest) s = .next (s.put (warn 1 10000 { c with supply := { c.supply with
      lastExcursion := c.now, outside := c.supply.outside.filter (· != monitor.val) ++ [monitor.val] } })) ∧
    exec (.supplyOver t monitor lowest durationUs) s = .next (s.put (warn 2 durationUs { c with supply := { c.supply with lastExcursion := c.now } })) ∧
    (dips.length ≤ 16 → exec (.supplyDip t monitor lowest durationUs) s = .next (s.put (warn 0 durationUs
      (modTotals (fun y => { y with supplyDips := life.1 }) (modSupply (fun x => { x with
        dipsSinceBoot := boot.1, dipTimes := dips, lastDip := some life.2.now, lastExcursion := life.2.now, held := true
        outside := x.outside.filter (· != monitor.val) }) life.2)))))) ∧
  (∀ (s : State) (t : Nat), s.chip.supply.outside = [] → s.chip.supply.lastExcursion + 100000000 ≤ t → exec (.supplyHoldEnd t) s =
    .next (s.put { s.tick t with supply := { s.chip.supply with held := false } })) ∧
  (∀ (s : State) (t last : Nat), s.chip.supply.unstable = true → s.chip.supply.lastDip = some last → last + 10000000000 ≤ t →
    ∃ (m low duration : Nat) (drawn : Chip), m < 32 ∧ drawn = { s.tick t with fresh := s.chip.fresh + 3 } ∧
      exec (.supplyUnstableClear t) s = .next (s.put (raise 0x0D05 2 m
        (le 1 m ++ le 1 (railOf m) ++ le 1 4 ++ [0] ++ le 2 (satU 16 low) ++ le 2 (satU 16 duration) ++ le 4 0)
        { drawn with supply := { drawn.supply with unstable := false } }))) ∧
  (∀ (s : State) (t : Nat),
    let c := s.tick t
    let h := c.health
    exec (.lifeSummary t) s = .next (s.put (modHealth (fun h => { h with high := h.dieTemp, low := h.dieTemp })
      (journalAdd 0 0 ((totalsBytes c).take 40 ++ leS 1 (h.high / 16) ++ leS 1 (h.low / 16)) c))) ∧
    exec (.lifeCheckpoint t) s = .next (s.put ((List.range 6).foldl (fun d i => journalAdd 3 i (sliceB (totalsBytes c) (42 * i) 42) d) c))) ∧
  (∀ (s : State) (t : Nat) (e : JournalEntry) (taken : Chip),
    let c := s.tick t
    let bytes := journalBytes e taken.life.nextSequence
    let next := wrapU 32 (taken.life.nextSequence + 1)
    c.supply.held = false → firmwareRuns c = true → nextEntry c = some (e, taken) →
    exec (.lifeJournalWrite t) s = .next (s.put (emit (.flashWrite 1 bytes) (emit (.flashWrite 0 bytes) { taken with life := { taken.life with
      nextSequence := next, areaA := (bytes :: taken.life.areaA).take (65408 + next % 64), areaB := (bytes :: taken.life.areaB).take (65408 + next % 64) } })))) ∧
  (∀ (s : State) (t : Nat),
    let c := s.tick t
    let told := raise 0x0103 0 0x7F
      (leS 2 c.health.dieTemp ++ le 1 c.health.level ++ le 1 (mode c) ++ le 4 (conditions c) ++ le 4 (satU 32 c.life.recordsLastS)) c
    let quiet (c : Chip) : Chip := { c with life := { c.life with
      telemetrySequence := wrapU 32 (c.life.telemetrySequence + 1), linesLastS := 0, recordsLastS := 0 } }
    (c.life.telemetryEvent = false → c.life.ring.enabled = false → exec (.telemetry t) s = .next (s.put (quiet c))) ∧
    (c.life.telemetryEvent = false → c.life.ring.enabled = true → c.life.ring.full = false → hostWrites c = true →
      let w := ringPut c.life.ring (snapshot c) 0 0 c
      exec (.telemetry t) s = .next (s.put (quiet { w.2 with life := { w.2.life with ring := w.1 } }))) ∧
    (c.life.telemetryEvent = true → told.life.ring.enabled = false → exec (.telemetry t) s = .next (s.put (quiet told))))

/-- Events of security: tamper sources, challenges, sessions, lockout, debug access: rules R518, R519, R520, R524, R526, R530. -/
def Obligations.SecurityEvents : Prop :=
  (∀ (s : State) (t : Nat) (source : Fin 9),
    let c := s.tick t
    let action := vget c.sec.actions source
    let counted := satAdd 0x0E05 (4 + 4 * (source : Nat)) 0 32 (vget c.sec.counts source) 1 c
    let seen := modSec (fun s => { s with asserted := vset s.asserted source true, counts := vset s.counts source counted.1 }) counted.2
    let acted := tamperActs action seen
    vget c.sec.asserted source = false →
    (raisesEvents acted = true → exec (.tamperAssert t source true) s = .next (s.put (
      let told := tamperEvent source 1 (if action = 2 then 0xFF else 0) acted
      if action = 0 then told else enterLockdown told))) ∧
    ((source : Nat) ≠ 6 → (source : Nat) ≠ 7 → exec (.tamperAssert t source false) s =
      .next (s.put (modSec (fun s => { s with unreported := s.unreported ++ [(source : Nat)] }) acted)))) ∧
  (∀ (s : State) (t : Nat) (source : Fin 9) (powered : Bool),
    let quiet := modSec (fun s => { s with asserted := vset s.asserted source false }) (s.tick t)
    vget s.chip.sec.asserted source = true →
    exec (.tamperClear t source powered) s = .next (s.put (if powered then tamperEvent source 0 0 quiet else quiet))) ∧
  (∀ (s : State) (t : Nat) (mb : Fin 8) (unlock : Bool),
    let c := s.tick t
    challengeOf c unlock mb = none →
    exec (.sessionChallengeExpiry t mb unlock) s = .next (s.put { c with sec :=
      if unlock then { c.sec with unlockChallenges := vset c.sec.unlockChallenges mb none }
      else { c.sec with challenges := vset c.sec.challenges mb none } })) ∧
  (∀ (s : State) (t : Nat) (mb : Fin 8) (x : Session),
    let c := s.tick t
    vget c.sec.sessions mb = some x → x.lastCommand + x.idleS * 1000000000 ≤ c.now →
    exec (.sessionIdleTimeout t mb) s = .next (s.put (endSession mb 3 c))) ∧
  (∀ (s : State) (t u : Nat),
    let c := s.tick t
    c.sec.lockoutUntil = some u → u ≤ c.now →
    exec (.proofLockoutEnd t) s = .next (s.put { c with sec := { c.sec with lockoutUntil := none } })) ∧
  (∀ (s : State) (t : Nat),
    let c := s.tick t
    (vget c.sec.fuses 4).fused ≠ 1 →
    ∃ u, exec (.debugAccessOpen t true) s = .next u ∧ u.chip.sec.debugOpen = true ∧ u.chip.sec.sealed_ = true ∧
      (∃ e, u.chip.mbx.audit = c.mbx.audit ++ [e] ∧ e.cls = 3 ∧ e.status = 0) ∧
      u.chip.sec.fuses = c.sec.fuses ∧ u.chip.sec.keys = c.sec.keys)

/-- Events of modes, calibration and the Lodge: condition reports, the drain, calibration phases and their time-out, lockstep recovery,
checkpoints, activation, the self-test of CONFIGURE: rules R104, R111, R383, R482, R484, R532, R536, R537, R545. -/
def Obligations.ModeCalibrationAndLodgeEvents : Prop :=
  (∀ (s : State) (t : Nat),
    let c := s.tick t
    let new := primaryOf c
    let m := c.modes
    m.boot = .done → firmwareRuns c = true →
    (new = m.primary → conditions c % 32 = m.reportedConditions → exec (.modeConditionReport t) s = .next (s.put c)) ∧
    (new = m.primary → conditions c % 32 ≠ m.reportedConditions → exec (.modeConditionReport t) s = .next (s.put (raise 0x0100 1 0x7F
      (le 1 new ++ le 1 new ++ le 1 c.health.level ++ [0] ++ le 4 (conditions c) ++ zeros 4)
      { c with modes := { m with reportedConditions := conditions c % 32 } }))) ∧
    (new ≠ m.primary → exec (.modeConditionReport t) s = .next (s.put (raise 0x0100 (if new = 11 ∨ new = 12 then 4 else 1) 0x7F
      (le 1 m.primary ++ le 1 new ++ le 1 c.health.level ++ [0] ++ le 4 (conditions c) ++ zeros 4)
      { c with modes := { m with primary := new, reportedConditions := conditions c % 32, previous := m.primary, since := c.now } })))) ∧
  (∀ (s : State) (t mb : Nat) (target : Base),
    let c := s.tick t
    let closed := abortArmed (mappedPorts .streaming .ready (writeStaged (closeAllBlobs
      (if c.modes.base = .relay then c else spoilSeams c))))
    c.modes.change = .drain target mb → drained c = true →
    exec (.modeExitDrainComplete t) s = .next (s.put (changeDone mb (
      if target = .standby then enterStandby closed else modModes (fun m => { m with base := target }) (relockedReady closed))))) ∧
  (∀ (s : State) (t mb failed : Nat) (runs : List (Nat × Nat × List (Nat × Nat × Nat))), s.chip.modes.change = .selfTest mb →
    exec (.configureSelfTestDone t failed runs) s = .next (s.put (changeDone mb (enterConfigure failed runs (s.tick t))))) ∧
  (∀ (s : State) (t : Nat) (r : CalRun),
    let c := s.tick t
    let lanes := setBits 16 (rd r.request 0 2)
    let old := ((resultOf c r.resultId).map (·.lanes)).getD []
    let measured := lanes.map (geoLane c r)
    let new := if r.kind = 1 then measured.map (geoNeighbours c (geoCfgOf r.request) measured)
      else if r.phase = 0 then lanes.map (darkLane c r)
      else old.map fun x => if lanes.contains x.lane then brightLane c r x else x
    let verdict := verdictOf new
    let held := modResult r.resultId (fun x => { x with
      lanes := new, verdict, status := calStatus verdict
      runState := if r.kind = 0 ∧ r.phase = 0 ∧ calStatus verdict = stOk then 1 else 2
      columnCount := if r.kind = 1 then columnsNeeded c (geoCfgOf r.request) new else x.columnCount }) c
    c.cal.run = some r →
    (calComplete c r = true → exec (.calPhaseDone t) s = .next (s.put
      (calDone r.resultId r.kind r.phase (calStatus verdict) verdict (runOver held)))) ∧
    (r.deadline ≤ c.now →
      let ended := modResult r.resultId (fun x => { x with runState := 2, status := stTimeout, verdict := Nat.lor x.verdict 0 }) c
      exec (.calTimeout t) s = .next (s.put (calDone r.resultId r.kind r.phase stTimeout
        (((resultOf ended r.resultId).map (·.verdict)).getD 0) (runOver ended))))) ∧
  (∀ (s : State) (t : Nat) (r : AuxRun),
    let c := s.tick t
    let ks := setBits 8 r.mask
    let judged := ks.foldl (fun d k =>
      let x := auxResult r (vget r.capture k) (vget d.aux.cal k) d
      { x.2 with aux := { x.2.aux with cal := vset x.2.aux.cal k x.1 } }) { c with aux := { c.aux with run := none } }
    let verdict := ks.foldl (fun v k => Nat.lor v (vget judged.aux.cal k).verdict) 0
    c.aux.run = some r → (∀ k ∈ ks, (if r.external then 1 else 2) * 2 ^ r.avgLog2 ≤ (vget r.capture k).count) →
    exec (.calAuxDone t) s = .next (s.put (calDone 0 2 r.phase (calStatus verdict) verdict (
      if r.apply = true ∧ verdict = 0 ∧ (r.external = false ∨ r.phase ≠ 0) then
        ks.foldl (fun d k => modAux k (fun a => { a with nextCorrection := some ((vget d.aux.cal k).offset, (vget d.aux.cal k).gain) }) d) judged
      else judged)))) ∧
  (∀ (s : State) (t : Nat) (heights : List Nat) (r : LinksRun),
    let c := s.tick t
    let judged := r.judgePorts c
    c.cal.links = some r → r.running = true → r.startedAt + r.durationS * 1000000000 ≤ c.now →
    let one (i : Nat) (x : LinkCal) : LinkCal :=
      if bit judged.portMask (i / 4) && decide (i % 4 < (vget c.port (i / 4)).links) then ({ x with eyeHeightMv := heights.getD i 0 } : LinkCal).judged judged
      else x
    exec (.calLinksDone t heights) s = .next (s.put (calLinksEnd { judged with links := judged.links.mapIdx one } c))) ∧
  (∀ (s : State) (t start : Nat),
    let c := s.tick t
    let n := satU 32 (c.modes.recoveryCount + 1)
    let over_ := lodgeBack { c with modes := { c.modes with notReady := .no, recoveryCount := n } }
    (c.modes.notReady = .lockstep start → exec (.lockstepRecovery t true) s = .next (s.put (raise 0x0D0A 2 0x7F
      (le 4 (satU 32 ((over_.now - start) / 1000)) ++ le 1 (busyMailboxes over_).length ++ [0, 0, 0] ++ le 4 n) over_))) ∧
    (firmwareRuns c = true →
      let recent := c.now :: c.modes.recoveries.filter fun t => decide (c.now < t + 60000000000)
      (recent.length < 4 → exec (.lockstepRecovery t false) s = .next (s.put { c with modes := { c.modes with
        recoveries := recent, notReady := .lockstep c.now } })) ∧
      (4 ≤ recent.length → ∃ u, exec (.lockstepRecovery t false) s = .next u ∧ u.chip.modes.notReady = .activation c.now ∧
        u.chip.modes.recoveries = [] ∧ u.chip.fw.activating = none) ∧
      exec (.lodgeCheckpoint t) s = .next (s.put { c with modes := { c.modes with checkpointAt := c.now } }))) ∧
  (∀ (s : State) (t at_ : Nat),
    let c := s.tick t
    (c.modes.notReady = .activationPending → (∀ mb : Fin 8, ∀ j, (vget c.mbx.mb mb).job = some j → j.waiting = true) →
      ∀ ok, exec (.fwActivationRestart t true ok) s = .next (s.put { c with modes := { c.modes with notReady := .activation c.now } })) ∧
    (∀ b, c.modes.notReady = .activation at_ → c.fw.activating = some b →
      let over_ := lodgeBack (endSessions { c with modes := { c.modes with notReady := .no }, fw := { c.fw with activating := none } })
      exec (.fwActivationRestart t false true) s =
          .next (s.put (recordActivation (fwReady 1 { over_ with fw := { over_.fw with running := b } }))) ∧
        exec (.fwActivationRestart t false false) s = .next (s.put (fwReady 2 over_))) ∧
    (c.modes.notReady = .activation at_ → c.fw.activating = none →
      exec (.fwActivationRestart t false true) s = .next (s.put (fwReady 1 (lodgeBack { c with modes := { c.modes with notReady := .no } }))) ∧
      exec (.fwActivationRestart t false false) s = .next (s.put { c with modes := { c.modes with lodgeFailed := true } })))

/-- Resets and boot: rules R436, R437, R505, R541, R543. -/
def Obligations.ResetAndBootEvents : Prop :=
  (∀ (s : State) (t : Nat) (bankA bankB : GpBank),
    let c := s.tick t
    exec (.powerOnReset t false bankA bankB) s = .next (s.put { resetAll c with gp := #v[bankA, bankB] }) ∧
    exec (.resetNAssert t) s = .next (s.put (keepHalt c.modes.thermalHalt (modModes (fun m => { m with powerOn := false }) (resetAll c)))) ∧
    ∃ u, exec (.powerOnReset t true bankA bankB) s = .next u ∧ u.chip.gp = #v[bankA, bankB] ∧ u.chip.sec.keys = Vector.replicate 8 none ∧ u.chip.sec.keyGeneration = 0) ∧
  (∀ (s : State) (t : Nat) (monitor : Fin 32),
    let c := s.tick t
    (monitor : Nat) ≠ 31 →
    exec (.supplyReset t monitor) s = .next (s.put (keepHalt (c.modes.thermalHalt && decide (16 ≤ (monitor : Nat)))
      (modSec (fun s => { s with resetCause := some (monitor : Nat) }) (modModes (fun m => { m with powerOn := false }) (resetAll c)))))) ∧
  (∀ (s : State) (t width speed : Nat),
    let c := s.tick t
    c.modes.perstSeen = false →
    ∃ (d : Nat) (started : Chip), d ≤ 20000000 ∧ started = { c with
      fresh := c.fresh + 1
      pcie := trained width speed c.pcie
      sec := { c.sec with fuses := vmapIdx (fun _ (f : Fuse) => { f with inEffect := f.fused }) c.sec.fuses }
      time := { c.time with sun := { c.time.sun with at_ := c.now + d } }
      modes := { c.modes with
        boot := .booting, notReady := .boot c.now, perstSeen := true, perstAt := c.now
        personality := (vget c.sec.fuses 0).fused, nodeId := (vget c.sec.fuses 1).fused } } ∧
      exec (.perstNRise t width speed) s = .next (s.put (emit (.configSpace (pciIdentity started)) started))) ∧
  (∀ (s : State) (t passes : Nat) (dram : List (Option BootDram)),
    let c := s.tick t
    c.modes.boot = .booting →
    (bootBankOf passes c = none → exec (.bootComplete t passes dram) s = .next (s.put (bootRecovery c))) ∧
    (∀ b, bootBankOf passes c = some b → exec (.bootComplete t passes dram) s = .next (s.put (bootRuns b dram c)))) ∧
  (∀ (s : State) (t width speed : Nat) (kind : Fin 4),
    let ended := hostInterfaceReset (s.tick t)
    exec (.hostInterfaceReset t kind width speed) s = .next (s.put { ended with pcie := trained width speed ended.pcie }) ∧
    (width ∈ [1, 2, 4, 8] → speed ∈ [1, 2, 3, 4, 5] → trained width speed ended.pcie = { ended.pcie with linkUp := true, width, speed }) ∧
    (width ∉ [1, 2, 4, 8] ∨ speed ∉ [1, 2, 3, 4, 5] → trained width speed ended.pcie = { ended.pcie with linkUp := false, width := 0, speed := 0 }) ∧
    (∀ mb : Fin 8, (vget ended.mbx.mb mb).owner = false ∧ (vget ended.mbx.mb mb).job = none ∧ (vget ended.mbx.mb mb).ignored = 0) ∧
    ended.mbx.response = 0 ∧ ended.evq.ring.enabled = false ∧ ended.records.ring.enabled = false ∧ ended.tiles.ring.enabled = false ∧
    ended.pcie.msix = Vector.replicate 64 {} ∧ ended.pcie.d3hot = false) ∧
  (∀ (s : State) (t : Nat),
    let c := s.tick t
    exec (.powerStateChange t true) s = .next (s.put { c with pcie := { c.pcie with d3hot := true } }) ∧
    exec (.powerStateChange t false) s = .next (s.put ((List.range 64).foldl (fun c v => releaseVector v c) { c with pcie := { c.pcie with d3hot := false } })))

/-- What the host writes and reads at the host interface, and what the interface does on its own: doorbells, response bits, tails, DMA
channels, latched reads, MSI-X entries, the event ring: rules R203, R438, R439, R446, R448, R451, R459, R460, R467, R554, R588, R590,
R596. -/
def Obligations.HostInterfaceEvents : Prop :=
  (∀ (s : State) (t value : Nat), ∃ u, exec (.mbxResponseWrite t value) s = .next u ∧
    (∀ i, i < 8 → bit u.chip.mbx.response i = (bit s.chip.mbx.response i && !bit value i)) ∧
    u = s.put { s.tick t with mbx := { s.chip.mbx with response := u.chip.mbx.response } }) ∧
  (∀ (s : State) (t : Nat),
    let c := s.tick t
    let v := fromLe (c.mbx.mb.toList.map fun m => BitVec.ofNat 8 m.ignored)
    let cleared := { c with mbx := { c.mbx with mb := vmapIdx (fun _ m => { m with ignored := 0 }) c.mbx.mb } }
    exec (.mbxIgnoredRead t 2) s = .next (s.put (emit (.readData v) cleared)) ∧
    exec (.mbxIgnoredRead t 1) s = .next (s.put (emit (.readData (latchOf c 0x18050)) c)) ∧
    exec (.mbxIgnoredRead t 0) s = .next (s.put (emit (.readData (v % 2 ^ 32)) (setLatch 0x18050 (v / 2 ^ 32) cleared)))) ∧
  (∀ (s : State) (t value : Nat),
    let c := s.tick t
    c.evq.ring.enabled = true →
    (c.evq.ring.accepts (wrapU 32 value) = true → exec (.evqTailWrite t value) s =
      .next (s.put { c with evq := { c.evq with ring := { c.evq.ring with tail := wrapU 32 value } } })) ∧
    (c.evq.ring.accepts (wrapU 32 value) = false → exec (.evqTailWrite t value) s = .next (s.put (dmaError 0x7F 8 0 0 c)))) ∧
  (∀ (s : State) (t : Nat) (ch : Fin 32) (value nextAgain : Nat),
    let c := s.tick t
    let x := vget c.pcie.dma ch
    (x.state ≠ .active → x.state ≠ .owned → exec (.dmaChainWrite t ch value) s =
      .next (s.put (modDma ch (fun x => { x with chain := wrapU 64 value, startWritten := true }) c))) ∧
    (c.modes.lockdown = false → x.state = .owned → exec (.dmaDoorbell t ch nextAgain) s =
      .next (s.put (dmaError ch 7 0 0 (modDma ch (fun x => { x with code := 7, detail := 0 }) c)))) ∧
    (c.modes.lockdown = false → x.state ≠ .owned → x.state ≠ .active → x.startWritten = true → x.chain % 64 ≠ 0 →
      exec (.dmaDoorbell t ch nextAgain) s = .next (s.put (dmaError ch 1 32 x.chain
        (modDma ch (fun x => { x with startWritten := false, state := .halted, code := 1, detail := 32 }) c)))) ∧
    (c.modes.lockdown = false → x.state ≠ .owned → x.state ≠ .active → x.startWritten = true → x.chain % 64 = 0 → exec (.dmaDoorbell t ch nextAgain) s =
      .next (s.put (modDma ch (fun x => { x with
        startWritten := false, startedSinceReset := true, stalledAt := 0, cur := x.chain, state := if x.chain = 0 then .idle else .active }) c))) ∧
    (x.state = .active → exec (.dmaStopRequest t ch) s = .next (s.put (modDma ch (fun x => { x with stopRequested := true, recheck := false }) c))) ∧
    (x.state ≠ .active → exec (.dmaStopRequest t ch) s = .next (s.put (modDma ch (fun x => x) c))) ∧
    (∀ r, ringOf c ch = some r → r.accepts (wrapU 32 value) = true → exec (.dmaTailWrite t ch value) s = .next (s.put
      (modDma ch (fun x => { x with tail := wrapU 32 value }) (modRing ch (fun r => { r with tail := wrapU 32 value }) c)))) ∧
    (∀ r, ringOf c ch = some r → r.accepts (wrapU 32 value) = false → exec (.dmaTailWrite t ch value) s = .next (s.put
      (dmaError ch 8 0 0 (modDma ch (fun x => { x with code := 8, detail := 0 }) c))))) ∧
  (∀ (s : State) (t : Nat) (ch : Fin 32) (desc data : List Byte) (nextAgain lines : Nat),
    let c := s.tick t
    let x := vget c.pcie.dma ch
    let total := rd desc 4 4 * rd desc 32 2
    let fetched := emit (.hostRead x.cur 64) c
    x.state = .active → x.owner = 0 → hostWrites c = true → bit (rd desc 0 4) 0 = true → alignFaults desc = 0 → descriptorFault desc = none →
    (x.stopRequested = false → exec (.dmaDescriptor t ch desc data none nextAgain) s = .next (s.put (advanceChain ch (rd desc 40 8) nextAgain
      (endDescriptor ch desc x.cur 0 0 total (moveBytes desc data s.bulk total fetched))))) ∧
    (∀ f, x.stopRequested = false → transferFails desc f = true → exec (.dmaDescriptor t ch desc data (some f) nextAgain) s =
      .next (s.put (endDescriptor ch desc x.cur f.1 f.2.1 f.2.2 (moveBytes desc data s.bulk f.2.2 fetched)))) ∧
    (∀ f, x.stopRequested = true → exec (.dmaDescriptor t ch desc data f nextAgain) s = .next (s.put (endDescriptor ch desc x.cur 6 0 0 fetched))) ∧
    (x.stopRequested = true → exec (.dmaStopEffect t ch desc data lines) s = .next (s.put (endDescriptor ch desc x.cur 6 0
      (min (rd desc 4 4 * lines) total) (moveBytes desc data s.bulk (min (rd desc 4 4 * lines) total) fetched))))) ∧
  (∀ (s : State) (t : Nat),
    let c := s.tick t
    let total := sunTotal c.time.sun c.now
    let v := total % 2 ^ 32 + total / 2 ^ 32 % 1000000000 * 2 ^ 32
    ∃ (state : Nat) (regs : Regs), regs = { c.regs with sdlSeconds := total / 2 ^ 32 / 1000000000 % 2 ^ 48, sdlState := state } ∧
      exec (.sdlSubsecRead t true) s = .next (s.put (emit (.readData v) { c with regs })) ∧
      exec (.sdlSubsecRead t false) s = .next (s.put (emit (.readData (v % 2 ^ 32)) (setLatch 0x40000 (v / 2 ^ 32) { c with regs })))) ∧
  (∀ (s : State) (t offset : Nat) (part : Fin 4), (part = 3 ∨ offset % 4 ≠ 0) →
    exec (.lowerHalfRead t offset part) s = .next (s.put (emit (.readData 0) (s.tick t)))) ∧
  (∀ (s : State) (t offset : Nat),
    let c := s.tick t
    offset % 8 = 0 → windowOpen c offset = false → offset ≠ 0x18050 → offset ≠ 0x40000 →
    exec (.lowerHalfRead t offset 2) s = .next (s.put (emit (.readData (bar0 c offset)) c)) ∧
    (plainHalves offset = false → exec (.lowerHalfRead t offset 0) s =
        .next (s.put (emit (.readData (bar0 c offset % 2 ^ 32)) (setLatch offset (bar0 c offset / 2 ^ 32) c))) ∧
      exec (.lowerHalfRead t offset 1) s = .next (s.put (emit (.readData (latchOf c offset)) c)))) ∧
  (∀ (s : State) (t : Nat) (vector : Fin 64) (word : Fin 4) (value : Nat),
    let c := s.tick t
    let x := wrapU 32 value
    exec (.msixEntryWrite t vector word value) s = .next (s.put (releaseVector vector { c with pcie := { c.pcie with
      msix := vmod c.pcie.msix vector fun e =>
        if (word : Nat) = 0 then { e with addrLo := x - x % 4 } else if (word : Nat) = 1 then { e with addrHi := x }
        else if (word : Nat) = 2 then { e with data := x } else { e with mask := bit x 0 } } }))) ∧
  (∀ (s : State) (t value off : Nat) (mb : Fin 8),
    let c := s.tick t
    let m := vget c.mbx.mb mb
    exec (.registerWrite t 0x20 4 value) s = .next (s.put { c with regs := { c.regs with scratch := wrapU 32 value } }) ∧
    (m.owner = false → off < 4096 → off % 4 = 0 → exec (.registerWrite t (0x10000 + 4096 * (mb : Nat) + off) 4 value) s =
      .next (s.put { c with mbx := { c.mbx with mb := vset c.mbx.mb mb { m with
        bytes := putB (putB (fit 4096 m.bytes) off (le 4 value)) 9 [0] } } })) ∧
    (m.owner = true → off < 4096 → exec (.registerWrite t (0x10000 + 4096 * (mb : Nat) + off) 4 value) s = .next (s.put c))) ∧
  (∀ (s : State) (t : Nat),
    let lost := writeEventsLost (s.tick t)
    eventRoom lost = true → ∀ e rest, lost.evq.fifo = e :: rest →
      exec (.eventRingWrite t) s = .next (s.put (eventPut e { lost with evq := { lost.evq with fifo := rest } }))) ∧
  (∀ (s : State) (t code inst : Nat) (w : RateWindow),
    let c := s.tick t
    let rest := c.rates.filter fun w => !(w.code == code && w.key == inst)
    c.rates.find? (fun w => w.code == code && w.key == inst) = some w → w.until_ ≤ c.now →
    (w.collected = 0 → exec (.rateLimitSecondEnd t code inst) s = .next (s.put { c with rates := rest })) ∧
    (w.collected ≠ 0 → exec (.rateLimitSecondEnd t code inst) s = .next (s.put (raise code w.severity w.source
      (w.withCount (if w.lessOne then w.collected - 1 else w.collected))
      { c with rates := rest ++ [{ w with collected := 0, until_ := c.now + 1000000000 }] })))) ∧
  (∀ (s : State) (t native : Nat) (mb : Fin 8),
    let c := s.tick t
    let m := vget c.mbx.mb mb
    let code := rd m.bytes 2 2
    let taken := { c with mbx := { c.mbx with response := setBit c.mbx.response mb false, mb := vset c.mbx.mb mb { m with owner := true } } }
    m.owner = false → notReadyWait taken mb = none → m.lastSequence ≠ some (rd m.bytes 0 2) → servedAs taken mb code = some native →
    exec (.mailboxDoorbell t mb) s = .next (s.put (admitJob mb code native taken)))

end
end

