-- ==== Sys2Proof/Laws/Bytes.lean ====
section
/-! SUPPORT. Lengths of byte strings. -/
namespace Sys2Proof.Machine

@[simp] theorem le_length (n v : Nat) : (le n v).length = n := by
  induction n generalizing v with
  | zero => rfl
  | succ n ih => simp [le, ih]

@[simp] theorem leS_length (n : Nat) (v : Int) : (leS n v).length = n := le_length ..

@[simp] theorem zeros_length (n : Nat) : (zeros n).length = n := List.length_replicate

@[simp] theorem sliceB_length (bs : List Byte) (off n : Nat) : (sliceB bs off n).length = n := by
  simp only [sliceB, List.length_append, List.length_replicate]
  have := List.length_take_le n (bs.drop off)
  omega

@[simp] theorem fit_length (n : Nat) (bs : List Byte) : (fit n bs).length = n := sliceB_length ..

/-- Bytes laid inside a string leave its length. -/
theorem putB_length {bs new : List Byte} {off : Nat} (h : off + new.length ≤ bs.length) : (putB bs off new).length = bs.length := by
  simp only [putB, List.length_append, sliceB_length, List.length_drop]
  omega

/-- A string of n bytes cut or filled to n bytes is itself. -/
theorem fit_of_length {n : Nat} {bs : List Byte} (h : bs.length = n) : fit n bs = bs := by
  subst h
  simp [fit, sliceB]

end Sys2Proof.Machine
end

