-- ==== Sys2Proof/Laws/Commands.lean ====
section
/-! SUPPORT. What a mailbox command does with a request it carries out: one lemma for the checks, one for the row, one for the
reply. -/
namespace Sys2Proof.Machine

/-- Running a command is its effect on the device at the new instant, with what it issued landed. -/
theorem State.run_eq_put (s : State) (t : Nat) (f : State → Chip → Chip) : s.run t f = s.put (f s (s.tick t)) := rfl

/-- The order of R472 moves checks, and adds none. -/
theorem mem_of_mem_inOrder {ks : List Check} {k : Check} (h : k ∈ inOrder ks) : k ∈ ks := by
  simp only [inOrder, List.mem_append, List.mem_filter] at h
  obtain ((h | h) | h) | h := h <;> exact h.1

theorem firstFail_of_passes {ks : List Check} (h : passes ks = true) : firstFail ks = none := by
  rw [firstFail, List.find?_eq_none]
  intro k hk
  simp [List.all_eq_true.1 h k (mem_of_mem_inOrder hk)]

/-- A check of a step of R472 that fails is found, whatever its place. -/
theorem firstFail_isSome {ks : List Check} {k : Check} (h : k ∈ ks) (hs : 5 ≤ k.step ∧ k.step ≤ 8) (hk : k.ok = false) :
    (firstFail ks).isSome = true := by
  rw [firstFail, List.find?_isSome]
  refine ⟨k, ?_, by simp [hk]⟩
  have : k.step = 5 ∨ k.step = 6 ∨ k.step = 7 ∨ k.step = 8 := by omega
  simp only [inOrder, List.mem_append, List.mem_filter]
  obtain h5 | h5 | h5 | h5 := this <;> simp [h, h5]

theorem passes_append (ks ls : List Check) : passes (ks ++ ls) = (passes ks && passes ls) := List.all_append

/-- A request that passes its checks gets the effect. -/
theorem checked_of_passes {ks : List Check} (h : passes ks = true) (c : Chip) (r : Reply) : checked ks c r = r := by
  rw [checked, firstFail_of_passes h]

/-- A request that fails a check leaves the device as it is. -/
theorem checked_of_fails {ks : List Check} {k : Check} (h : firstFail ks = some k) (c : Chip) (r : Reply) :
    checked ks c r = { status := k.status, detail := k.detail, early := decide (k.step < 7), chip := c } := by
  rw [checked, h]

/-- In a mode that does not refuse the command, and with a clear header, its own reply stands. -/
theorem underMode_of_serves {c : Chip} {j : Job} (h : modeRefuses c j = false) (hr : j.headerFault.isNone = true)
    (f : Job → Chip → Reply) : underMode f j c = f j c := by
  have hs : j.headerFault.isSome = false := by simpa using hr
  simp only [underMode, h, hs, Bool.false_and, Bool.false_eq_true, if_false]

/-- The request a mailbox holds is the one that runs. -/
theorem runJob_of_job {test : Job → Bool} {mb : Nat} {f : Nat → Job → Chip → Reply} {c : Chip} {j : Job}
    (hj : (vget c.mbx.mb mb).job = some j) (ht : test j = true) (hw : j.waiting = false) (hi : inTurn c j = true)
    (hl : lodgeServes c = true) (hm : modeRefuses c j = false) (hr : j.headerFault.isNone = true) :
    runJob test mb f c = finish mb (f mb j c) := by
  simp only [runJob, hl, hj, Option.filter, ht, hw, hi, underMode_of_serves hm hr, Bool.not_true, Bool.not_false, Bool.and_self,
    Bool.false_eq_true, if_false, if_true]

/-- The row of a native command on a request its mailbox holds: the command's reply, given to that mailbox. -/
theorem State.command_of_holds {s : State} {mb : Fin 8} {code : Nat} {j : Job} (h : s.holds mb code j = true) (t : Nat)
    (f : Env → Job → Chip → Reply) : s.command code t mb f = s.put (finish mb (f ⟨mb, s.bulk⟩ j (s.tick t))) := by
  simp only [State.holds, Bool.and_eq_true, beq_iff_eq, Bool.not_eq_true'] at h
  obtain ⟨⟨⟨⟨⟨⟨⟨hj, hc⟩, hr⟩, hw⟩, hi⟩, hl⟩, hm⟩, hh⟩ := h
  rw [State.command, State.run_eq_put]
  exact congrArg s.put (runJob_of_job (c := s.tick t) (f := fun who => f ⟨who, s.bulk⟩) hj (by simp [hc, hr]) hw hi hl hm hh)

end Sys2Proof.Machine
end

