-- ==== Sys2Proof/Laws/Memory.lean ====
section
/-! SUPPORT. The canonical form of a memory: every operation keeps it, and reset has it. -/
namespace Sys2Proof.Machine

theorem Mem.above_mono {lo hi : Nat} (h : lo ≤ hi) {m : Mem} (hm : Mem.above hi m = true) : Mem.above lo m = true := by
  cases m with
  | nil => rfl
  | cons e m =>
    simp only [Mem.above, Bool.and_eq_true, decide_eq_true_eq] at hm ⊢
    exact ⟨⟨Nat.le_trans h hm.1.1, hm.1.2⟩, hm.2⟩

/-- A byte written at or above a bound leaves every address at or above it. -/
theorem Mem.above_write {m : Mem} {lo a : Nat} (b : Byte) (hm : Mem.above lo m = true) (ha : lo ≤ a) :
    Mem.above lo (Mem.write m a b) = true := by
  induction m generalizing lo with
  | nil =>
    simp only [Mem.write]
    split
    · rfl
    · rename_i hb
      simp [Mem.above, ha, hb]
  | cons e m ih =>
    obtain ⟨k, v⟩ := e
    simp only [Mem.above, Bool.and_eq_true, decide_eq_true_eq, bne_iff_ne, ne_eq] at hm
    obtain ⟨⟨hk, hv⟩, ht⟩ := hm
    simp only [Mem.write]
    split
    · split
      · simp [Mem.above, hk, hv, ht]
      · rename_i h1 hb
        simp [Mem.above, ha, hb, hv, ht, Nat.succ_le_of_lt h1]
    · split
      · split
        · exact Mem.above_mono (by omega) ht
        · rename_i h1 h2 hb
          subst h2
          simp [Mem.above, ha, hb, ht]
      · rename_i h1 h2
        have h3 := ih ht (by omega)
        simp [Mem.above, hk, hv, h3]

/-- Writing a byte keeps the canonical form. -/
theorem Mem.write_wf {m : Mem} (a : Nat) (b : Byte) (h : m.wf = true) : (m.write a b).wf = true := Mem.above_write b h (Nat.zero_le a)

/-- Writing a byte string keeps the canonical form. -/
theorem Mem.writeBytes_wf {m : Mem} (a : Nat) (bs : List Byte) (h : m.wf = true) : (m.writeBytes a bs).wf = true := by
  induction bs generalizing m a with
  | nil => exact h
  | cons b bs ih => exact ih (a + 1) (Mem.write_wf a b h)

/-- What a command issues keeps the canonical form of host memory. -/
theorem hostAfter_wf {m : Mem} (os : List Output) (h : m.wf = true) : (hostAfter os m).wf = true := by
  induction os generalizing m with
  | nil => exact h
  | cons o os ih =>
    cases o with
    | hostWrite a bs _ _ => exact ih (Mem.writeBytes_wf a bs h)
    | _ => exact ih h

/-- What a command issues keeps the canonical form of the bulk window. -/
theorem bulkAfter_wf {m : Mem} (os : List Output) (h : m.wf = true) : (bulkAfter os m).wf = true := by
  induction os generalizing m with
  | nil => exact h
  | cons o os ih =>
    cases o with
    | bulkWrite a bs => exact ih (Mem.writeBytes_wf a bs h)
    | bulkLost => exact ih rfl
    | _ => exact ih h

/-- A command's effects keep both memories canonical. -/
theorem State.put_memOk {s : State} (c : Chip) (h : s.memOk = true) : (s.put c).memOk = true := by
  simp only [State.memOk, Bool.and_eq_true] at h ⊢
  exact ⟨hostAfter_wf _ h.1, bulkAfter_wf _ h.2⟩

theorem State.reset_memOk : State.reset.memOk = true := rfl

end Sys2Proof.Machine
end

