-- ==== Sys2Proof/Laws/Ops.lean ====
section
/-! SUPPORT. What the shared operations leave alone: raising events, counting, signalling and answering touch neither the rest of the
device, nor the mailboxes (answering apart), nor memory. -/
namespace Sys2Proof.Machine

/-- Nothing issued so far writes to a memory. -/
def Chip.spares (c : Chip) : Bool := c.out.all Output.sparesMemory

theorem vget_vset_self {α : Type} [Inhabited α] {n : Nat} (v : Vector α n) {i : Nat} (h : i < n) (x : α) : vget (vset v i x) i = x := by
  simp [vget, vset, h]

theorem vget_vset_ne {α : Type} [Inhabited α] {n : Nat} (v : Vector α n) {i k : Nat} (h : k ≠ i) (x : α) :
    vget (vset v i x) k = vget v k := by
  simp [vget, vset, List.getD, Ne.symm h]

theorem vget_vmod_ne {α : Type} [Inhabited α] {n : Nat} (v : Vector α n) {i k : Nat} (h : k ≠ i) (f : α → α) :
    vget (vmod v i f) k = vget v k := vget_vset_ne v h _

theorem vget_vmod_self {α : Type} [Inhabited α] {n : Nat} (v : Vector α n) {i : Nat} (h : i < n) (f : α → α) :
    vget (vmod v i f) i = f (vget v i) := vget_vset_self v h _

@[simp] theorem quiet_mbx (c : Chip) (m : MailboxBlock) : ({ c with mbx := m } : Chip).quiet = c.quiet := rfl
@[simp] theorem spares_mbx (c : Chip) (m : MailboxBlock) : ({ c with mbx := m } : Chip).spares = c.spares := rfl

/-! ### Effects -/

@[simp] theorem emit_quiet (o : Output) (c : Chip) : (emit o c).quiet = c.quiet := rfl
@[simp] theorem emit_mbx (o : Output) (c : Chip) : (emit o c).mbx = c.mbx := rfl
@[simp] theorem emit_spares (o : Output) (c : Chip) : (emit o c).spares = (o.sparesMemory && c.spares) := rfl

@[simp] theorem freeNat_quiet (c : Chip) : (freeNat c).2.quiet = c.quiet := rfl
@[simp] theorem freeNat_mbx (c : Chip) : (freeNat c).2.mbx = c.mbx := rfl
@[simp] theorem freeNat_spares (c : Chip) : (freeNat c).2.spares = c.spares := rfl

/-! ### Interrupts -/

theorem quietMsix_vset (v : Vector MsixEntry 64) (i : Nat) (b : Bool) :
    vmapIdx (fun _ (e : MsixEntry) => { e with pending := false }) (vset v i { vget v i with pending := b })
      = vmapIdx (fun _ (e : MsixEntry) => { e with pending := false }) v := by
  apply Vector.toArray_inj.mp
  apply Array.toList_inj.mp
  simp only [vmapIdx, vset, vget]
  apply List.ext_getElem?
  intro k
  simp only [List.getElem?_mapIdx]
  by_cases h : i = k
  · subst h
    by_cases hk : i < 64 <;> simp [hk]
  · simp [h]

@[simp] theorem signalVector_quiet (v : Nat) (c : Chip) : (signalVector v c).quiet = c.quiet := by
  simp only [signalVector]
  split
  · simp only [Chip.quiet, quietMsix_vset]
  · rfl
@[simp] theorem signalVector_mbx (v : Nat) (c : Chip) : (signalVector v c).mbx = c.mbx := by simp only [signalVector]; split <;> rfl
@[simp] theorem signalVector_spares (v : Nat) (c : Chip) : (signalVector v c).spares = c.spares := by
  simp only [signalVector]; split <;> rfl

@[simp] theorem releaseVector_quiet (v : Nat) (c : Chip) : (releaseVector v c).quiet = c.quiet := by
  simp only [releaseVector]
  split
  · simp only [Chip.quiet, emit, quietMsix_vset]
  · rfl
@[simp] theorem releaseVector_mbx (v : Nat) (c : Chip) : (releaseVector v c).mbx = c.mbx := by simp only [releaseVector]; split <;> rfl
@[simp] theorem releaseVector_spares (v : Nat) (c : Chip) : (releaseVector v c).spares = c.spares := by
  simp only [releaseVector]; split <;> rfl

@[simp] theorem signalGroup_quiet (code : Nat) (c : Chip) : (signalGroup code c).quiet = c.quiet := by
  simp only [signalGroup]; split <;> simp
@[simp] theorem signalGroup_mbx (code : Nat) (c : Chip) : (signalGroup code c).mbx = c.mbx := by simp only [signalGroup]; split <;> simp
@[simp] theorem signalGroup_spares (code : Nat) (c : Chip) : (signalGroup code c).spares = c.spares := by
  simp only [signalGroup]; split <;> simp

/-! ### Events -/

@[simp] theorem journalAdd_quiet (kind part : Nat) (body : List Byte) (c : Chip) : (journalAdd kind part body c).quiet = c.quiet := rfl
@[simp] theorem journalAdd_mbx (kind part : Nat) (body : List Byte) (c : Chip) : (journalAdd kind part body c).mbx = c.mbx := rfl
@[simp] theorem journalAdd_spares (kind part : Nat) (body : List Byte) (c : Chip) : (journalAdd kind part body c).spares = c.spares := rfl

@[simp] theorem journalEvent_quiet (e : Event) (c : Chip) : (journalEvent e c).quiet = c.quiet := by
  simp only [journalEvent]
  by_cases h : c.life.day = utcDay c <;> simp only [h, if_true, if_false] <;> split <;> rfl
@[simp] theorem journalEvent_mbx (e : Event) (c : Chip) : (journalEvent e c).mbx = c.mbx := by
  simp only [journalEvent]
  by_cases h : c.life.day = utcDay c <;> simp only [h, if_true, if_false] <;> split <;> rfl
@[simp] theorem journalEvent_spares (e : Event) (c : Chip) : (journalEvent e c).spares = c.spares := by
  simp only [journalEvent]
  by_cases h : c.life.day = utcDay c <;> simp only [h, if_true, if_false] <;> split <;> rfl

/-- What enqueueEvent does to the device before the FIFO: the vector of the group, where no ring is enabled. -/
theorem signalled_evq (code : Nat) (c : Chip) : (if c.evq.ring.enabled then c else signalGroup code c).evq = c.evq := by
  split
  · rfl
  · simp only [signalGroup, signalVector]; repeat' split
    all_goals rfl

@[simp] theorem enqueueEvent_quiet (e : Event) (c : Chip) : (enqueueEvent e c).quiet = c.quiet := by
  have hq : (if c.evq.ring.enabled then c else signalGroup e.code c).quiet = c.quiet := by split <;> simp
  have he := signalled_evq e.code c
  simp only [enqueueEvent]
  generalize (if c.evq.ring.enabled then c else signalGroup e.code c) = d at hq he ⊢
  rw [← hq, ← he]
  split <;> rfl
@[simp] theorem enqueueEvent_mbx (e : Event) (c : Chip) : (enqueueEvent e c).mbx = c.mbx := by
  simp only [enqueueEvent]
  repeat' split
  all_goals first | rfl | exact signalGroup_mbx _ _
@[simp] theorem enqueueEvent_spares (e : Event) (c : Chip) : (enqueueEvent e c).spares = c.spares := by
  simp only [enqueueEvent]
  repeat' split
  all_goals first | rfl | exact signalGroup_spares _ _

@[simp] theorem raiseNow_quiet (j : Bool) (code sev src : Nat) (p : List Byte) (c : Chip) : (raiseNow j code sev src p c).quiet = c.quiet := by
  simp only [raiseNow]
  repeat' split
  all_goals first | rfl | (simp only [enqueueEvent_quiet, journalEvent_quiet]; rfl)
@[simp] theorem raiseNow_mbx (j : Bool) (code sev src : Nat) (p : List Byte) (c : Chip) : (raiseNow j code sev src p c).mbx = c.mbx := by
  simp only [raiseNow]
  repeat' split
  all_goals first | rfl | (simp only [enqueueEvent_mbx, journalEvent_mbx])
@[simp] theorem raiseNow_spares (j : Bool) (code sev src : Nat) (p : List Byte) (c : Chip) : (raiseNow j code sev src p c).spares = c.spares := by
  simp only [raiseNow]
  repeat' split
  all_goals first | rfl | (simp only [enqueueEvent_spares, journalEvent_spares]; rfl)

@[simp] theorem raiseWith_quiet (j : Bool) (code sev src : Nat) (p : List Byte) (c : Chip) : (raiseWith j code sev src p c).quiet = c.quiet := by
  simp only [raiseWith]
  split
  · rfl
  · exact raiseNow_quiet _ _ _ _ _ _
@[simp] theorem raiseWith_mbx (j : Bool) (code sev src : Nat) (p : List Byte) (c : Chip) : (raiseWith j code sev src p c).mbx = c.mbx := by
  simp only [raiseWith]
  split
  · rfl
  · exact raiseNow_mbx _ _ _ _ _ _
@[simp] theorem raiseWith_spares (j : Bool) (code sev src : Nat) (p : List Byte) (c : Chip) : (raiseWith j code sev src p c).spares = c.spares := by
  simp only [raiseWith]
  split
  · rfl
  · exact raiseNow_spares _ _ _ _ _ _

@[simp] theorem noteSaturated_quiet (k o i w v : Nat) (c : Chip) : (noteSaturated k o i w v c).quiet = c.quiet := by
  simp only [noteSaturated]; split <;> simp only [raiseWith_quiet] <;> rfl
@[simp] theorem noteSaturated_mbx (k o i w v : Nat) (c : Chip) : (noteSaturated k o i w v c).mbx = c.mbx := by
  simp only [noteSaturated]; split <;> simp only [raiseWith_mbx]
@[simp] theorem noteSaturated_spares (k o i w v : Nat) (c : Chip) : (noteSaturated k o i w v c).spares = c.spares := by
  simp only [noteSaturated]; split <;> simp only [raiseWith_spares] <;> rfl

@[simp] theorem raise_quiet (code sev src : Nat) (p : List Byte) (c : Chip) : (raise code sev src p c).quiet = c.quiet := by simp [raise]
@[simp] theorem raise_mbx (code sev src : Nat) (p : List Byte) (c : Chip) : (raise code sev src p c).mbx = c.mbx := by simp [raise]
@[simp] theorem raise_spares (code sev src : Nat) (p : List Byte) (c : Chip) : (raise code sev src p c).spares = c.spares := by simp [raise]

@[simp] theorem raiseLimited_quiet (code sev src inst : Nat) (p : List Byte) (off len : Nat) (l : Bool) (n : Nat) (c : Chip) :
    (raiseLimited code sev src inst p off len l n c).quiet = c.quiet := by
  simp only [raiseLimited]
  repeat' split
  all_goals first | rfl | (simp only [raise_quiet]; rfl)
@[simp] theorem raiseLimited_mbx (code sev src inst : Nat) (p : List Byte) (off len : Nat) (l : Bool) (n : Nat) (c : Chip) :
    (raiseLimited code sev src inst p off len l n c).mbx = c.mbx := by
  simp only [raiseLimited]
  repeat' split
  all_goals first | rfl | (simp only [raise_mbx])
@[simp] theorem raiseLimited_spares (code sev src inst : Nat) (p : List Byte) (off len : Nat) (l : Bool) (n : Nat) (c : Chip) :
    (raiseLimited code sev src inst p off len l n c).spares = c.spares := by
  simp only [raiseLimited]
  repeat' split
  all_goals first | rfl | (simp only [raise_spares]; rfl)

@[simp] theorem endRateSecond_quiet (code inst : Nat) (c : Chip) : (endRateSecond code inst c).quiet = c.quiet := by
  simp only [endRateSecond]
  repeat' split
  all_goals first | rfl | (simp only [raise_quiet]; rfl)
@[simp] theorem endRateSecond_mbx (code inst : Nat) (c : Chip) : (endRateSecond code inst c).mbx = c.mbx := by
  simp only [endRateSecond]
  repeat' split
  all_goals first | rfl | (simp only [raise_mbx])
@[simp] theorem endRateSecond_spares (code inst : Nat) (c : Chip) : (endRateSecond code inst c).spares = c.spares := by
  simp only [endRateSecond]
  repeat' split
  all_goals first | rfl | (simp only [raise_spares]; rfl)

@[simp] theorem satAdd_quiet (k o i w a n : Nat) (c : Chip) : (satAdd k o i w a n c).2.quiet = c.quiet := by simp [satAdd]
@[simp] theorem satAdd_mbx (k o i w a n : Nat) (c : Chip) : (satAdd k o i w a n c).2.mbx = c.mbx := by simp [satAdd]
@[simp] theorem satAdd_spares (k o i w a n : Nat) (c : Chip) : (satAdd k o i w a n c).2.spares = c.spares := by simp [satAdd]
@[simp] theorem satAdd_value (k o i w a n : Nat) (c : Chip) : (satAdd k o i w a n c).1 = satU w (a + n) := rfl

@[simp] theorem dmaError_quiet (s k d a : Nat) (c : Chip) : (dmaError s k d a c).quiet = c.quiet := by simp [dmaError]
@[simp] theorem dmaError_mbx (s k d a : Nat) (c : Chip) : (dmaError s k d a c).mbx = c.mbx := by simp [dmaError]
@[simp] theorem dmaError_spares (s k d a : Nat) (c : Chip) : (dmaError s k d a c).spares = c.spares := by simp [dmaError]

/-! ### Answers -/

@[simp] theorem audit_quiet (mb st : Nat) (j : Job) (c : Chip) : (audit mb st j c).quiet = c.quiet := by
  simp only [audit]
  exact satAdd_quiet _ _ _ _ _ _ c
@[simp] theorem audit_mb (mb st : Nat) (j : Job) (c : Chip) : (audit mb st j c).mbx.mb = c.mbx.mb := by
  simp [audit]
@[simp] theorem audit_spares (mb st : Nat) (j : Job) (c : Chip) : (audit mb st j c).spares = c.spares := by
  simp only [audit]
  exact satAdd_spares _ _ _ _ _ _ c

@[simp] theorem answer_quiet (mb : Nat) (bs : List Byte) (c : Chip) : (answer mb bs c).quiet = c.quiet := by
  simp only [answer, signalVector_quiet, quiet_mbx]
theorem answer_mb_ne {mb k : Nat} (h : k ≠ mb) (bs : List Byte) (c : Chip) : vget (answer mb bs c).mbx.mb k = vget c.mbx.mb k := by
  simp only [answer, signalVector_mbx, vget_vmod_ne _ h]
@[simp] theorem answer_spares (mb : Nat) (bs : List Byte) (c : Chip) : (answer mb bs c).spares = c.spares := by
  simp only [answer, signalVector_spares, spares_mbx]

@[simp] theorem recordAnswer_quiet (mb : Nat) (m : Mailbox) (j : Job) (st d : Nat) (body : List Byte) (c : Chip) :
    (recordAnswer mb m j st d body c).2.quiet = c.quiet := by
  simp only [recordAnswer]
  repeat' split
  all_goals simp only [quiet_mbx, audit_quiet]
theorem recordAnswer_mb_ne {mb k : Nat} (h : k ≠ mb) (m : Mailbox) (j : Job) (st d : Nat) (body : List Byte) (c : Chip) :
    vget (recordAnswer mb m j st d body c).2.mbx.mb k = vget c.mbx.mb k := by
  simp only [recordAnswer]
  repeat' split
  all_goals first | rfl | simp only [vget_vmod_ne _ h, audit_mb]
@[simp] theorem recordAnswer_spares (mb : Nat) (m : Mailbox) (j : Job) (st d : Nat) (body : List Byte) (c : Chip) :
    (recordAnswer mb m j st d body c).2.spares = c.spares := by
  simp only [recordAnswer]
  repeat' split
  all_goals first | rfl | simp only [spares_mbx, audit_spares]

@[simp] theorem endOrphan_quiet (mb st d : Nat) (body : List Byte) (j : Job) (c : Chip) : (endOrphan mb st d body j c).quiet = c.quiet := by
  simp only [endOrphan, quiet_mbx, recordAnswer_quiet]
theorem endOrphan_mb_ne {mb k : Nat} (h : k ≠ mb) (st d : Nat) (body : List Byte) (j : Job) (c : Chip) :
    vget (endOrphan mb st d body j c).mbx.mb k = vget c.mbx.mb k := by
  simp only [endOrphan, vget_vmod_ne _ h, recordAnswer_mb_ne h]
@[simp] theorem endOrphan_spares (mb st d : Nat) (body : List Byte) (j : Job) (c : Chip) : (endOrphan mb st d body j c).spares = c.spares := by
  simp only [endOrphan, spares_mbx, recordAnswer_spares]

@[simp] theorem respond_quiet (mb st d : Nat) (body : List Byte) (c : Chip) : (respond mb st d body c).quiet = c.quiet := by
  simp only [respond, respondNow]
  repeat' split
  all_goals first | rfl | simp only [answer_quiet, recordAnswer_quiet, endOrphan_quiet]
theorem respond_mb_ne {mb k : Nat} (hm : mb < 8) (h : k ≠ mb) (st d : Nat) (body : List Byte) (c : Chip) :
    vget (respond mb st d body c).mbx.mb k = vget c.mbx.mb k := by
  simp only [respond, respondNow, if_neg (Nat.not_le.2 hm)]
  repeat' split
  all_goals first | rfl | simp only [answer_mb_ne h, recordAnswer_mb_ne h]
@[simp] theorem respond_spares (mb st d : Nat) (body : List Byte) (c : Chip) : (respond mb st d body c).spares = c.spares := by
  simp only [respond, respondNow]
  repeat' split
  all_goals first | rfl | simp only [answer_spares, recordAnswer_spares, endOrphan_spares]

@[simp] theorem finish_quiet (mb : Nat) (r : Reply) : (finish mb r).quiet = r.chip.quiet := by
  simp only [finish]; split
  · rfl
  · exact respond_quiet _ _ _ _ _
theorem finish_mb_ne {mb k : Nat} (hm : mb < 8) (h : k ≠ mb) (r : Reply) : vget (finish mb r).mbx.mb k = vget r.chip.mbx.mb k := by
  simp only [finish]; split
  · exact vget_vmod_ne _ h _
  · exact respond_mb_ne hm h _ _ _ _
@[simp] theorem finish_spares (mb : Nat) (r : Reply) : (finish mb r).spares = r.chip.spares := by
  simp only [finish]; split
  · rfl
  · exact respond_spares _ _ _ _ _

@[simp] theorem finishOrphan_quiet (mb : Nat) (j : Job) (r : Reply) : (finishOrphan mb j r).quiet = r.chip.quiet := by
  simp only [finishOrphan]
  split
  · exact quiet_mbx _ _
  · exact endOrphan_quiet _ _ _ _ _ _
theorem finishOrphan_mb_ne {mb k : Nat} (h : k ≠ mb) (j : Job) (r : Reply) :
    vget (finishOrphan mb j r).mbx.mb k = vget r.chip.mbx.mb k := by
  simp only [finishOrphan]
  split
  · exact vget_vmod_ne _ h _
  · exact endOrphan_mb_ne h _ _ _ _ _
@[simp] theorem finishOrphan_spares (mb : Nat) (j : Job) (r : Reply) : (finishOrphan mb j r).spares = r.chip.spares := by
  simp only [finishOrphan]
  split
  · exact spares_mbx _ _
  · exact endOrphan_spares _ _ _ _ _ _

theorem hostAfter_of_spares {os : List Output} (h : os.all Output.sparesMemory = true) (m : Mem) : hostAfter os m = m := by
  induction os generalizing m with
  | nil => rfl
  | cons o os ih =>
    rw [List.all_cons, Bool.and_eq_true] at h
    cases o <;> first | exact ih h.2 m | simp [Output.sparesMemory] at h

theorem bulkAfter_of_spares {os : List Output} (h : os.all Output.sparesMemory = true) (m : Mem) : bulkAfter os m = m := by
  induction os generalizing m with
  | nil => rfl
  | cons o os ih =>
    rw [List.all_cons, Bool.and_eq_true] at h
    cases o <;> first | exact ih h.2 m | simp [Output.sparesMemory] at h

/-- A command that issues no write to a memory keeps both memories. -/
theorem State.put_keepsMemory {s : State} {c : Chip} (h : c.spares = true) : s.keepsMemory (s.put c) := by
  have h' : c.out.reverse.all Output.sparesMemory = true := by simpa [Chip.spares] using h
  exact ⟨hostAfter_of_spares h' s.host, bulkAfter_of_spares h' s.bulk, rfl⟩

@[simp] theorem State.tick_quiet (s : State) (t : Nat) : (s.tick t).quiet = s.chip.quiet := rfl
@[simp] theorem State.tick_mbx (s : State) (t : Nat) : (s.tick t).mbx = s.chip.mbx := rfl
@[simp] theorem State.tick_spares (s : State) (t : Nat) : (s.tick t).spares = true := rfl
@[simp] theorem State.put_chip (s : State) (c : Chip) : (s.put c).chip = c := rfl
@[simp] theorem State.put_pending (s : State) (c : Chip) : (s.put c).pending = s.pending := rfl

/-- A command changes of a view of the device what its own effect on the device changes, where answering changes nothing of it. -/
theorem runJob_view {β : Type} (F : Chip → β) (hf : ∀ mb r, F (finish mb r) = F r.chip) (ho : ∀ mb j r, F (finishOrphan mb j r) = F r.chip)
    {test : Job → Bool} {mb : Nat} {f : Nat → Job → Chip → Reply} {c : Chip} (h : ∀ who j, F (f who j c).chip = F c) :
    F (runJob test mb f c) = F c := by
  have hu : ∀ who j, F (underMode (f who) j c).chip = F c := by
    intro who j
    simp only [underMode]
    repeat' split
    all_goals first | rfl | exact h who j
  simp only [runJob]
  repeat' split
  all_goals first | rfl | (rw [hf, hu]) | (rw [ho, hu])

/-- What a command leaves of the quiet part of the device. -/
theorem runJob_quiet {β : Type} (G : Chip → β) {test : Job → Bool} {mb : Nat} {f : Nat → Job → Chip → Reply} {c : Chip}
    (h : ∀ who j, G (f who j c).chip.quiet = G c.quiet) : G (runJob test mb f c).quiet = G c.quiet :=
  runJob_view (fun c => G c.quiet) (fun _ _ => by simp only [finish_quiet]) (fun _ _ _ => by simp only [finishOrphan_quiet]) h

/-- A command whose own effect issues no write to a memory issues none. -/
theorem runJob_spares {test : Job → Bool} {mb : Nat} {f : Nat → Job → Chip → Reply} {c : Chip}
    (h : ∀ who j, (f who j c).chip.spares = c.spares) :
    (runJob test mb f c).spares = c.spares :=
  runJob_view Chip.spares (fun _ _ => finish_spares _ _) (fun _ _ _ => finishOrphan_spares _ _ _) h

/-- A command whose own effect leaves the other mailboxes alone leaves them alone. -/
theorem runJob_mb_ne {k mb : Nat} (hm : mb < 8) (hk : k ≠ mb) {test : Job → Bool} {f : Nat → Job → Chip → Reply} {c : Chip}
    (h : ∀ who j, vget (f who j c).chip.mbx.mb k = vget c.mbx.mb k) : vget (runJob test mb f c).mbx.mb k = vget c.mbx.mb k := by
  have hu : ∀ who j, vget (underMode (f who) j c).chip.mbx.mb k = vget c.mbx.mb k := by
    intro who j
    simp only [underMode]
    repeat' split
    all_goals first | rfl | exact h who j
  simp only [runJob]
  repeat' split
  all_goals first | rfl | (rw [finish_mb_ne hm hk, hu]) | (rw [finishOrphan_mb_ne hk, hu])

/-- The reply of a checked command leaves of a view of the device what its effect leaves. -/
theorem checked_view {β : Type} (F : Chip → β) {ks : List Check} {c : Chip} {r : Reply} (h : F r.chip = F c) : F (checked ks c r).chip = F c := by
  simp only [checked]
  split
  · rfl
  · exact h

end Sys2Proof.Machine
end

