-- ==== Sys2Proof/Laws/Rows.lean ====
section
/-! SUPPORT. What each row of the table is as a function on the device, one lemma per row, true by definition. -/
namespace Sys2Proof.Machine

theorem exec_encConfigure (t : Nat) (mb : Fin 8) (s : State) :
    exec (.encConfigure t mb) s = .next (s.command 0x0300 t mb encConfigure) := rfl

theorem exec_encGetState (t : Nat) (mb : Fin 8) (s : State) :
    exec (.encGetState t mb) s = .next (s.command 0x0301 t mb encGetState) := rfl

theorem exec_trigConfigure (t : Nat) (mb : Fin 8) (s : State) :
    exec (.trigConfigure t mb) s = .next (s.command 0x0302 t mb trigConfigure) := rfl

theorem exec_trigSetPitch (t : Nat) (mb : Fin 8) (s : State) :
    exec (.trigSetPitch t mb) s = .next (s.command 0x0303 t mb trigSetPitch) := rfl

theorem exec_webSetGeometry (t : Nat) (mb : Fin 8) (s : State) :
    exec (.webSetGeometry t mb) s = .next (s.command 0x0304 t mb webSetGeometry) := rfl

theorem exec_portDiscover (t : Nat) (mb : Fin 8) (s : State) :
    exec (.portDiscover t mb) s = .next (s.command 0x0200 t mb portDiscover) := rfl

theorem exec_discoveryComplete (t : Nat) (port : Fin 16) (camera : Option CameraInfo) (s : State) :
    exec (.discoveryComplete t port camera) s = .next (s.put (discoveryComplete port camera (s.tick t))) := rfl

theorem exec_portConfigure (t : Nat) (mb : Fin 8) (s : State) :
    exec (.portConfigure t mb) s = .next (s.command 0x0201 t mb portConfigure) := rfl

theorem exec_portReadCameraReg (t : Nat) (mb : Fin 8) (s : State) :
    exec (.portReadCameraReg t mb) s = .next (s.command 0x0202 t mb portRead) := rfl

theorem exec_portWriteCameraReg (t : Nat) (mb : Fin 8) (s : State) :
    exec (.portWriteCameraReg t mb) s = .next (s.command 0x0203 t mb portWrite) := rfl

theorem exec_controlAckReceived (t : Nat) (port : Fin 16) (crcOk error : Bool) (code : Nat) (data : List Byte) (s : State) :
    exec (.controlAckReceived t port crcOk error code data) s = .next (s.put (controlAck port crcOk error code data (s.tick t))) := rfl

theorem exec_controlAckTimeout (t : Nat) (port : Fin 16) (s : State) :
    exec (.controlAckTimeout t port) s = .next (s.put (retryPacket port 0 (s.tick t))) := rfl

theorem exec_portGetLinkQuality (t : Nat) (mb : Fin 8) (seen : List (Nat × Nat)) (s : State) :
    exec (.portGetLinkQuality t mb seen) s = .next (s.command 0x0204 t mb (portQuality seen)) := rfl

theorem exec_laneMap (t : Nat) (mb : Fin 8) (s : State) :
    exec (.laneMap t mb) s = .next (s.command 0x0205 t mb laneMap) := rfl

theorem exec_laneGetStatus (t : Nat) (mb : Fin 8) (s : State) :
    exec (.laneGetStatus t mb) s = .next (s.command 0x0206 t mb laneStatus) := rfl

theorem exec_vcamConfigure (t : Nat) (mb : Fin 8) (s : State) :
    exec (.vcamConfigure t mb) s = .next (s.command 0x0207 t mb vcamConfigure) := rfl

theorem exec_vcamControlPacket (t : Nat) (k : Fin 4) (op : VcamOp) (s : State) :
    exec (.vcamControlPacket t k op) s = .next (s.put (vcamControl k op (s.tick t))) := rfl

theorem exec_vcamTriggerPacket (t : Nat) (k : Fin 4) (s : State) :
    exec (.vcamTriggerPacket t k) s = .next (s.put ((fun c : Chip => if (vget c.vcam k).enabled then
    emit (.vcamAck k 0 []) { c with vcam := vmod c.vcam k fun v => { v with triggers := wrapU 64 (v.triggers + 1) } } else c) (s.tick t))) := rfl

theorem exec_encoderCount (t : Nat) (ch : Fin 8) (a b : Bool) (heldA heldB : Nat) (s : State) :
    exec (.encoderCount t ch a b heldA heldB) s = .next (s.put (encoderLevels ch a b heldA heldB (s.tick t))) := rfl

theorem exec_indexPulse (t : Nat) (ch : Fin 8) (z : Bool) (held : Nat) (s : State) :
    exec (.indexPulse t ch z held) s = .next (s.put (indexLevel ch z held (s.tick t))) := rfl

theorem exec_zeroSpeedTimeout (t : Nat) (ch : Fin 8) (s : State) :
    exec (.zeroSpeedTimeout t ch) s = .next (s.put (zeroSpeed ch (s.tick t))) := rfl

theorem exec_lineTrigger (t : Nat) (s : State) :
    exec (.lineTrigger t) s = .next (s.put (lineTrigger (s.tick t))) := rfl

theorem exec_cameraLineReceived (t : Nat) (port : Fin 16) (first : Nat) (packets crcErrors : List Nat) (stream : List (BitVec 8)) (s : State) :
    exec (.cameraLineReceived t port first packets crcErrors stream) s = .next (s.put (lineReceived port first packets crcErrors stream (s.tick t))) := rfl

theorem exec_lineTimeout (t : Nat) (port : Fin 16) (s : State) :
    exec (.lineTimeout t port) s = .next (s.put (lineTimeout port (s.tick t))) := rfl

theorem exec_linkLost (t : Nat) (port : Fin 16) (link : Fin 4) (s : State) :
    exec (.linkLost t port link) s = .next (s.put (linkGone port link (s.tick t))) := rfl

theorem exec_powerFault (t : Nat) (port : Fin 16) (s : State) :
    exec (.powerFault t port) s = .next (s.put (powerFault port (s.tick t))) := rfl

theorem exec_eyeScan (t : Nat) (port : Fin 16) (link : Fin 4) (width new errors : Nat) (s : State) :
    exec (.eyeScan t port link width new errors) s = .next (s.put (eyeScan port link width new errors (s.tick t))) := rfl

theorem exec_codeErrorLimit (t : Nat) (port : Fin 16) (link : Fin 4) (new errors : Nat) (s : State) :
    exec (.codeErrorLimit t port link new errors) s = .next (s.put (codeErrorLimit port link new errors (s.tick t))) := rfl

theorem exec_recoveryAttempt (t : Nat) (port : Fin 16) (s : State) :
    exec (.recoveryAttempt t port) s = .next (s.put ((fun c : Chip => if (vget c.port port).recovers ∧ (vget c.port port).lastAttempt + 100000000 ≤ c.now then modPort port (fun x => { x with lastAttempt := c.now }) c else c) (s.tick t))) := rfl

theorem exec_linkRelock (t : Nat) (port : Fin 16) (width pixelFormat : Nat) (s : State) :
    exec (.linkRelock t port width pixelFormat) s = .next (s.put (linkRelock port width pixelFormat (s.tick t))) := rfl

theorem exec_laneLineCorrection (t : Nat) (lane : Fin 16) (n : Nat) (s : State) :
    exec (.laneLineCorrection t lane n) s = .next (s.put (laneCorrects lane n (s.tick t))) := rfl

theorem exec_stitchedLineAssembly (t : Nat) (s : State) :
    exec (.stitchedLineAssembly t) s = .next (s.put (assembly (s.tick t))) := rfl

theorem exec_pergolaWaitExpiry (t : Nat) (lane : Fin 16) (s : State) :
    exec (.pergolaWaitExpiry t lane) s = .next (s.put (waitExpires lane (s.tick t))) := rfl

theorem exec_seamMeasurement (t : Nat) (seam : Fin 16) (s : State) :
    exec (.seamMeasurement t seam) s = .next (s.put (seamMeasure seam (s.tick t))) := rfl

theorem exec_seamPositionApply (t : Nat) (seam : Fin 16) (s : State) :
    exec (.seamPositionApply t seam) s = .next (s.put ((fun c : Chip => modSeam seam (fun s => s.settle c.perg.next) c) (s.tick t))) := rfl

theorem exec_detectionLine (t : Nat) (s : State) :
    exec (.detectionLine t) s = .next (s.put (detectLine (s.tick t))) := rfl

theorem exec_streakEvaluation (t : Nat) (s : State) :
    exec (.streakEvaluation t) s = .next (s.put (evaluateStreaks (s.tick t))) := rfl

theorem exec_labelLine (t : Nat) (s : State) :
    exec (.labelLine t) s = .next (s.put (labelLine (s.tick t))) := rfl

theorem exec_blobClassify (t : Nat) (s : State) :
    exec (.blobClassify t) s = .next (s.put (acceptBlob (s.tick t))) := rfl

theorem exec_rotundaSweep (t : Nat) (roll : Fin 8) (s : State) :
    exec (.rotundaSweep t roll) s = .next (s.put (rotundaSweep roll (s.tick t))) := rfl

theorem exec_recordRingWrite (t : Nat) (s : State) :
    exec (.recordRingWrite t) s = .next (s.put (recordRingWrite (s.tick t))) := rfl

theorem exec_tileWrite (t : Nat) (s : State) :
    exec (.tileWrite t) s = .next (s.put (tileWrite (s.tick t))) := rfl

theorem exec_lateTileDelivery (t : Nat) (inTime : Bool) (errors : List ReadError) (s : State) :
    exec (.lateTileDelivery t inTime errors) s = .next (s.put (lateTile inTime errors (s.tick t))) := rfl

theorem exec_irqHoldoffExpiry (t : Nat) (channel : Fin 33) (s : State) :
    exec (.irqHoldoffExpiry t channel) s = .next (s.put (irqHoldoffExpiry channel (s.tick t))) := rfl

theorem exec_shadowPeriodStart (t : Nat) (s : State) :
    exec (.shadowPeriodStart t) s = .next (s.put (shadowStart (s.tick t))) := rfl

theorem exec_shadowBlockCompare (t block upset : Nat) (s : State) :
    exec (.shadowBlockCompare t block upset) s = .next (s.put (blockCompare block upset (s.tick t))) := rfl

theorem exec_engineFault (t : Nat) (engines : List (Fin 17)) (s : State) :
    exec (.engineFault t engines) s = .next (s.put ((fun c : Chip => enginesFault (engines.map Fin.val) c) (s.tick t))) := rfl

theorem exec_engineSelfTestDone (t : Nat) (engine : Fin 17) (passed : Bool) (s : State) :
    exec (.engineSelfTestDone t engine passed) s = .next (s.put (selfTestDone engine passed (s.tick t))) := rfl

theorem exec_orangeryBlockWrite (t : Nat) (staged : Bool) (s : State) :
    exec (.orangeryBlockWrite t staged) s = .next (s.put (blockWrite staged (s.tick t))) := rfl

theorem exec_orangeryFlushTimeout (t : Nat) (s : State) :
    exec (.orangeryFlushTimeout t) s = .next (s.put ((fun c : Chip => if quietFor (c.orangery.flushMs * 1000000) c then flushBlocks c else c) (s.tick t))) := rfl

theorem exec_lookbackJobStart (t : Nat) (s : State) :
    exec (.lookbackJobStart t) s = .next (s.put (jobStart (s.tick t))) := rfl

theorem exec_lookbackJobDone (t job : Nat) (errors : List ReadError) (s : State) :
    exec (.lookbackJobDone t job errors) s = .next (s.put (jobDone job errors (s.tick t))) := rfl

theorem exec_frameEmit (t : Nat) (stream : Fin 4) (rowsRead transmitRoom : Bool) (error : Option ReadError) (s : State) :
    exec (.frameEmit t stream rowsRead transmitRoom error) s = .next (s.put (frameEmit stream rowsRead transmitRoom error (s.tick t))) := rfl

theorem exec_rtcpSenderReport (t : Nat) (stream : Fin 4) (s : State) :
    exec (.rtcpSenderReport t stream) s = .next (s.put (senderReport stream (s.tick t))) := rfl

theorem exec_zipJobStart (t : Nat) (s : State) :
    exec (.zipJobStart t) s = .next (s.put (zipStart (s.tick t))) := rfl

theorem exec_zipJobDone (t job : Nat) (source : List Byte) (hwFault : Bool) (s : State) :
    exec (.zipJobDone t job source hwFault) s = .next (s.put (zipDone job source hwFault (s.tick t))) := rfl

theorem exec_markFire (t : Nat) (head : Fin 4) (s : State) :
    exec (.markFire t head) s = .next (s.put (markFire head (s.tick t))) := rfl

theorem exec_axisMoveComplete (t : Nat) (axis : Fin 4) (s : State) :
    exec (.axisMoveComplete t axis) s = .next (s.put (moveComplete axis (s.tick t))) := rfl

theorem exec_axisHoldDelay (t : Nat) (axis : Fin 4) (s : State) :
    exec (.axisHoldDelay t axis) s = .next (s.put ((fun c : Chip => modAxis axis (fun x =>
    if x.still ∧ (x.state = .idle ∨ x.state = .unreferenced) ∧ x.standstillAt + x.cfg.holdDelayMs * 1000000 ≤ c.now then { x with current := .hold } else x) c) (s.tick t))) := rfl

theorem exec_axisStall (t : Nat) (axis : Fin 4) (s : State) :
    exec (.axisStall t axis) s = .next (s.put (axisStall axis (s.tick t))) := rfl

theorem exec_axisDriverFault (t : Nat) (axis : Fin 4) (s : State) :
    exec (.axisDriverFault t axis) s = .next (s.put (driverFault axis (s.tick t))) := rfl

theorem exec_limitSwitch (t : Nat) (axis : Fin 4) (positive : Bool) (s : State) :
    exec (.limitSwitch t axis positive) s = .next (s.put (switchAsserted axis positive (s.tick t))) := rfl

theorem exec_switchChatter (t : Nat) (axis : Fin 4) (positive : Bool) (transitions : Nat) (s : State) :
    exec (.switchChatter t axis positive transitions) s = .next (s.put (switchChatter axis positive transitions (s.tick t))) := rfl

theorem exec_homeReference (t : Nat) (axis : Fin 4) (s : State) :
    exec (.homeReference t axis) s = .next (s.put (homeFound axis (s.tick t))) := rfl

theorem exec_homeBackoffDone (t : Nat) (axis : Fin 4) (s : State) :
    exec (.homeBackoffDone t axis) s = .next (s.put (homeBackoffDone axis (s.tick t))) := rfl

theorem exec_homeMaxTravel (t : Nat) (axis : Fin 4) (s : State) :
    exec (.homeMaxTravel t axis) s = .next (s.put (homeMaxTravel axis (s.tick t))) := rfl

theorem exec_ptpMessageReceived (t : Nat) (port : Fin 2) (msg : PtpMessage) (s : State) :
    exec (.ptpMessageReceived t port msg) s = .next (s.put (ptpReceive port msg (s.tick t))) := rfl

theorem exec_ptpMessageTransmit (t : Nat) (port : Fin 2) (messageType sequence domain : Nat) (s : State) :
    exec (.ptpMessageTransmit t port messageType sequence domain) s = .next (s.put (ptpTransmit port messageType sequence domain (s.tick t))) := rfl

theorem exec_ethFrameReceived (t : Nat) (port : Fin 2) (frame : EthFrame) (s : State) :
    exec (.ethFrameReceived t port frame) s = .next (s.put (ethReceive port frame (s.tick t))) := rfl

theorem exec_servoOffsetSample (t : Nat) (offset : Int) (s : State) :
    exec (.servoOffsetSample t offset) s = .next (s.put (offsetSample offset (s.tick t))) := rfl

theorem exec_pathDelaySample (t : Nat) (port : Fin 2) (mean : Int) (s : State) :
    exec (.pathDelaySample t port mean) s = .next (s.put (delaySample port mean (s.tick t))) := rfl

theorem exec_pathHoldExpiry (t : Nat) (s : State) :
    exec (.pathHoldExpiry t) s = .next (s.put (pathHoldExpiry (s.tick t))) := rfl

theorem exec_ppsInEdge (t : Nat) (rising : Bool) (s : State) :
    exec (.ppsInEdge t rising) s = .next (s.put (ppsIn rising (s.tick t))) := rfl

theorem exec_ppsInLost (t : Nat) (s : State) :
    exec (.ppsInLost t) s = .next (s.put (ppsLost (s.tick t))) := rfl

theorem exec_ref10mLoss (t : Nat) (s : State) :
    exec (.ref10mLoss t) s = .next (s.put (refLost (s.tick t))) := rfl

theorem exec_ppsOutEdge (t : Nat) (s : State) :
    exec (.ppsOutEdge t) s = .next (s.put (ppsOut (s.tick t))) := rfl

theorem exec_pulseBoundary (t : Nat) (output : Fin 8) (s : State) :
    exec (.pulseBoundary t output) s = .next (s.put (pulseBoundary output (s.tick t))) := rfl

theorem exec_pulseWidthEnd (t : Nat) (output : Fin 8) (s : State) :
    exec (.pulseWidthEnd t output) s = .next (s.put (pulseWidthEnd output (s.tick t))) := rfl

theorem exec_captureEdge (t : Nat) (input : Fin 4) (rising : Bool) (held : Nat) (s : State) :
    exec (.captureEdge t input rising held) s = .next (s.put (captureEdge input rising held (s.tick t))) := rfl

theorem exec_auxOutputSample (t : Nat) (ch : Fin 8) (samples : List Bool) (s : State) :
    exec (.auxOutputSample t ch samples) s = .next (s.put (auxOutput ch samples (s.tick t))) := rfl

theorem exec_auxOverloadChange (t : Nat) (ch : Fin 8) (samples : List Bool) (s : State) :
    exec (.auxOverloadChange t ch samples) s = .next (s.put (auxOverload ch samples (s.tick t))) := rfl

theorem exec_toneBlockEnd (t : Nat) (d : Fin 2) (s : State) :
    exec (.toneBlockEnd t d) s = .next (s.put (toneBlock d (s.tick t))) := rfl

theorem exec_auxRingEntryTimeout (t : Nat) (ch : Fin 8) (s : State) :
    exec (.auxRingEntryTimeout t ch) s = .next (s.put ((fun c : Chip => if (vget c.aux.ch ch).entryAt + 1000000 ≤ c.now then auxEntry ch c else c) (s.tick t))) := rfl

theorem exec_sarecTagReceived (t : Nat) (tag : Tag) (pitch : Option (Nat × Nat)) (s : State) :
    exec (.sarecTagReceived t tag pitch) s = .next (s.put (tagReceived tag pitch (s.tick t))) := rfl

theorem exec_followerTrigger (t : Nat) (s : State) :
    exec (.followerTrigger t) s = .next (s.put (followerTrigger (s.tick t))) := rfl

theorem exec_sarecLatencyMeasure (t : Nat) (link : Fin 2) (ns retried : Nat) (s : State) :
    exec (.sarecLatencyMeasure t link ns retried) s = .next (s.put (latencyMeasure link ns retried (s.tick t))) := rfl

theorem exec_sarecLinkLost (t : Nat) (link : Fin 4) (s : State) :
    exec (.sarecLinkLost t link) s = .next (s.put (sarecLost link (s.tick t))) := rfl

theorem exec_sarecLinkHealthy (t : Nat) (link : Fin 4) (s : State) :
    exec (.sarecLinkHealthy t link) s = .next (s.put (sarecHealthy link (s.tick t))) := rfl

theorem exec_gangForm (t : Nat) (nodes : List Nat) (encoders : Nat) (overlaps : List Nat) (s : State) :
    exec (.gangForm t nodes encoders overlaps) s = .next (s.put (gangForm nodes encoders overlaps (s.tick t))) := rfl

theorem exec_dramRefresh (t : Nat) (ch : Fin 4) (rank : Fin 2) (belvedereLeft : Nat) (s : State) :
    exec (.dramRefresh t ch rank belvedereLeft) s = .next (s.put (dramRefresh ch rank belvedereLeft (s.tick t))) := rfl

theorem exec_dramActivationLimit (t : Nat) (ch : Fin 4) (bank : Nat) (rows : List (Nat × List Nat)) (s : State) :
    exec (.dramActivationLimit t ch bank rows) s = .next (s.put (activationLimit ch bank rows (s.tick t))) := rfl

theorem exec_dramRefreshWindowEnd (t : Nat) (ch : Fin 4) (s : State) :
    exec (.dramRefreshWindowEnd t ch) s = .next (s.put ((fun c : Chip => modCh ch (fun d => { d with activations := [], throttled := [] }) c) (s.tick t))) := rfl

theorem exec_dramZqCalibration (t : Nat) (s : State) :
    exec (.dramZqCalibration t) s = .next (s.put ((fun c : Chip => c) (s.tick t))) := rfl

theorem exec_dramDqsTracking (t : Nat) (ch : Fin 4) (directions : List Int) (s : State) :
    exec (.dramDqsTracking t ch directions) s = .next (s.put (dqsTracking ch directions (s.tick t))) := rfl

theorem exec_dramRetrainStep (t : Nat) (ch : Fin 4) (eyePs eyeSteps centre : Nat) (s : State) :
    exec (.dramRetrainStep t ch eyePs eyeSteps centre) s = .next (s.put (retrainStep ch eyePs eyeSteps centre (s.tick t))) := rfl

theorem exec_dramSpeedSwitch (t : Nat) (ch : Fin 4) (s : State) :
    exec (.dramSpeedSwitch t ch) s = .next (s.put (speedSwitch ch (s.tick t))) := rfl

theorem exec_dramPatrolScrub (t : Nat) (ch : Fin 4) (errors : List ReadError) (extent : Option Nat) (rewritten : Bool) (permille : Nat) (s : State) :
    exec (.dramPatrolScrub t ch errors extent rewritten permille) s = .next (s.put (patrolScrub ch errors extent rewritten permille (s.tick t))) := rfl

theorem exec_sramScrub (t : Nat) (words : List SramWord) (s : State) :
    exec (.sramScrub t words) s = .next (s.put (sramScrub words (s.tick t))) := rfl

theorem exec_housekeepingRound (t : Nat) (round : Round) (s : State) :
    exec (.housekeepingRound t round) s = .next (s.put (housekeepingRound round (s.tick t))) := rfl

theorem exec_graceTimeExpiry (t : Nat) (s : State) :
    exec (.graceTimeExpiry t) s = .next (s.put (graceEnds (s.tick t))) := rfl

theorem exec_supplyDip (t : Nat) (monitor : Fin 32) (lowest durationUs : Nat) (s : State) :
    exec (.supplyDip t monitor lowest durationUs) s = .next (s.put (supplyDip monitor lowest durationUs (s.tick t))) := rfl

theorem exec_supplyExcursionSustained (t : Nat) (monitor : Fin 32) (lowest : Nat) (s : State) :
    exec (.supplyExcursionSustained t monitor lowest) s = .next (s.put ((fun c : Chip => supplyWarn monitor 1 lowest 10000 (modSupply (fun x => { x with
    lastExcursion := c.now, outside := x.outside.filter (· != monitor.val) ++ [monitor.val] }) c)) (s.tick t))) := rfl

theorem exec_supplyOver (t : Nat) (monitor : Fin 32) (lowest durationUs : Nat) (s : State) :
    exec (.supplyOver t monitor lowest durationUs) s = .next (s.put ((fun c : Chip => supplyWarn monitor 2 lowest durationUs (modSupply (fun x => { x with lastExcursion := c.now }) c)) (s.tick t))) := rfl

theorem exec_supplyHoldEnd (t : Nat) (s : State) :
    exec (.supplyHoldEnd t) s = .next (s.put ((fun c : Chip => if c.supply.outside.isEmpty && decide (c.supply.lastExcursion + 100000000 ≤ c.now) then modSupply (fun x => { x with held := false }) c else c) (s.tick t))) := rfl

theorem exec_supplyUnstableClear (t : Nat) (s : State) :
    exec (.supplyUnstableClear t) s = .next (s.put (unstableClears (s.tick t))) := rfl

theorem exec_supplyReset (t : Nat) (monitor : Fin 32) (s : State) :
    exec (.supplyReset t monitor) s = .next (s.put (supplyReset monitor (s.tick t))) := rfl

theorem exec_lifeSummary (t : Nat) (s : State) :
    exec (.lifeSummary t) s = .next (s.put (lifeSummary (s.tick t))) := rfl

theorem exec_lifeCheckpoint (t : Nat) (s : State) :
    exec (.lifeCheckpoint t) s = .next (s.put (checkpoint (s.tick t))) := rfl

theorem exec_lifeJournalWrite (t : Nat) (s : State) :
    exec (.lifeJournalWrite t) s = .next (s.put (journalWrite (s.tick t))) := rfl

theorem exec_telemetry (t : Nat) (s : State) :
    exec (.telemetry t) s = .next (s.put (telemetry (s.tick t))) := rfl

theorem exec_tamperAssert (t : Nat) (source : Fin 9) (powered : Bool) (s : State) :
    exec (.tamperAssert t source powered) s = .next (s.put (tamperAssert source powered (s.tick t))) := rfl

theorem exec_sessionChallengeExpiry (t : Nat) (mb : Fin 8) (unlock : Bool) (s : State) :
    exec (.sessionChallengeExpiry t mb unlock) s = .next (s.put ((fun c : Chip => if (challengeOf c unlock mb).isNone then setChallenge unlock mb none c else c) (s.tick t))) := rfl

theorem exec_sessionIdleTimeout (t : Nat) (mb : Fin 8) (s : State) :
    exec (.sessionIdleTimeout t mb) s = .next (s.put (sessionIdle mb (s.tick t))) := rfl

theorem exec_proofLockoutEnd (t : Nat) (s : State) :
    exec (.proofLockoutEnd t) s = .next (s.put ((fun c : Chip => modSec (fun x => { x with lockoutUntil := x.lockoutUntil.filter fun u => decide (c.now < u) }) c) (s.tick t))) := rfl

theorem exec_eventRingWrite (t : Nat) (s : State) :
    exec (.eventRingWrite t) s = .next (s.put ((fun c : Chip => writeHeldEvent (writeEventsLost c)) (s.tick t))) := rfl

theorem exec_rateLimitSecondEnd (t code inst : Nat) (s : State) :
    exec (.rateLimitSecondEnd t code inst) s = .next (s.put (endRateSecond code inst (s.tick t))) := rfl

theorem exec_dmaDescriptor (t : Nat) (ch : Fin 32) (desc data : List Byte) (fault : Option (Nat × Nat × Nat)) (nextAgain : Nat) (s : State) :
    exec (.dmaDescriptor t ch desc data fault nextAgain) s = .next (s.put (runDescriptor ch desc data fault nextAgain s.bulk (s.tick t))) := rfl

theorem exec_dmaStopEffect (t : Nat) (ch : Fin 32) (desc data : List Byte) (lines : Nat) (s : State) :
    exec (.dmaStopEffect t ch desc data lines) s = .next (s.put (stopEffect ch desc data lines s.bulk (s.tick t))) := rfl

theorem exec_modeConditionReport (t : Nat) (s : State) :
    exec (.modeConditionReport t) s = .next (s.put ((fun c : Chip => if c.modes.boot = .done ∧ firmwareRuns c then reportMode c else c) (s.tick t))) := rfl

theorem exec_modeExitDrainComplete (t : Nat) (s : State) :
    exec (.modeExitDrainComplete t) s = .next (s.put (drainEnds (s.tick t))) := rfl

theorem exec_calPhaseDone (t : Nat) (s : State) :
    exec (.calPhaseDone t) s = .next (s.put (calPhaseDone (s.tick t))) := rfl

theorem exec_calTimeout (t : Nat) (s : State) :
    exec (.calTimeout t) s = .next (s.put ((fun c : Chip => match c.cal.run with
    | some r => if r.deadline ≤ c.now then calEnd stTimeout 0 c else c
    | none => c) (s.tick t))) := rfl

theorem exec_calAuxDone (t : Nat) (s : State) :
    exec (.calAuxDone t) s = .next (s.put (calAuxDone (s.tick t))) := rfl

theorem exec_calLinksDone (t : Nat) (heights : List Nat) (s : State) :
    exec (.calLinksDone t heights) s = .next (s.put (calLinksDone heights (s.tick t))) := rfl

theorem exec_lockstepRecovery (t : Nat) (ended : Bool) (s : State) :
    exec (.lockstepRecovery t ended) s = .next (s.put ((fun c : Chip => if ended then lockstepEnds c else lockstepStarts c) (s.tick t))) := rfl

theorem exec_lodgeCheckpoint (t : Nat) (s : State) :
    exec (.lodgeCheckpoint t) s = .next (s.put ((fun c : Chip => if firmwareRuns c then modModes (fun m => { m with checkpointAt := c.now }) c else c) (s.tick t))) := rfl

theorem exec_fwActivationRestart (t : Nat) (begins ok : Bool) (s : State) :
    exec (.fwActivationRestart t begins ok) s = .next (s.put ((fun c : Chip => if begins then restartBegins c else restartEnds ok c) (s.tick t))) := rfl

theorem exec_powerOnReset (t : Nat) (batteryLost : Bool) (bankA bankB : GpBank) (s : State) :
    exec (.powerOnReset t batteryLost bankA bankB) s = .next (s.put (powerOnReset batteryLost bankA bankB (s.tick t))) := rfl

theorem exec_resetNAssert (t : Nat) (s : State) :
    exec (.resetNAssert t) s = .next (s.put (resetN (s.tick t))) := rfl

theorem exec_perstNRise (t width speed : Nat) (s : State) :
    exec (.perstNRise t width speed) s = .next (s.put (perstRise width speed (s.tick t))) := rfl

theorem exec_bootComplete (t passes : Nat) (dram : List (Option BootDram)) (s : State) :
    exec (.bootComplete t passes dram) s = .next (s.put (bootEnds passes dram (s.tick t))) := rfl

theorem exec_hostInterfaceReset (t : Nat) (_kind : Fin 4) (width speed : Nat) (s : State) :
    exec (.hostInterfaceReset t _kind width speed) s = .next (s.put ((fun c : Chip => let c := hostInterfaceReset c
    { c with pcie := trained width speed c.pcie }) (s.tick t))) := by rw [exec, execHostInterfaceReset, State.run_eq_put]

theorem exec_powerStateChange (t : Nat) (d3hot : Bool) (s : State) :
    exec (.powerStateChange t d3hot) s = .next (s.put (powerState d3hot (s.tick t))) := rfl

theorem exec_mbxResponseWrite (t value : Nat) (s : State) :
    exec (.mbxResponseWrite t value) s = .next (s.put (mbxResponseWrite value (s.tick t))) := rfl

theorem exec_mbxIgnoredRead (t : Nat) (part : Fin 3) (s : State) :
    exec (.mbxIgnoredRead t part) s = .next (s.put (mbxIgnoredRead part (s.tick t))) := rfl

theorem exec_evqTailWrite (t value : Nat) (s : State) :
    exec (.evqTailWrite t value) s = .next (s.put (evqTailWrite value (s.tick t))) := rfl

theorem exec_dmaChainWrite (t : Nat) (ch : Fin 32) (value : Nat) (s : State) :
    exec (.dmaChainWrite t ch value) s = .next (s.put (dmaChainWrite ch value (s.tick t))) := rfl

theorem exec_dmaDoorbell (t : Nat) (ch : Fin 32) (nextAgain : Nat) (s : State) :
    exec (.dmaDoorbell t ch nextAgain) s = .next (s.put (dmaDoorbell ch nextAgain (s.tick t))) := rfl

theorem exec_dmaStopRequest (t : Nat) (ch : Fin 32) (s : State) :
    exec (.dmaStopRequest t ch) s = .next (s.put (dmaStopRequest ch (s.tick t))) := rfl

theorem exec_dmaTailWrite (t : Nat) (ch : Fin 32) (value : Nat) (s : State) :
    exec (.dmaTailWrite t ch value) s = .next (s.put (dmaTailWrite ch value (s.tick t))) := rfl

theorem exec_sdlSubsecRead (t : Nat) (upper : Bool) (s : State) :
    exec (.sdlSubsecRead t upper) s = .next (s.put (sdlSubsecRead upper (s.tick t))) := rfl

theorem exec_lowerHalfRead (t : Nat) (offset : Nat) (part : Fin 4) (s : State) :
    exec (.lowerHalfRead t offset part) s = .next (s.put (registerRead offset part (s.tick t))) := rfl

theorem exec_msixEntryWrite (t : Nat) (vector : Fin 64) (word : Fin 4) (value : Nat) (s : State) :
    exec (.msixEntryWrite t vector word value) s = .next (s.put (msixWrite vector word value (s.tick t))) := rfl

theorem exec_registerWrite (t offset length value : Nat) (s : State) :
    exec (.registerWrite t offset length value) s = .next (s.put (registerWrite offset length value (s.tick t))) := rfl

theorem exec_calFlatField (t : Nat) (mb : Fin 8) (s : State) :
    exec (.calFlatField t mb) s = .next (s.command 0x0400 t mb calFlatField) := rfl

theorem exec_calGeometry (t : Nat) (mb : Fin 8) (s : State) :
    exec (.calGeometry t mb) s = .next (s.command 0x0401 t mb calGeometry) := rfl

theorem exec_calGetResult (t : Nat) (mb : Fin 8) (error : Option ReadError) (s : State) :
    exec (.calGetResult t mb error) s = .next (s.command 0x0402 t mb (withArea error calGetResult)) := rfl

theorem exec_pipeSetCorrection (t : Nat) (mb : Fin 8) (s : State) :
    exec (.pipeSetCorrection t mb) s = .next (s.command 0x0500 t mb pipeSetCorrection) := rfl

theorem exec_pipeSetStitch (t : Nat) (mb : Fin 8) (s : State) :
    exec (.pipeSetStitch t mb) s = .next (s.command 0x0501 t mb pipeSetStitch) := rfl

theorem exec_pipeSetReference (t : Nat) (mb : Fin 8) (s : State) :
    exec (.pipeSetReference t mb) s = .next (s.command 0x0502 t mb pipeSetReference) := rfl

theorem exec_pipeSetDetection (t : Nat) (mb : Fin 8) (s : State) :
    exec (.pipeSetDetection t mb) s = .next (s.command 0x0503 t mb pipeSetDetection) := rfl

theorem exec_pipeSetFilters (t : Nat) (mb : Fin 8) (s : State) :
    exec (.pipeSetFilters t mb) s = .next (s.command 0x0504 t mb pipeSetFilters) := rfl

theorem exec_pipeSetLabelling (t : Nat) (mb : Fin 8) (s : State) :
    exec (.pipeSetLabelling t mb) s = .next (s.command 0x0505 t mb pipeSetLabelling) := rfl

theorem exec_pipeSetTiles (t : Nat) (mb : Fin 8) (s : State) :
    exec (.pipeSetTiles t mb) s = .next (s.command 0x0508 t mb pipeSetTiles) := rfl

theorem exec_pipeLoadClassifier (t : Nat) (mb : Fin 8) (s : State) :
    exec (.pipeLoadClassifier t mb) s = .next (s.command 0x0506 t mb pipeLoadClassifier) := rfl

theorem exec_pipeSetRecurrence (t : Nat) (mb : Fin 8) (s : State) :
    exec (.pipeSetRecurrence t mb) s = .next (s.command 0x0507 t mb pipeSetRecurrence) := rfl

theorem exec_outSetRecordRing (t : Nat) (mb : Fin 8) (s : State) :
    exec (.outSetRecordRing t mb) s = .next (s.command 0x0700 t mb outSetRecordRing) := rfl

theorem exec_outSetTileRing (t : Nat) (mb : Fin 8) (s : State) :
    exec (.outSetTileRing t mb) s = .next (s.command 0x0701 t mb outSetTileRing) := rfl

theorem exec_outGetStats (t : Nat) (mb : Fin 8) (s : State) :
    exec (.outGetStats t mb) s = .next (s.command 0x0705 t mb (getStats 15)) := rfl

theorem exec_lookbackConfigure (t : Nat) (mb : Fin 8) (s : State) :
    exec (.lookbackConfigure t mb) s = .next (s.command 0x0800 t mb lookbackConfigure) := rfl

theorem exec_lookbackRetrieve (t : Nat) (mb : Fin 8) (s : State) :
    exec (.lookbackRetrieve t mb) s = .next (s.command 0x0801 t mb lookbackRetrieve) := rfl

theorem exec_lookbackReplay (t : Nat) (mb : Fin 8) (s : State) :
    exec (.lookbackReplay t mb) s = .next (s.command 0x0802 t mb lookbackReplay) := rfl

theorem exec_lookbackPin (t : Nat) (mb : Fin 8) (s : State) :
    exec (.lookbackPin t mb) s = .next (s.command 0x0803 t mb lookbackPin) := rfl

theorem exec_lookbackStatus (t : Nat) (mb : Fin 8) (s : State) :
    exec (.lookbackStatus t mb) s = .next (s.command 0x0804 t mb lookbackStatus) := rfl

theorem exec_viewConfigure (t : Nat) (mb : Fin 8) (s : State) :
    exec (.viewConfigure t mb) s = .next (s.command 0x0702 t mb viewConfigure) := rfl

theorem exec_viewStreamStart (t : Nat) (mb : Fin 8) (s : State) :
    exec (.viewStreamStart t mb) s = .next (s.command 0x0703 t mb viewStart) := rfl

theorem exec_viewStreamStop (t : Nat) (mb : Fin 8) (s : State) :
    exec (.viewStreamStop t mb) s = .next (s.command 0x0704 t mb viewStop) := rfl

theorem exec_zipSubmit (t : Nat) (mb : Fin 8) (s : State) :
    exec (.zipSubmit t mb) s = .next (s.command 0x0900 t mb zipSubmit) := rfl

theorem exec_zipStatus (t : Nat) (mb : Fin 8) (s : State) :
    exec (.zipStatus t mb) s = .next (s.command 0x0901 t mb zipStatus) := rfl

theorem exec_zipCancel (t : Nat) (mb : Fin 8) (s : State) :
    exec (.zipCancel t mb) s = .next (s.command 0x0902 t mb zipCancel) := rfl

theorem exec_ledgerOpen (t : Nat) (mb : Fin 8) (s : State) :
    exec (.ledgerOpen t mb) s = .next (s.command 0x0600 t mb ledgerOpen) := rfl

theorem exec_ledgerCommit (t : Nat) (mb : Fin 8) (error : Option ReadError) (s : State) :
    exec (.ledgerCommit t mb error) s = .next (s.command 0x0601 t mb (withArea error ledgerCommit)) := rfl

theorem exec_ledgerAbort (t : Nat) (mb : Fin 8) (s : State) :
    exec (.ledgerAbort t mb) s = .next (s.command 0x0602 t mb ledgerAbort) := rfl

theorem exec_ledgerStatus (t : Nat) (mb : Fin 8) (s : State) :
    exec (.ledgerStatus t mb) s = .next (s.command 0x0603 t mb ledgerStatus) := rfl

theorem exec_axisConfigure (t : Nat) (mb : Fin 8) (s : State) :
    exec (.axisConfigure t mb) s = .next (s.command 0x0B00 t mb axisConfigure) := rfl

theorem exec_axisHome (t : Nat) (mb : Fin 8) (s : State) :
    exec (.axisHome t mb) s = .next (s.command 0x0B01 t mb axisHome) := rfl

theorem exec_axisMove (t : Nat) (mb : Fin 8) (s : State) :
    exec (.axisMove t mb) s = .next (s.command 0x0B02 t mb axisMove) := rfl

theorem exec_axisStop (t : Nat) (mb : Fin 8) (s : State) :
    exec (.axisStop t mb) s = .next (s.command 0x0B03 t mb axisStop) := rfl

theorem exec_axisStatus (t : Nat) (mb : Fin 8) (s : State) :
    exec (.axisStatus t mb) s = .next (s.command 0x0B04 t mb axisStatus) := rfl

theorem exec_markConfigure (t : Nat) (mb : Fin 8) (s : State) :
    exec (.markConfigure t mb) s = .next (s.command 0x0B05 t mb markConfigure) := rfl

theorem exec_timeGet (t : Nat) (mb : Fin 8) (s : State) :
    exec (.timeGet t mb) s = .next (s.command 0x0A00 t mb timeGet) := rfl

theorem exec_timeSet (t : Nat) (mb : Fin 8) (s : State) :
    exec (.timeSet t mb) s = .next (s.command 0x0A01 t mb timeSet) := rfl

theorem exec_ptpConfigure (t : Nat) (mb : Fin 8) (s : State) :
    exec (.ptpConfigure t mb) s = .next (s.command 0x0A02 t mb ptpConfigure) := rfl

theorem exec_ptpStatus (t : Nat) (mb : Fin 8) (s : State) :
    exec (.ptpStatus t mb) s = .next (s.command 0x0A03 t mb ptpStatus) := rfl

theorem exec_servoConfigure (t : Nat) (mb : Fin 8) (s : State) :
    exec (.servoConfigure t mb) s = .next (s.command 0x0A04 t mb servoConfigure) := rfl

theorem exec_pulseSchedule (t : Nat) (mb : Fin 8) (s : State) :
    exec (.pulseSchedule t mb) s = .next (s.command 0x0A05 t mb pulseSchedule) := rfl

theorem exec_pulseCancel (t : Nat) (mb : Fin 8) (s : State) :
    exec (.pulseCancel t mb) s = .next (s.command 0x0A06 t mb pulseCancel) := rfl

theorem exec_captureConfigure (t : Nat) (mb : Fin 8) (s : State) :
    exec (.captureConfigure t mb) s = .next (s.command 0x0A07 t mb captureConfigure) := rfl

theorem exec_auxConfigure (t : Nat) (mb : Fin 8) (s : State) :
    exec (.auxConfigure t mb) s = .next (s.command 0x0C00 t mb auxConfigure) := rfl

theorem exec_auxLoadCoeffs (t : Nat) (mb : Fin 8) (s : State) :
    exec (.auxLoadCoeffs t mb) s = .next (s.command 0x0C01 t mb auxLoadCoeffs) := rfl

theorem exec_auxSwapBank (t : Nat) (mb : Fin 8) (s : State) :
    exec (.auxSwapBank t mb) s = .next (s.command 0x0C02 t mb auxSwapBank) := rfl

theorem exec_auxToneConfigure (t : Nat) (mb : Fin 8) (s : State) :
    exec (.auxToneConfigure t mb) s = .next (s.command 0x0C03 t mb auxToneConfigure) := rfl

theorem exec_auxRead (t : Nat) (mb : Fin 8) (s : State) :
    exec (.auxRead t mb) s = .next (s.command 0x0C04 t mb auxRead) := rfl

theorem exec_calAux (t : Nat) (mb : Fin 8) (s : State) :
    exec (.calAux t mb) s = .next (s.command 0x0404 t mb calAux) := rfl

theorem exec_calLinks (t : Nat) (mb : Fin 8) (s : State) :
    exec (.calLinks t mb) s = .next (s.command 0x0403 t mb calLinks) := rfl

theorem exec_gangConfigure (t : Nat) (mb : Fin 8) (s : State) :
    exec (.gangConfigure t mb) s = .next (s.command 0x0F00 t mb gangConfigure) := rfl

theorem exec_gangStatus (t : Nat) (mb : Fin 8) (s : State) :
    exec (.gangStatus t mb) s = .next (s.command 0x0F01 t mb gangStatus) := rfl

theorem exec_dramStatus (t : Nat) (mb : Fin 8) (s : State) :
    exec (.dramStatus t mb) s = .next (s.command 0x0D05 t mb dramStatusCmd) := rfl

theorem exec_sysSetEventRing (t : Nat) (mb : Fin 8) (s : State) :
    exec (.sysSetEventRing t mb) s = .next (s.command 0x0107 t mb setEventRing) := rfl

theorem exec_sysSetEventMask (t : Nat) (mb : Fin 8) (s : State) :
    exec (.sysSetEventMask t mb) s = .next (s.command 0x0108 t mb setEventMask) := rfl

theorem exec_healthStatus (t : Nat) (mb : Fin 8) (s : State) :
    exec (.healthStatus t mb) s = .next (s.command 0x0D00 t mb healthStatus) := rfl

theorem exec_thermalConfigure (t : Nat) (mb : Fin 8) (s : State) :
    exec (.thermalConfigure t mb) s = .next (s.command 0x0D01 t mb thermalConfigure) := rfl

theorem exec_thermalAckRequest (t : Nat) (mb : Fin 8) (s : State) :
    exec (.thermalAckRequest t mb) s = .next (s.command 0x0D02 t mb thermalAck) := rfl

theorem exec_lifeRead (t : Nat) (mb : Fin 8) (s : State) :
    exec (.lifeRead t mb) s = .next (s.command 0x0D03 t mb lifeRead) := rfl

theorem exec_lifeSetCalendar (t : Nat) (mb : Fin 8) (s : State) :
    exec (.lifeSetCalendar t mb) s = .next (s.command 0x0D04 t mb lifeSetCalendar) := rfl

theorem exec_secSessionOpen (t : Nat) (mb : Fin 8) (s : State) :
    exec (.secSessionOpen t mb) s = .next (s.command 0x0E00 t mb sessionOpen) := rfl

theorem exec_secSessionClose (t : Nat) (mb : Fin 8) (s : State) :
    exec (.secSessionClose t mb) s = .next (s.command 0x0E01 t mb sessionClose) := rfl

theorem exec_secFuseRead (t : Nat) (mb : Fin 8) (s : State) :
    exec (.secFuseRead t mb) s = .next (s.command 0x0E03 t mb fuseRead) := rfl

theorem exec_secFuseWrite (t : Nat) (mb : Fin 8) (s : State) :
    exec (.secFuseWrite t mb) s = .next (s.command 0x0E02 t mb fuseWrite) := rfl

theorem exec_secKeyLoad (t : Nat) (mb : Fin 8) (s : State) :
    exec (.secKeyLoad t mb) s = .next (s.command 0x0E04 t mb keyLoad) := rfl

theorem exec_secTamperConfigure (t : Nat) (mb : Fin 8) (s : State) :
    exec (.secTamperConfigure t mb) s = .next (s.command 0x0E05 t mb tamperConfigure) := rfl

theorem exec_secUnlock (t : Nat) (mb : Fin 8) (s : State) :
    exec (.secUnlock t mb) s = .next (s.command 0x0E06 t mb secUnlock) := rfl

theorem exec_sysGetInfo (t : Nat) (mb : Fin 8) (s : State) :
    exec (.sysGetInfo t mb) s = .next (s.command 0x0100 t mb getInfo) := rfl

theorem exec_sysGetCaps (t : Nat) (mb : Fin 8) (s : State) :
    exec (.sysGetCaps t mb) s = .next (s.command 0x0101 t mb getCaps) := rfl

theorem exec_sysGetMode (t : Nat) (mb : Fin 8) (s : State) :
    exec (.sysGetMode t mb) s = .next (s.command 0x0103 t mb getMode) := rfl

theorem exec_sysSetMode (t : Nat) (mb : Fin 8) (s : State) :
    exec (.sysSetMode t mb) s = .next (s.command 0x0102 t mb setMode) := rfl

theorem exec_sysResetSubsystem (t : Nat) (mb : Fin 8) (s : State) :
    exec (.sysResetSubsystem t mb) s = .next (s.command 0x0104 t mb resetSubsystem) := rfl

theorem exec_sysFwStage (t : Nat) (mb : Fin 8) (s : State) :
    exec (.sysFwStage t mb) s = .next (s.put ((fun c : Chip => if c.supply.held then c else runJob (fun j => j.code == 0x0105 && j.rawCode == 0x0105) mb (fun who => fwStage ⟨who, s.bulk⟩) c) (s.tick t))) := rfl

theorem exec_sysFwActivate (t : Nat) (mb : Fin 8) (s : State) :
    exec (.sysFwActivate t mb) s = .next (s.command 0x0106 t mb fwActivate) := rfl

theorem exec_sysExportConfig (t : Nat) (mb : Fin 8) (error : Option ReadError) (s : State) :
    exec (.sysExportConfig t mb error) s = .next (s.command 0x0109 t mb (withArea error exportConfig)) := rfl

theorem exec_sysImportConfig (t : Nat) (mb : Fin 8) (s : State) :
    exec (.sysImportConfig t mb) s = .next (s.command 0x010A t mb importConfig) := rfl

theorem exec_legacyCommand (t : Nat) (mb : Fin 8) (s : State) :
    exec (.legacyCommand t mb) s = .next (s.put ((fun c : Chip => runJob (fun j => j.rawCode != j.code && !legacySetting j.rawCode) mb (fun who => legacyCommand ⟨who, s.bulk⟩) c) (s.tick t))) := rfl

theorem exec_legacySettingCommand (t : Nat) (mb : Fin 8) (s : State) :
    exec (.legacySettingCommand t mb) s = .next (s.put ((fun c : Chip => legacySettingStep ⟨mb, s.bulk⟩ c) (s.tick t))) := rfl

theorem exec_mailboxDoorbell (t : Nat) (mb : Fin 8) (s : State) :
    exec (.mailboxDoorbell t mb) s = .next (s.put (doorbell mb (s.tick t))) := rfl

theorem exec_configureSelfTestDone (t : Nat) (failed : Nat) (runs : List (Nat × Nat × List (Nat × Nat × Nat))) (s : State) :
    exec (.configureSelfTestDone t failed runs) s = .next (s.put (selfTestEnds failed runs (s.tick t))) := rfl

theorem exec_ethLinkChange (t : Nat) (port : Fin 2) (up : Bool) (s : State) :
    exec (.ethLinkChange t port up) s = .next (s.put (ethLink port up (s.tick t))) := rfl

theorem exec_announceReceiptTimeout (t : Nat) (port : Fin 2) (s : State) :
    exec (.announceReceiptTimeout t port) s = .next (s.put (announceTimeout port (s.tick t))) := rfl

theorem exec_switchStateAccepted (t : Nat) (axis : Fin 4) (positive asserted : Bool) (s : State) :
    exec (.switchStateAccepted t axis positive asserted) s = .next (s.put (switchAccepted axis positive asserted (s.tick t))) := rfl

theorem exec_tamperClear (t : Nat) (source : Fin 9) (powered : Bool) (s : State) :
    exec (.tamperClear t source powered) s = .next (s.put (tamperClear source powered (s.tick t))) := rfl

theorem exec_debugAccessOpen (t : Nat) (proved : Bool) (s : State) :
    exec (.debugAccessOpen t proved) s = .next (s.put (debugOpen proved (s.tick t))) := rfl

theorem exec_gangExchangeReceived (t : Nat) (x : GangExchange) (s : State) :
    exec (.gangExchangeReceived t x) s = .next (s.put (exchangeReceived x (s.tick t))) := rfl

end Sys2Proof.Machine
end

