-- ==== Sys2Proof/Laws/State.lean ====
section
/-! SUPPORT. The fields of the device under each update and each shared operation, one lemma each, so that no proof unfolds a record
update: what changing a field does to the quiet part of the device, and which fields the shared operations leave as they are. -/
namespace Sys2Proof.Machine

/-! ### A field of the device set -/

@[simp] theorem quiet_modes (c : Chip) (x : Modes) : ({ c with modes := x } : Chip).quiet = { c.quiet with modes := x } := rfl
@[simp] theorem quiet_fw (c : Chip) (x : Firmware) : ({ c with fw := x } : Chip).quiet = { c.quiet with fw := x } := rfl
@[simp] theorem quiet_regs (c : Chip) (x : Regs) : ({ c with regs := x } : Chip).quiet = { c.quiet with regs := x } := rfl
@[simp] theorem quiet_enc (c : Chip) (x : Vector Enc 8) : ({ c with enc := x } : Chip).quiet = { c.quiet with enc := x } := rfl
@[simp] theorem quiet_trig (c : Chip) (x : Trig) : ({ c with trig := x } : Chip).quiet = { c.quiet with trig := x } := rfl
@[simp] theorem quiet_ledger (c : Chip) (x : Ledger) : ({ c with ledger := x } : Chip).quiet = { c.quiet with ledger := x } := rfl
@[simp] theorem quiet_older (c : Chip) (x : List (Nat × Settings)) : ({ c with older := x } : Chip).quiet = { c.quiet with older := x } := rfl
@[simp] theorem quiet_port (c : Chip) (x : Vector Port 16) : ({ c with port := x } : Chip).quiet = { c.quiet with port := x } := rfl
@[simp] theorem quiet_lane (c : Chip) (x : Vector Lane 16) : ({ c with lane := x } : Chip).quiet = { c.quiet with lane := x } := rfl
@[simp] theorem quiet_vcam (c : Chip) (x : Vector Vcam 4) : ({ c with vcam := x } : Chip).quiet = { c.quiet with vcam := x } := rfl
@[simp] theorem quiet_corr (c : Chip) (x : Vector Corr 16) : ({ c with corr := x } : Chip).quiet = { c.quiet with corr := x } := rfl
@[simp] theorem quiet_cal (c : Chip) (x : Cal) : ({ c with cal := x } : Chip).quiet = { c.quiet with cal := x } := rfl
@[simp] theorem quiet_seam (c : Chip) (x : Vector Seam 15) : ({ c with seam := x } : Chip).quiet = { c.quiet with seam := x } := rfl
@[simp] theorem quiet_engines (c : Chip) (x : Engines) : ({ c with engines := x } : Chip).quiet = { c.quiet with engines := x } := rfl
@[simp] theorem quiet_perg (c : Chip) (x : Pergola) : ({ c with perg := x } : Chip).quiet = { c.quiet with perg := x } := rfl
@[simp] theorem quiet_det (c : Chip) (x : Det) : ({ c with det := x } : Chip).quiet = { c.quiet with det := x } := rfl
@[simp] theorem quiet_carry (c : Chip) (x : Carry) : ({ c with carry := x } : Chip).quiet = { c.quiet with carry := x } := rfl
@[simp] theorem quiet_records (c : Chip) (x : Records) : ({ c with records := x } : Chip).quiet = { c.quiet with records := x } := rfl
@[simp] theorem quiet_tiles (c : Chip) (x : Tiles) : ({ c with tiles := x } : Chip).quiet = { c.quiet with tiles := x } := rfl
@[simp] theorem quiet_abacus (c : Chip) (x : Abacus) : ({ c with abacus := x } : Chip).quiet = { c.quiet with abacus := x } := rfl
@[simp] theorem quiet_rotunda (c : Chip) (x : Rotunda) : ({ c with rotunda := x } : Chip).quiet = { c.quiet with rotunda := x } := rfl
@[simp] theorem quiet_orangery (c : Chip) (x : Orangery) : ({ c with orangery := x } : Chip).quiet = { c.quiet with orangery := x } := rfl
@[simp] theorem quiet_view (c : Chip) (x : Vector View 4) : ({ c with view := x } : Chip).quiet = { c.quiet with view := x } := rfl
@[simp] theorem quiet_zip (c : Chip) (x : Zip) : ({ c with zip := x } : Chip).quiet = { c.quiet with zip := x } := rfl
@[simp] theorem quiet_axis (c : Chip) (x : Vector Axis 4) : ({ c with axis := x } : Chip).quiet = { c.quiet with axis := x } := rfl
@[simp] theorem quiet_gp (c : Chip) (x : Vector GpBank 2) : ({ c with gp := x } : Chip).quiet = { c.quiet with gp := x } := rfl
@[simp] theorem quiet_mark (c : Chip) (x : Marking) : ({ c with mark := x } : Chip).quiet = { c.quiet with mark := x } := rfl
@[simp] theorem quiet_time (c : Chip) (x : Time) : ({ c with time := x } : Chip).quiet = { c.quiet with time := x } := rfl
@[simp] theorem quiet_aux (c : Chip) (x : AuxChain) : ({ c with aux := x } : Chip).quiet = { c.quiet with aux := x } := rfl
@[simp] theorem quiet_gang (c : Chip) (x : Gang) : ({ c with gang := x } : Chip).quiet = { c.quiet with gang := x } := rfl
@[simp] theorem quiet_dram (c : Chip) (x : Dram) : ({ c with dram := x } : Chip).quiet = { c.quiet with dram := x } := rfl
@[simp] theorem quiet_health (c : Chip) (x : Health) : ({ c with health := x } : Chip).quiet = { c.quiet with health := x } := rfl
@[simp] theorem quiet_supply (c : Chip) (x : Supply) : ({ c with supply := x } : Chip).quiet = { c.quiet with supply := x } := rfl
@[simp] theorem quiet_sec (c : Chip) (x : Security) : ({ c with sec := x } : Chip).quiet = { c.quiet with sec := x } := rfl
@[simp] theorem quiet_rates (c : Chip) (x : List RateWindow) : ({ c with rates := x } : Chip).quiet = c.quiet := rfl
@[simp] theorem quiet_saturated (c : Chip) (x : List (Nat × Nat × Nat)) : ({ c with saturated := x } : Chip).quiet = c.quiet := rfl
@[simp] theorem quiet_fresh (c : Chip) (x : Nat) : ({ c with fresh := x } : Chip).quiet = c.quiet := rfl

/-! ### The effects still to land -/

@[simp] theorem spares_now (c : Chip) (x : Nat) : ({ c with now := x } : Chip).spares = c.spares := rfl
@[simp] theorem spares_fresh (c : Chip) (x : Nat) : ({ c with fresh := x } : Chip).spares = c.spares := rfl
@[simp] theorem spares_modes (c : Chip) (x : Modes) : ({ c with modes := x } : Chip).spares = c.spares := rfl
@[simp] theorem spares_fw (c : Chip) (x : Firmware) : ({ c with fw := x } : Chip).spares = c.spares := rfl
@[simp] theorem spares_pcie (c : Chip) (x : Pcie) : ({ c with pcie := x } : Chip).spares = c.spares := rfl
@[simp] theorem spares_evq (c : Chip) (x : EventQueue) : ({ c with evq := x } : Chip).spares = c.spares := rfl
@[simp] theorem spares_rates (c : Chip) (x : List RateWindow) : ({ c with rates := x } : Chip).spares = c.spares := rfl
@[simp] theorem spares_regs (c : Chip) (x : Regs) : ({ c with regs := x } : Chip).spares = c.spares := rfl
@[simp] theorem spares_enc (c : Chip) (x : Vector Enc 8) : ({ c with enc := x } : Chip).spares = c.spares := rfl
@[simp] theorem spares_trig (c : Chip) (x : Trig) : ({ c with trig := x } : Chip).spares = c.spares := rfl
@[simp] theorem spares_ledger (c : Chip) (x : Ledger) : ({ c with ledger := x } : Chip).spares = c.spares := rfl
@[simp] theorem spares_older (c : Chip) (x : List (Nat × Settings)) : ({ c with older := x } : Chip).spares = c.spares := rfl
@[simp] theorem spares_port (c : Chip) (x : Vector Port 16) : ({ c with port := x } : Chip).spares = c.spares := rfl
@[simp] theorem spares_lane (c : Chip) (x : Vector Lane 16) : ({ c with lane := x } : Chip).spares = c.spares := rfl
@[simp] theorem spares_vcam (c : Chip) (x : Vector Vcam 4) : ({ c with vcam := x } : Chip).spares = c.spares := rfl
@[simp] theorem spares_corr (c : Chip) (x : Vector Corr 16) : ({ c with corr := x } : Chip).spares = c.spares := rfl
@[simp] theorem spares_cal (c : Chip) (x : Cal) : ({ c with cal := x } : Chip).spares = c.spares := rfl
@[simp] theorem spares_seam (c : Chip) (x : Vector Seam 15) : ({ c with seam := x } : Chip).spares = c.spares := rfl
@[simp] theorem spares_engines (c : Chip) (x : Engines) : ({ c with engines := x } : Chip).spares = c.spares := rfl
@[simp] theorem spares_perg (c : Chip) (x : Pergola) : ({ c with perg := x } : Chip).spares = c.spares := rfl
@[simp] theorem spares_det (c : Chip) (x : Det) : ({ c with det := x } : Chip).spares = c.spares := rfl
@[simp] theorem spares_carry (c : Chip) (x : Carry) : ({ c with carry := x } : Chip).spares = c.spares := rfl
@[simp] theorem spares_records (c : Chip) (x : Records) : ({ c with records := x } : Chip).spares = c.spares := rfl
@[simp] theorem spares_tiles (c : Chip) (x : Tiles) : ({ c with tiles := x } : Chip).spares = c.spares := rfl
@[simp] theorem spares_abacus (c : Chip) (x : Abacus) : ({ c with abacus := x } : Chip).spares = c.spares := rfl
@[simp] theorem spares_rotunda (c : Chip) (x : Rotunda) : ({ c with rotunda := x } : Chip).spares = c.spares := rfl
@[simp] theorem spares_orangery (c : Chip) (x : Orangery) : ({ c with orangery := x } : Chip).spares = c.spares := rfl
@[simp] theorem spares_view (c : Chip) (x : Vector View 4) : ({ c with view := x } : Chip).spares = c.spares := rfl
@[simp] theorem spares_zip (c : Chip) (x : Zip) : ({ c with zip := x } : Chip).spares = c.spares := rfl
@[simp] theorem spares_axis (c : Chip) (x : Vector Axis 4) : ({ c with axis := x } : Chip).spares = c.spares := rfl
@[simp] theorem spares_gp (c : Chip) (x : Vector GpBank 2) : ({ c with gp := x } : Chip).spares = c.spares := rfl
@[simp] theorem spares_mark (c : Chip) (x : Marking) : ({ c with mark := x } : Chip).spares = c.spares := rfl
@[simp] theorem spares_time (c : Chip) (x : Time) : ({ c with time := x } : Chip).spares = c.spares := rfl
@[simp] theorem spares_aux (c : Chip) (x : AuxChain) : ({ c with aux := x } : Chip).spares = c.spares := rfl
@[simp] theorem spares_gang (c : Chip) (x : Gang) : ({ c with gang := x } : Chip).spares = c.spares := rfl
@[simp] theorem spares_dram (c : Chip) (x : Dram) : ({ c with dram := x } : Chip).spares = c.spares := rfl
@[simp] theorem spares_health (c : Chip) (x : Health) : ({ c with health := x } : Chip).spares = c.spares := rfl
@[simp] theorem spares_supply (c : Chip) (x : Supply) : ({ c with supply := x } : Chip).spares = c.spares := rfl
@[simp] theorem spares_life (c : Chip) (x : Life) : ({ c with life := x } : Chip).spares = c.spares := rfl
@[simp] theorem spares_sec (c : Chip) (x : Security) : ({ c with sec := x } : Chip).spares = c.spares := rfl
@[simp] theorem spares_saturated (c : Chip) (x : List (Nat × Nat × Nat)) : ({ c with saturated := x } : Chip).spares = c.spares := rfl

/-! ### What `signalVector` leaves -/

@[simp] theorem signalVector_modes (v : Nat) (c : Chip) : (signalVector v c).modes = c.modes :=
  (congrArg Chip.modes (signalVector_quiet v c) : (signalVector v c).quiet.modes = c.quiet.modes)
@[simp] theorem signalVector_fw (v : Nat) (c : Chip) : (signalVector v c).fw = c.fw :=
  (congrArg Chip.fw (signalVector_quiet v c) : (signalVector v c).quiet.fw = c.quiet.fw)
@[simp] theorem signalVector_regs (v : Nat) (c : Chip) : (signalVector v c).regs = c.regs :=
  (congrArg Chip.regs (signalVector_quiet v c) : (signalVector v c).quiet.regs = c.quiet.regs)
@[simp] theorem signalVector_enc (v : Nat) (c : Chip) : (signalVector v c).enc = c.enc :=
  (congrArg Chip.enc (signalVector_quiet v c) : (signalVector v c).quiet.enc = c.quiet.enc)
@[simp] theorem signalVector_trig (v : Nat) (c : Chip) : (signalVector v c).trig = c.trig :=
  (congrArg Chip.trig (signalVector_quiet v c) : (signalVector v c).quiet.trig = c.quiet.trig)
@[simp] theorem signalVector_ledger (v : Nat) (c : Chip) : (signalVector v c).ledger = c.ledger :=
  (congrArg Chip.ledger (signalVector_quiet v c) : (signalVector v c).quiet.ledger = c.quiet.ledger)
@[simp] theorem signalVector_older (v : Nat) (c : Chip) : (signalVector v c).older = c.older :=
  (congrArg Chip.older (signalVector_quiet v c) : (signalVector v c).quiet.older = c.quiet.older)
@[simp] theorem signalVector_port (v : Nat) (c : Chip) : (signalVector v c).port = c.port :=
  (congrArg Chip.port (signalVector_quiet v c) : (signalVector v c).quiet.port = c.quiet.port)
@[simp] theorem signalVector_lane (v : Nat) (c : Chip) : (signalVector v c).lane = c.lane :=
  (congrArg Chip.lane (signalVector_quiet v c) : (signalVector v c).quiet.lane = c.quiet.lane)
@[simp] theorem signalVector_vcam (v : Nat) (c : Chip) : (signalVector v c).vcam = c.vcam :=
  (congrArg Chip.vcam (signalVector_quiet v c) : (signalVector v c).quiet.vcam = c.quiet.vcam)
@[simp] theorem signalVector_corr (v : Nat) (c : Chip) : (signalVector v c).corr = c.corr :=
  (congrArg Chip.corr (signalVector_quiet v c) : (signalVector v c).quiet.corr = c.quiet.corr)
@[simp] theorem signalVector_cal (v : Nat) (c : Chip) : (signalVector v c).cal = c.cal :=
  (congrArg Chip.cal (signalVector_quiet v c) : (signalVector v c).quiet.cal = c.quiet.cal)
@[simp] theorem signalVector_seam (v : Nat) (c : Chip) : (signalVector v c).seam = c.seam :=
  (congrArg Chip.seam (signalVector_quiet v c) : (signalVector v c).quiet.seam = c.quiet.seam)
@[simp] theorem signalVector_engines (v : Nat) (c : Chip) : (signalVector v c).engines = c.engines :=
  (congrArg Chip.engines (signalVector_quiet v c) : (signalVector v c).quiet.engines = c.quiet.engines)
@[simp] theorem signalVector_perg (v : Nat) (c : Chip) : (signalVector v c).perg = c.perg :=
  (congrArg Chip.perg (signalVector_quiet v c) : (signalVector v c).quiet.perg = c.quiet.perg)
@[simp] theorem signalVector_det (v : Nat) (c : Chip) : (signalVector v c).det = c.det :=
  (congrArg Chip.det (signalVector_quiet v c) : (signalVector v c).quiet.det = c.quiet.det)
@[simp] theorem signalVector_carry (v : Nat) (c : Chip) : (signalVector v c).carry = c.carry :=
  (congrArg Chip.carry (signalVector_quiet v c) : (signalVector v c).quiet.carry = c.quiet.carry)
@[simp] theorem signalVector_records (v : Nat) (c : Chip) : (signalVector v c).records = c.records :=
  (congrArg Chip.records (signalVector_quiet v c) : (signalVector v c).quiet.records = c.quiet.records)
@[simp] theorem signalVector_tiles (v : Nat) (c : Chip) : (signalVector v c).tiles = c.tiles :=
  (congrArg Chip.tiles (signalVector_quiet v c) : (signalVector v c).quiet.tiles = c.quiet.tiles)
@[simp] theorem signalVector_abacus (v : Nat) (c : Chip) : (signalVector v c).abacus = c.abacus :=
  (congrArg Chip.abacus (signalVector_quiet v c) : (signalVector v c).quiet.abacus = c.quiet.abacus)
@[simp] theorem signalVector_rotunda (v : Nat) (c : Chip) : (signalVector v c).rotunda = c.rotunda :=
  (congrArg Chip.rotunda (signalVector_quiet v c) : (signalVector v c).quiet.rotunda = c.quiet.rotunda)
@[simp] theorem signalVector_orangery (v : Nat) (c : Chip) : (signalVector v c).orangery = c.orangery :=
  (congrArg Chip.orangery (signalVector_quiet v c) : (signalVector v c).quiet.orangery = c.quiet.orangery)
@[simp] theorem signalVector_view (v : Nat) (c : Chip) : (signalVector v c).view = c.view :=
  (congrArg Chip.view (signalVector_quiet v c) : (signalVector v c).quiet.view = c.quiet.view)
@[simp] theorem signalVector_zip (v : Nat) (c : Chip) : (signalVector v c).zip = c.zip :=
  (congrArg Chip.zip (signalVector_quiet v c) : (signalVector v c).quiet.zip = c.quiet.zip)
@[simp] theorem signalVector_axis (v : Nat) (c : Chip) : (signalVector v c).axis = c.axis :=
  (congrArg Chip.axis (signalVector_quiet v c) : (signalVector v c).quiet.axis = c.quiet.axis)
@[simp] theorem signalVector_gp (v : Nat) (c : Chip) : (signalVector v c).gp = c.gp :=
  (congrArg Chip.gp (signalVector_quiet v c) : (signalVector v c).quiet.gp = c.quiet.gp)
@[simp] theorem signalVector_mark (v : Nat) (c : Chip) : (signalVector v c).mark = c.mark :=
  (congrArg Chip.mark (signalVector_quiet v c) : (signalVector v c).quiet.mark = c.quiet.mark)
@[simp] theorem signalVector_time (v : Nat) (c : Chip) : (signalVector v c).time = c.time :=
  (congrArg Chip.time (signalVector_quiet v c) : (signalVector v c).quiet.time = c.quiet.time)
@[simp] theorem signalVector_aux (v : Nat) (c : Chip) : (signalVector v c).aux = c.aux :=
  (congrArg Chip.aux (signalVector_quiet v c) : (signalVector v c).quiet.aux = c.quiet.aux)
@[simp] theorem signalVector_gang (v : Nat) (c : Chip) : (signalVector v c).gang = c.gang :=
  (congrArg Chip.gang (signalVector_quiet v c) : (signalVector v c).quiet.gang = c.quiet.gang)
@[simp] theorem signalVector_dram (v : Nat) (c : Chip) : (signalVector v c).dram = c.dram :=
  (congrArg Chip.dram (signalVector_quiet v c) : (signalVector v c).quiet.dram = c.quiet.dram)
@[simp] theorem signalVector_health (v : Nat) (c : Chip) : (signalVector v c).health = c.health :=
  (congrArg Chip.health (signalVector_quiet v c) : (signalVector v c).quiet.health = c.quiet.health)
@[simp] theorem signalVector_supply (v : Nat) (c : Chip) : (signalVector v c).supply = c.supply :=
  (congrArg Chip.supply (signalVector_quiet v c) : (signalVector v c).quiet.supply = c.quiet.supply)
@[simp] theorem signalVector_sec (v : Nat) (c : Chip) : (signalVector v c).sec = c.sec :=
  (congrArg Chip.sec (signalVector_quiet v c) : (signalVector v c).quiet.sec = c.quiet.sec)

/-! ### What `raise` leaves -/

@[simp] theorem raise_modes (code sev src : Nat) (p : List Byte) (c : Chip) : (raise code sev src p c).modes = c.modes :=
  (congrArg Chip.modes (raise_quiet code sev src p c) : (raise code sev src p c).quiet.modes = c.quiet.modes)
@[simp] theorem raise_fw (code sev src : Nat) (p : List Byte) (c : Chip) : (raise code sev src p c).fw = c.fw :=
  (congrArg Chip.fw (raise_quiet code sev src p c) : (raise code sev src p c).quiet.fw = c.quiet.fw)
@[simp] theorem raise_regs (code sev src : Nat) (p : List Byte) (c : Chip) : (raise code sev src p c).regs = c.regs :=
  (congrArg Chip.regs (raise_quiet code sev src p c) : (raise code sev src p c).quiet.regs = c.quiet.regs)
@[simp] theorem raise_enc (code sev src : Nat) (p : List Byte) (c : Chip) : (raise code sev src p c).enc = c.enc :=
  (congrArg Chip.enc (raise_quiet code sev src p c) : (raise code sev src p c).quiet.enc = c.quiet.enc)
@[simp] theorem raise_trig (code sev src : Nat) (p : List Byte) (c : Chip) : (raise code sev src p c).trig = c.trig :=
  (congrArg Chip.trig (raise_quiet code sev src p c) : (raise code sev src p c).quiet.trig = c.quiet.trig)
@[simp] theorem raise_ledger (code sev src : Nat) (p : List Byte) (c : Chip) : (raise code sev src p c).ledger = c.ledger :=
  (congrArg Chip.ledger (raise_quiet code sev src p c) : (raise code sev src p c).quiet.ledger = c.quiet.ledger)
@[simp] theorem raise_older (code sev src : Nat) (p : List Byte) (c : Chip) : (raise code sev src p c).older = c.older :=
  (congrArg Chip.older (raise_quiet code sev src p c) : (raise code sev src p c).quiet.older = c.quiet.older)
@[simp] theorem raise_port (code sev src : Nat) (p : List Byte) (c : Chip) : (raise code sev src p c).port = c.port :=
  (congrArg Chip.port (raise_quiet code sev src p c) : (raise code sev src p c).quiet.port = c.quiet.port)
@[simp] theorem raise_lane (code sev src : Nat) (p : List Byte) (c : Chip) : (raise code sev src p c).lane = c.lane :=
  (congrArg Chip.lane (raise_quiet code sev src p c) : (raise code sev src p c).quiet.lane = c.quiet.lane)
@[simp] theorem raise_vcam (code sev src : Nat) (p : List Byte) (c : Chip) : (raise code sev src p c).vcam = c.vcam :=
  (congrArg Chip.vcam (raise_quiet code sev src p c) : (raise code sev src p c).quiet.vcam = c.quiet.vcam)
@[simp] theorem raise_corr (code sev src : Nat) (p : List Byte) (c : Chip) : (raise code sev src p c).corr = c.corr :=
  (congrArg Chip.corr (raise_quiet code sev src p c) : (raise code sev src p c).quiet.corr = c.quiet.corr)
@[simp] theorem raise_cal (code sev src : Nat) (p : List Byte) (c : Chip) : (raise code sev src p c).cal = c.cal :=
  (congrArg Chip.cal (raise_quiet code sev src p c) : (raise code sev src p c).quiet.cal = c.quiet.cal)
@[simp] theorem raise_seam (code sev src : Nat) (p : List Byte) (c : Chip) : (raise code sev src p c).seam = c.seam :=
  (congrArg Chip.seam (raise_quiet code sev src p c) : (raise code sev src p c).quiet.seam = c.quiet.seam)
@[simp] theorem raise_engines (code sev src : Nat) (p : List Byte) (c : Chip) : (raise code sev src p c).engines = c.engines :=
  (congrArg Chip.engines (raise_quiet code sev src p c) : (raise code sev src p c).quiet.engines = c.quiet.engines)
@[simp] theorem raise_perg (code sev src : Nat) (p : List Byte) (c : Chip) : (raise code sev src p c).perg = c.perg :=
  (congrArg Chip.perg (raise_quiet code sev src p c) : (raise code sev src p c).quiet.perg = c.quiet.perg)
@[simp] theorem raise_det (code sev src : Nat) (p : List Byte) (c : Chip) : (raise code sev src p c).det = c.det :=
  (congrArg Chip.det (raise_quiet code sev src p c) : (raise code sev src p c).quiet.det = c.quiet.det)
@[simp] theorem raise_carry (code sev src : Nat) (p : List Byte) (c : Chip) : (raise code sev src p c).carry = c.carry :=
  (congrArg Chip.carry (raise_quiet code sev src p c) : (raise code sev src p c).quiet.carry = c.quiet.carry)
@[simp] theorem raise_records (code sev src : Nat) (p : List Byte) (c : Chip) : (raise code sev src p c).records = c.records :=
  (congrArg Chip.records (raise_quiet code sev src p c) : (raise code sev src p c).quiet.records = c.quiet.records)
@[simp] theorem raise_tiles (code sev src : Nat) (p : List Byte) (c : Chip) : (raise code sev src p c).tiles = c.tiles :=
  (congrArg Chip.tiles (raise_quiet code sev src p c) : (raise code sev src p c).quiet.tiles = c.quiet.tiles)
@[simp] theorem raise_abacus (code sev src : Nat) (p : List Byte) (c : Chip) : (raise code sev src p c).abacus = c.abacus :=
  (congrArg Chip.abacus (raise_quiet code sev src p c) : (raise code sev src p c).quiet.abacus = c.quiet.abacus)
@[simp] theorem raise_rotunda (code sev src : Nat) (p : List Byte) (c : Chip) : (raise code sev src p c).rotunda = c.rotunda :=
  (congrArg Chip.rotunda (raise_quiet code sev src p c) : (raise code sev src p c).quiet.rotunda = c.quiet.rotunda)
@[simp] theorem raise_orangery (code sev src : Nat) (p : List Byte) (c : Chip) : (raise code sev src p c).orangery = c.orangery :=
  (congrArg Chip.orangery (raise_quiet code sev src p c) : (raise code sev src p c).quiet.orangery = c.quiet.orangery)
@[simp] theorem raise_view (code sev src : Nat) (p : List Byte) (c : Chip) : (raise code sev src p c).view = c.view :=
  (congrArg Chip.view (raise_quiet code sev src p c) : (raise code sev src p c).quiet.view = c.quiet.view)
@[simp] theorem raise_zip (code sev src : Nat) (p : List Byte) (c : Chip) : (raise code sev src p c).zip = c.zip :=
  (congrArg Chip.zip (raise_quiet code sev src p c) : (raise code sev src p c).quiet.zip = c.quiet.zip)
@[simp] theorem raise_axis (code sev src : Nat) (p : List Byte) (c : Chip) : (raise code sev src p c).axis = c.axis :=
  (congrArg Chip.axis (raise_quiet code sev src p c) : (raise code sev src p c).quiet.axis = c.quiet.axis)
@[simp] theorem raise_gp (code sev src : Nat) (p : List Byte) (c : Chip) : (raise code sev src p c).gp = c.gp :=
  (congrArg Chip.gp (raise_quiet code sev src p c) : (raise code sev src p c).quiet.gp = c.quiet.gp)
@[simp] theorem raise_mark (code sev src : Nat) (p : List Byte) (c : Chip) : (raise code sev src p c).mark = c.mark :=
  (congrArg Chip.mark (raise_quiet code sev src p c) : (raise code sev src p c).quiet.mark = c.quiet.mark)
@[simp] theorem raise_time (code sev src : Nat) (p : List Byte) (c : Chip) : (raise code sev src p c).time = c.time :=
  (congrArg Chip.time (raise_quiet code sev src p c) : (raise code sev src p c).quiet.time = c.quiet.time)
@[simp] theorem raise_aux (code sev src : Nat) (p : List Byte) (c : Chip) : (raise code sev src p c).aux = c.aux :=
  (congrArg Chip.aux (raise_quiet code sev src p c) : (raise code sev src p c).quiet.aux = c.quiet.aux)
@[simp] theorem raise_gang (code sev src : Nat) (p : List Byte) (c : Chip) : (raise code sev src p c).gang = c.gang :=
  (congrArg Chip.gang (raise_quiet code sev src p c) : (raise code sev src p c).quiet.gang = c.quiet.gang)
@[simp] theorem raise_dram (code sev src : Nat) (p : List Byte) (c : Chip) : (raise code sev src p c).dram = c.dram :=
  (congrArg Chip.dram (raise_quiet code sev src p c) : (raise code sev src p c).quiet.dram = c.quiet.dram)
@[simp] theorem raise_health (code sev src : Nat) (p : List Byte) (c : Chip) : (raise code sev src p c).health = c.health :=
  (congrArg Chip.health (raise_quiet code sev src p c) : (raise code sev src p c).quiet.health = c.quiet.health)
@[simp] theorem raise_supply (code sev src : Nat) (p : List Byte) (c : Chip) : (raise code sev src p c).supply = c.supply :=
  (congrArg Chip.supply (raise_quiet code sev src p c) : (raise code sev src p c).quiet.supply = c.quiet.supply)
@[simp] theorem raise_sec (code sev src : Nat) (p : List Byte) (c : Chip) : (raise code sev src p c).sec = c.sec :=
  (congrArg Chip.sec (raise_quiet code sev src p c) : (raise code sev src p c).quiet.sec = c.quiet.sec)

/-! ### What `raiseLimited` leaves -/

@[simp] theorem raiseLimited_modes (code sev src inst : Nat) (p : List Byte) (off len : Nat) (l : Bool) (n : Nat) (c : Chip) : (raiseLimited code sev src inst p off len l n c).modes = c.modes :=
  (congrArg Chip.modes (raiseLimited_quiet code sev src inst p off len l n c) : (raiseLimited code sev src inst p off len l n c).quiet.modes = c.quiet.modes)
@[simp] theorem raiseLimited_fw (code sev src inst : Nat) (p : List Byte) (off len : Nat) (l : Bool) (n : Nat) (c : Chip) : (raiseLimited code sev src inst p off len l n c).fw = c.fw :=
  (congrArg Chip.fw (raiseLimited_quiet code sev src inst p off len l n c) : (raiseLimited code sev src inst p off len l n c).quiet.fw = c.quiet.fw)
@[simp] theorem raiseLimited_regs (code sev src inst : Nat) (p : List Byte) (off len : Nat) (l : Bool) (n : Nat) (c : Chip) : (raiseLimited code sev src inst p off len l n c).regs = c.regs :=
  (congrArg Chip.regs (raiseLimited_quiet code sev src inst p off len l n c) : (raiseLimited code sev src inst p off len l n c).quiet.regs = c.quiet.regs)
@[simp] theorem raiseLimited_enc (code sev src inst : Nat) (p : List Byte) (off len : Nat) (l : Bool) (n : Nat) (c : Chip) : (raiseLimited code sev src inst p off len l n c).enc = c.enc :=
  (congrArg Chip.enc (raiseLimited_quiet code sev src inst p off len l n c) : (raiseLimited code sev src inst p off len l n c).quiet.enc = c.quiet.enc)
@[simp] theorem raiseLimited_trig (code sev src inst : Nat) (p : List Byte) (off len : Nat) (l : Bool) (n : Nat) (c : Chip) : (raiseLimited code sev src inst p off len l n c).trig = c.trig :=
  (congrArg Chip.trig (raiseLimited_quiet code sev src inst p off len l n c) : (raiseLimited code sev src inst p off len l n c).quiet.trig = c.quiet.trig)
@[simp] theorem raiseLimited_ledger (code sev src inst : Nat) (p : List Byte) (off len : Nat) (l : Bool) (n : Nat) (c : Chip) : (raiseLimited code sev src inst p off len l n c).ledger = c.ledger :=
  (congrArg Chip.ledger (raiseLimited_quiet code sev src inst p off len l n c) : (raiseLimited code sev src inst p off len l n c).quiet.ledger = c.quiet.ledger)
@[simp] theorem raiseLimited_older (code sev src inst : Nat) (p : List Byte) (off len : Nat) (l : Bool) (n : Nat) (c : Chip) : (raiseLimited code sev src inst p off len l n c).older = c.older :=
  (congrArg Chip.older (raiseLimited_quiet code sev src inst p off len l n c) : (raiseLimited code sev src inst p off len l n c).quiet.older = c.quiet.older)
@[simp] theorem raiseLimited_port (code sev src inst : Nat) (p : List Byte) (off len : Nat) (l : Bool) (n : Nat) (c : Chip) : (raiseLimited code sev src inst p off len l n c).port = c.port :=
  (congrArg Chip.port (raiseLimited_quiet code sev src inst p off len l n c) : (raiseLimited code sev src inst p off len l n c).quiet.port = c.quiet.port)
@[simp] theorem raiseLimited_lane (code sev src inst : Nat) (p : List Byte) (off len : Nat) (l : Bool) (n : Nat) (c : Chip) : (raiseLimited code sev src inst p off len l n c).lane = c.lane :=
  (congrArg Chip.lane (raiseLimited_quiet code sev src inst p off len l n c) : (raiseLimited code sev src inst p off len l n c).quiet.lane = c.quiet.lane)
@[simp] theorem raiseLimited_vcam (code sev src inst : Nat) (p : List Byte) (off len : Nat) (l : Bool) (n : Nat) (c : Chip) : (raiseLimited code sev src inst p off len l n c).vcam = c.vcam :=
  (congrArg Chip.vcam (raiseLimited_quiet code sev src inst p off len l n c) : (raiseLimited code sev src inst p off len l n c).quiet.vcam = c.quiet.vcam)
@[simp] theorem raiseLimited_corr (code sev src inst : Nat) (p : List Byte) (off len : Nat) (l : Bool) (n : Nat) (c : Chip) : (raiseLimited code sev src inst p off len l n c).corr = c.corr :=
  (congrArg Chip.corr (raiseLimited_quiet code sev src inst p off len l n c) : (raiseLimited code sev src inst p off len l n c).quiet.corr = c.quiet.corr)
@[simp] theorem raiseLimited_cal (code sev src inst : Nat) (p : List Byte) (off len : Nat) (l : Bool) (n : Nat) (c : Chip) : (raiseLimited code sev src inst p off len l n c).cal = c.cal :=
  (congrArg Chip.cal (raiseLimited_quiet code sev src inst p off len l n c) : (raiseLimited code sev src inst p off len l n c).quiet.cal = c.quiet.cal)
@[simp] theorem raiseLimited_seam (code sev src inst : Nat) (p : List Byte) (off len : Nat) (l : Bool) (n : Nat) (c : Chip) : (raiseLimited code sev src inst p off len l n c).seam = c.seam :=
  (congrArg Chip.seam (raiseLimited_quiet code sev src inst p off len l n c) : (raiseLimited code sev src inst p off len l n c).quiet.seam = c.quiet.seam)
@[simp] theorem raiseLimited_engines (code sev src inst : Nat) (p : List Byte) (off len : Nat) (l : Bool) (n : Nat) (c : Chip) : (raiseLimited code sev src inst p off len l n c).engines = c.engines :=
  (congrArg Chip.engines (raiseLimited_quiet code sev src inst p off len l n c) : (raiseLimited code sev src inst p off len l n c).quiet.engines = c.quiet.engines)
@[simp] theorem raiseLimited_perg (code sev src inst : Nat) (p : List Byte) (off len : Nat) (l : Bool) (n : Nat) (c : Chip) : (raiseLimited code sev src inst p off len l n c).perg = c.perg :=
  (congrArg Chip.perg (raiseLimited_quiet code sev src inst p off len l n c) : (raiseLimited code sev src inst p off len l n c).quiet.perg = c.quiet.perg)
@[simp] theorem raiseLimited_det (code sev src inst : Nat) (p : List Byte) (off len : Nat) (l : Bool) (n : Nat) (c : Chip) : (raiseLimited code sev src inst p off len l n c).det = c.det :=
  (congrArg Chip.det (raiseLimited_quiet code sev src inst p off len l n c) : (raiseLimited code sev src inst p off len l n c).quiet.det = c.quiet.det)
@[simp] theorem raiseLimited_carry (code sev src inst : Nat) (p : List Byte) (off len : Nat) (l : Bool) (n : Nat) (c : Chip) : (raiseLimited code sev src inst p off len l n c).carry = c.carry :=
  (congrArg Chip.carry (raiseLimited_quiet code sev src inst p off len l n c) : (raiseLimited code sev src inst p off len l n c).quiet.carry = c.quiet.carry)
@[simp] theorem raiseLimited_records (code sev src inst : Nat) (p : List Byte) (off len : Nat) (l : Bool) (n : Nat) (c : Chip) : (raiseLimited code sev src inst p off len l n c).records = c.records :=
  (congrArg Chip.records (raiseLimited_quiet code sev src inst p off len l n c) : (raiseLimited code sev src inst p off len l n c).quiet.records = c.quiet.records)
@[simp] theorem raiseLimited_tiles (code sev src inst : Nat) (p : List Byte) (off len : Nat) (l : Bool) (n : Nat) (c : Chip) : (raiseLimited code sev src inst p off len l n c).tiles = c.tiles :=
  (congrArg Chip.tiles (raiseLimited_quiet code sev src inst p off len l n c) : (raiseLimited code sev src inst p off len l n c).quiet.tiles = c.quiet.tiles)
@[simp] theorem raiseLimited_abacus (code sev src inst : Nat) (p : List Byte) (off len : Nat) (l : Bool) (n : Nat) (c : Chip) : (raiseLimited code sev src inst p off len l n c).abacus = c.abacus :=
  (congrArg Chip.abacus (raiseLimited_quiet code sev src inst p off len l n c) : (raiseLimited code sev src inst p off len l n c).quiet.abacus = c.quiet.abacus)
@[simp] theorem raiseLimited_rotunda (code sev src inst : Nat) (p : List Byte) (off len : Nat) (l : Bool) (n : Nat) (c : Chip) : (raiseLimited code sev src inst p off len l n c).rotunda = c.rotunda :=
  (congrArg Chip.rotunda (raiseLimited_quiet code sev src inst p off len l n c) : (raiseLimited code sev src inst p off len l n c).quiet.rotunda = c.quiet.rotunda)
@[simp] theorem raiseLimited_orangery (code sev src inst : Nat) (p : List Byte) (off len : Nat) (l : Bool) (n : Nat) (c : Chip) : (raiseLimited code sev src inst p off len l n c).orangery = c.orangery :=
  (congrArg Chip.orangery (raiseLimited_quiet code sev src inst p off len l n c) : (raiseLimited code sev src inst p off len l n c).quiet.orangery = c.quiet.orangery)
@[simp] theorem raiseLimited_view (code sev src inst : Nat) (p : List Byte) (off len : Nat) (l : Bool) (n : Nat) (c : Chip) : (raiseLimited code sev src inst p off len l n c).view = c.view :=
  (congrArg Chip.view (raiseLimited_quiet code sev src inst p off len l n c) : (raiseLimited code sev src inst p off len l n c).quiet.view = c.quiet.view)
@[simp] theorem raiseLimited_zip (code sev src inst : Nat) (p : List Byte) (off len : Nat) (l : Bool) (n : Nat) (c : Chip) : (raiseLimited code sev src inst p off len l n c).zip = c.zip :=
  (congrArg Chip.zip (raiseLimited_quiet code sev src inst p off len l n c) : (raiseLimited code sev src inst p off len l n c).quiet.zip = c.quiet.zip)
@[simp] theorem raiseLimited_axis (code sev src inst : Nat) (p : List Byte) (off len : Nat) (l : Bool) (n : Nat) (c : Chip) : (raiseLimited code sev src inst p off len l n c).axis = c.axis :=
  (congrArg Chip.axis (raiseLimited_quiet code sev src inst p off len l n c) : (raiseLimited code sev src inst p off len l n c).quiet.axis = c.quiet.axis)
@[simp] theorem raiseLimited_gp (code sev src inst : Nat) (p : List Byte) (off len : Nat) (l : Bool) (n : Nat) (c : Chip) : (raiseLimited code sev src inst p off len l n c).gp = c.gp :=
  (congrArg Chip.gp (raiseLimited_quiet code sev src inst p off len l n c) : (raiseLimited code sev src inst p off len l n c).quiet.gp = c.quiet.gp)
@[simp] theorem raiseLimited_mark (code sev src inst : Nat) (p : List Byte) (off len : Nat) (l : Bool) (n : Nat) (c : Chip) : (raiseLimited code sev src inst p off len l n c).mark = c.mark :=
  (congrArg Chip.mark (raiseLimited_quiet code sev src inst p off len l n c) : (raiseLimited code sev src inst p off len l n c).quiet.mark = c.quiet.mark)
@[simp] theorem raiseLimited_time (code sev src inst : Nat) (p : List Byte) (off len : Nat) (l : Bool) (n : Nat) (c : Chip) : (raiseLimited code sev src inst p off len l n c).time = c.time :=
  (congrArg Chip.time (raiseLimited_quiet code sev src inst p off len l n c) : (raiseLimited code sev src inst p off len l n c).quiet.time = c.quiet.time)
@[simp] theorem raiseLimited_aux (code sev src inst : Nat) (p : List Byte) (off len : Nat) (l : Bool) (n : Nat) (c : Chip) : (raiseLimited code sev src inst p off len l n c).aux = c.aux :=
  (congrArg Chip.aux (raiseLimited_quiet code sev src inst p off len l n c) : (raiseLimited code sev src inst p off len l n c).quiet.aux = c.quiet.aux)
@[simp] theorem raiseLimited_gang (code sev src inst : Nat) (p : List Byte) (off len : Nat) (l : Bool) (n : Nat) (c : Chip) : (raiseLimited code sev src inst p off len l n c).gang = c.gang :=
  (congrArg Chip.gang (raiseLimited_quiet code sev src inst p off len l n c) : (raiseLimited code sev src inst p off len l n c).quiet.gang = c.quiet.gang)
@[simp] theorem raiseLimited_dram (code sev src inst : Nat) (p : List Byte) (off len : Nat) (l : Bool) (n : Nat) (c : Chip) : (raiseLimited code sev src inst p off len l n c).dram = c.dram :=
  (congrArg Chip.dram (raiseLimited_quiet code sev src inst p off len l n c) : (raiseLimited code sev src inst p off len l n c).quiet.dram = c.quiet.dram)
@[simp] theorem raiseLimited_health (code sev src inst : Nat) (p : List Byte) (off len : Nat) (l : Bool) (n : Nat) (c : Chip) : (raiseLimited code sev src inst p off len l n c).health = c.health :=
  (congrArg Chip.health (raiseLimited_quiet code sev src inst p off len l n c) : (raiseLimited code sev src inst p off len l n c).quiet.health = c.quiet.health)
@[simp] theorem raiseLimited_supply (code sev src inst : Nat) (p : List Byte) (off len : Nat) (l : Bool) (n : Nat) (c : Chip) : (raiseLimited code sev src inst p off len l n c).supply = c.supply :=
  (congrArg Chip.supply (raiseLimited_quiet code sev src inst p off len l n c) : (raiseLimited code sev src inst p off len l n c).quiet.supply = c.quiet.supply)
@[simp] theorem raiseLimited_sec (code sev src inst : Nat) (p : List Byte) (off len : Nat) (l : Bool) (n : Nat) (c : Chip) : (raiseLimited code sev src inst p off len l n c).sec = c.sec :=
  (congrArg Chip.sec (raiseLimited_quiet code sev src inst p off len l n c) : (raiseLimited code sev src inst p off len l n c).quiet.sec = c.quiet.sec)

/-! ### What `satAdd` leaves -/

@[simp] theorem satAdd_modes (k o i w a n : Nat) (c : Chip) : (satAdd k o i w a n c).2.modes = c.modes :=
  (congrArg Chip.modes (satAdd_quiet k o i w a n c) : ((satAdd k o i w a n c).2).quiet.modes = c.quiet.modes)
@[simp] theorem satAdd_fw (k o i w a n : Nat) (c : Chip) : (satAdd k o i w a n c).2.fw = c.fw :=
  (congrArg Chip.fw (satAdd_quiet k o i w a n c) : ((satAdd k o i w a n c).2).quiet.fw = c.quiet.fw)
@[simp] theorem satAdd_regs (k o i w a n : Nat) (c : Chip) : (satAdd k o i w a n c).2.regs = c.regs :=
  (congrArg Chip.regs (satAdd_quiet k o i w a n c) : ((satAdd k o i w a n c).2).quiet.regs = c.quiet.regs)
@[simp] theorem satAdd_enc (k o i w a n : Nat) (c : Chip) : (satAdd k o i w a n c).2.enc = c.enc :=
  (congrArg Chip.enc (satAdd_quiet k o i w a n c) : ((satAdd k o i w a n c).2).quiet.enc = c.quiet.enc)
@[simp] theorem satAdd_trig (k o i w a n : Nat) (c : Chip) : (satAdd k o i w a n c).2.trig = c.trig :=
  (congrArg Chip.trig (satAdd_quiet k o i w a n c) : ((satAdd k o i w a n c).2).quiet.trig = c.quiet.trig)
@[simp] theorem satAdd_ledger (k o i w a n : Nat) (c : Chip) : (satAdd k o i w a n c).2.ledger = c.ledger :=
  (congrArg Chip.ledger (satAdd_quiet k o i w a n c) : ((satAdd k o i w a n c).2).quiet.ledger = c.quiet.ledger)
@[simp] theorem satAdd_older (k o i w a n : Nat) (c : Chip) : (satAdd k o i w a n c).2.older = c.older :=
  (congrArg Chip.older (satAdd_quiet k o i w a n c) : ((satAdd k o i w a n c).2).quiet.older = c.quiet.older)
@[simp] theorem satAdd_port (k o i w a n : Nat) (c : Chip) : (satAdd k o i w a n c).2.port = c.port :=
  (congrArg Chip.port (satAdd_quiet k o i w a n c) : ((satAdd k o i w a n c).2).quiet.port = c.quiet.port)
@[simp] theorem satAdd_lane (k o i w a n : Nat) (c : Chip) : (satAdd k o i w a n c).2.lane = c.lane :=
  (congrArg Chip.lane (satAdd_quiet k o i w a n c) : ((satAdd k o i w a n c).2).quiet.lane = c.quiet.lane)
@[simp] theorem satAdd_vcam (k o i w a n : Nat) (c : Chip) : (satAdd k o i w a n c).2.vcam = c.vcam :=
  (congrArg Chip.vcam (satAdd_quiet k o i w a n c) : ((satAdd k o i w a n c).2).quiet.vcam = c.quiet.vcam)
@[simp] theorem satAdd_corr (k o i w a n : Nat) (c : Chip) : (satAdd k o i w a n c).2.corr = c.corr :=
  (congrArg Chip.corr (satAdd_quiet k o i w a n c) : ((satAdd k o i w a n c).2).quiet.corr = c.quiet.corr)
@[simp] theorem satAdd_cal (k o i w a n : Nat) (c : Chip) : (satAdd k o i w a n c).2.cal = c.cal :=
  (congrArg Chip.cal (satAdd_quiet k o i w a n c) : ((satAdd k o i w a n c).2).quiet.cal = c.quiet.cal)
@[simp] theorem satAdd_seam (k o i w a n : Nat) (c : Chip) : (satAdd k o i w a n c).2.seam = c.seam :=
  (congrArg Chip.seam (satAdd_quiet k o i w a n c) : ((satAdd k o i w a n c).2).quiet.seam = c.quiet.seam)
@[simp] theorem satAdd_engines (k o i w a n : Nat) (c : Chip) : (satAdd k o i w a n c).2.engines = c.engines :=
  (congrArg Chip.engines (satAdd_quiet k o i w a n c) : ((satAdd k o i w a n c).2).quiet.engines = c.quiet.engines)
@[simp] theorem satAdd_perg (k o i w a n : Nat) (c : Chip) : (satAdd k o i w a n c).2.perg = c.perg :=
  (congrArg Chip.perg (satAdd_quiet k o i w a n c) : ((satAdd k o i w a n c).2).quiet.perg = c.quiet.perg)
@[simp] theorem satAdd_det (k o i w a n : Nat) (c : Chip) : (satAdd k o i w a n c).2.det = c.det :=
  (congrArg Chip.det (satAdd_quiet k o i w a n c) : ((satAdd k o i w a n c).2).quiet.det = c.quiet.det)
@[simp] theorem satAdd_carry (k o i w a n : Nat) (c : Chip) : (satAdd k o i w a n c).2.carry = c.carry :=
  (congrArg Chip.carry (satAdd_quiet k o i w a n c) : ((satAdd k o i w a n c).2).quiet.carry = c.quiet.carry)
@[simp] theorem satAdd_records (k o i w a n : Nat) (c : Chip) : (satAdd k o i w a n c).2.records = c.records :=
  (congrArg Chip.records (satAdd_quiet k o i w a n c) : ((satAdd k o i w a n c).2).quiet.records = c.quiet.records)
@[simp] theorem satAdd_tiles (k o i w a n : Nat) (c : Chip) : (satAdd k o i w a n c).2.tiles = c.tiles :=
  (congrArg Chip.tiles (satAdd_quiet k o i w a n c) : ((satAdd k o i w a n c).2).quiet.tiles = c.quiet.tiles)
@[simp] theorem satAdd_abacus (k o i w a n : Nat) (c : Chip) : (satAdd k o i w a n c).2.abacus = c.abacus :=
  (congrArg Chip.abacus (satAdd_quiet k o i w a n c) : ((satAdd k o i w a n c).2).quiet.abacus = c.quiet.abacus)
@[simp] theorem satAdd_rotunda (k o i w a n : Nat) (c : Chip) : (satAdd k o i w a n c).2.rotunda = c.rotunda :=
  (congrArg Chip.rotunda (satAdd_quiet k o i w a n c) : ((satAdd k o i w a n c).2).quiet.rotunda = c.quiet.rotunda)
@[simp] theorem satAdd_orangery (k o i w a n : Nat) (c : Chip) : (satAdd k o i w a n c).2.orangery = c.orangery :=
  (congrArg Chip.orangery (satAdd_quiet k o i w a n c) : ((satAdd k o i w a n c).2).quiet.orangery = c.quiet.orangery)
@[simp] theorem satAdd_view (k o i w a n : Nat) (c : Chip) : (satAdd k o i w a n c).2.view = c.view :=
  (congrArg Chip.view (satAdd_quiet k o i w a n c) : ((satAdd k o i w a n c).2).quiet.view = c.quiet.view)
@[simp] theorem satAdd_zip (k o i w a n : Nat) (c : Chip) : (satAdd k o i w a n c).2.zip = c.zip :=
  (congrArg Chip.zip (satAdd_quiet k o i w a n c) : ((satAdd k o i w a n c).2).quiet.zip = c.quiet.zip)
@[simp] theorem satAdd_axis (k o i w a n : Nat) (c : Chip) : (satAdd k o i w a n c).2.axis = c.axis :=
  (congrArg Chip.axis (satAdd_quiet k o i w a n c) : ((satAdd k o i w a n c).2).quiet.axis = c.quiet.axis)
@[simp] theorem satAdd_gp (k o i w a n : Nat) (c : Chip) : (satAdd k o i w a n c).2.gp = c.gp :=
  (congrArg Chip.gp (satAdd_quiet k o i w a n c) : ((satAdd k o i w a n c).2).quiet.gp = c.quiet.gp)
@[simp] theorem satAdd_mark (k o i w a n : Nat) (c : Chip) : (satAdd k o i w a n c).2.mark = c.mark :=
  (congrArg Chip.mark (satAdd_quiet k o i w a n c) : ((satAdd k o i w a n c).2).quiet.mark = c.quiet.mark)
@[simp] theorem satAdd_time (k o i w a n : Nat) (c : Chip) : (satAdd k o i w a n c).2.time = c.time :=
  (congrArg Chip.time (satAdd_quiet k o i w a n c) : ((satAdd k o i w a n c).2).quiet.time = c.quiet.time)
@[simp] theorem satAdd_aux (k o i w a n : Nat) (c : Chip) : (satAdd k o i w a n c).2.aux = c.aux :=
  (congrArg Chip.aux (satAdd_quiet k o i w a n c) : ((satAdd k o i w a n c).2).quiet.aux = c.quiet.aux)
@[simp] theorem satAdd_gang (k o i w a n : Nat) (c : Chip) : (satAdd k o i w a n c).2.gang = c.gang :=
  (congrArg Chip.gang (satAdd_quiet k o i w a n c) : ((satAdd k o i w a n c).2).quiet.gang = c.quiet.gang)
@[simp] theorem satAdd_dram (k o i w a n : Nat) (c : Chip) : (satAdd k o i w a n c).2.dram = c.dram :=
  (congrArg Chip.dram (satAdd_quiet k o i w a n c) : ((satAdd k o i w a n c).2).quiet.dram = c.quiet.dram)
@[simp] theorem satAdd_health (k o i w a n : Nat) (c : Chip) : (satAdd k o i w a n c).2.health = c.health :=
  (congrArg Chip.health (satAdd_quiet k o i w a n c) : ((satAdd k o i w a n c).2).quiet.health = c.quiet.health)
@[simp] theorem satAdd_supply (k o i w a n : Nat) (c : Chip) : (satAdd k o i w a n c).2.supply = c.supply :=
  (congrArg Chip.supply (satAdd_quiet k o i w a n c) : ((satAdd k o i w a n c).2).quiet.supply = c.quiet.supply)
@[simp] theorem satAdd_sec (k o i w a n : Nat) (c : Chip) : (satAdd k o i w a n c).2.sec = c.sec :=
  (congrArg Chip.sec (satAdd_quiet k o i w a n c) : ((satAdd k o i w a n c).2).quiet.sec = c.quiet.sec)

/-! ### What `dmaError` leaves -/

@[simp] theorem dmaError_modes (s k d a : Nat) (c : Chip) : (dmaError s k d a c).modes = c.modes :=
  (congrArg Chip.modes (dmaError_quiet s k d a c) : (dmaError s k d a c).quiet.modes = c.quiet.modes)
@[simp] theorem dmaError_fw (s k d a : Nat) (c : Chip) : (dmaError s k d a c).fw = c.fw :=
  (congrArg Chip.fw (dmaError_quiet s k d a c) : (dmaError s k d a c).quiet.fw = c.quiet.fw)
@[simp] theorem dmaError_regs (s k d a : Nat) (c : Chip) : (dmaError s k d a c).regs = c.regs :=
  (congrArg Chip.regs (dmaError_quiet s k d a c) : (dmaError s k d a c).quiet.regs = c.quiet.regs)
@[simp] theorem dmaError_enc (s k d a : Nat) (c : Chip) : (dmaError s k d a c).enc = c.enc :=
  (congrArg Chip.enc (dmaError_quiet s k d a c) : (dmaError s k d a c).quiet.enc = c.quiet.enc)
@[simp] theorem dmaError_trig (s k d a : Nat) (c : Chip) : (dmaError s k d a c).trig = c.trig :=
  (congrArg Chip.trig (dmaError_quiet s k d a c) : (dmaError s k d a c).quiet.trig = c.quiet.trig)
@[simp] theorem dmaError_ledger (s k d a : Nat) (c : Chip) : (dmaError s k d a c).ledger = c.ledger :=
  (congrArg Chip.ledger (dmaError_quiet s k d a c) : (dmaError s k d a c).quiet.ledger = c.quiet.ledger)
@[simp] theorem dmaError_older (s k d a : Nat) (c : Chip) : (dmaError s k d a c).older = c.older :=
  (congrArg Chip.older (dmaError_quiet s k d a c) : (dmaError s k d a c).quiet.older = c.quiet.older)
@[simp] theorem dmaError_port (s k d a : Nat) (c : Chip) : (dmaError s k d a c).port = c.port :=
  (congrArg Chip.port (dmaError_quiet s k d a c) : (dmaError s k d a c).quiet.port = c.quiet.port)
@[simp] theorem dmaError_lane (s k d a : Nat) (c : Chip) : (dmaError s k d a c).lane = c.lane :=
  (congrArg Chip.lane (dmaError_quiet s k d a c) : (dmaError s k d a c).quiet.lane = c.quiet.lane)
@[simp] theorem dmaError_vcam (s k d a : Nat) (c : Chip) : (dmaError s k d a c).vcam = c.vcam :=
  (congrArg Chip.vcam (dmaError_quiet s k d a c) : (dmaError s k d a c).quiet.vcam = c.quiet.vcam)
@[simp] theorem dmaError_corr (s k d a : Nat) (c : Chip) : (dmaError s k d a c).corr = c.corr :=
  (congrArg Chip.corr (dmaError_quiet s k d a c) : (dmaError s k d a c).quiet.corr = c.quiet.corr)
@[simp] theorem dmaError_cal (s k d a : Nat) (c : Chip) : (dmaError s k d a c).cal = c.cal :=
  (congrArg Chip.cal (dmaError_quiet s k d a c) : (dmaError s k d a c).quiet.cal = c.quiet.cal)
@[simp] theorem dmaError_seam (s k d a : Nat) (c : Chip) : (dmaError s k d a c).seam = c.seam :=
  (congrArg Chip.seam (dmaError_quiet s k d a c) : (dmaError s k d a c).quiet.seam = c.quiet.seam)
@[simp] theorem dmaError_engines (s k d a : Nat) (c : Chip) : (dmaError s k d a c).engines = c.engines :=
  (congrArg Chip.engines (dmaError_quiet s k d a c) : (dmaError s k d a c).quiet.engines = c.quiet.engines)
@[simp] theorem dmaError_perg (s k d a : Nat) (c : Chip) : (dmaError s k d a c).perg = c.perg :=
  (congrArg Chip.perg (dmaError_quiet s k d a c) : (dmaError s k d a c).quiet.perg = c.quiet.perg)
@[simp] theorem dmaError_det (s k d a : Nat) (c : Chip) : (dmaError s k d a c).det = c.det :=
  (congrArg Chip.det (dmaError_quiet s k d a c) : (dmaError s k d a c).quiet.det = c.quiet.det)
@[simp] theorem dmaError_carry (s k d a : Nat) (c : Chip) : (dmaError s k d a c).carry = c.carry :=
  (congrArg Chip.carry (dmaError_quiet s k d a c) : (dmaError s k d a c).quiet.carry = c.quiet.carry)
@[simp] theorem dmaError_records (s k d a : Nat) (c : Chip) : (dmaError s k d a c).records = c.records :=
  (congrArg Chip.records (dmaError_quiet s k d a c) : (dmaError s k d a c).quiet.records = c.quiet.records)
@[simp] theorem dmaError_tiles (s k d a : Nat) (c : Chip) : (dmaError s k d a c).tiles = c.tiles :=
  (congrArg Chip.tiles (dmaError_quiet s k d a c) : (dmaError s k d a c).quiet.tiles = c.quiet.tiles)
@[simp] theorem dmaError_abacus (s k d a : Nat) (c : Chip) : (dmaError s k d a c).abacus = c.abacus :=
  (congrArg Chip.abacus (dmaError_quiet s k d a c) : (dmaError s k d a c).quiet.abacus = c.quiet.abacus)
@[simp] theorem dmaError_rotunda (s k d a : Nat) (c : Chip) : (dmaError s k d a c).rotunda = c.rotunda :=
  (congrArg Chip.rotunda (dmaError_quiet s k d a c) : (dmaError s k d a c).quiet.rotunda = c.quiet.rotunda)
@[simp] theorem dmaError_orangery (s k d a : Nat) (c : Chip) : (dmaError s k d a c).orangery = c.orangery :=
  (congrArg Chip.orangery (dmaError_quiet s k d a c) : (dmaError s k d a c).quiet.orangery = c.quiet.orangery)
@[simp] theorem dmaError_view (s k d a : Nat) (c : Chip) : (dmaError s k d a c).view = c.view :=
  (congrArg Chip.view (dmaError_quiet s k d a c) : (dmaError s k d a c).quiet.view = c.quiet.view)
@[simp] theorem dmaError_zip (s k d a : Nat) (c : Chip) : (dmaError s k d a c).zip = c.zip :=
  (congrArg Chip.zip (dmaError_quiet s k d a c) : (dmaError s k d a c).quiet.zip = c.quiet.zip)
@[simp] theorem dmaError_axis (s k d a : Nat) (c : Chip) : (dmaError s k d a c).axis = c.axis :=
  (congrArg Chip.axis (dmaError_quiet s k d a c) : (dmaError s k d a c).quiet.axis = c.quiet.axis)
@[simp] theorem dmaError_gp (s k d a : Nat) (c : Chip) : (dmaError s k d a c).gp = c.gp :=
  (congrArg Chip.gp (dmaError_quiet s k d a c) : (dmaError s k d a c).quiet.gp = c.quiet.gp)
@[simp] theorem dmaError_mark (s k d a : Nat) (c : Chip) : (dmaError s k d a c).mark = c.mark :=
  (congrArg Chip.mark (dmaError_quiet s k d a c) : (dmaError s k d a c).quiet.mark = c.quiet.mark)
@[simp] theorem dmaError_time (s k d a : Nat) (c : Chip) : (dmaError s k d a c).time = c.time :=
  (congrArg Chip.time (dmaError_quiet s k d a c) : (dmaError s k d a c).quiet.time = c.quiet.time)
@[simp] theorem dmaError_aux (s k d a : Nat) (c : Chip) : (dmaError s k d a c).aux = c.aux :=
  (congrArg Chip.aux (dmaError_quiet s k d a c) : (dmaError s k d a c).quiet.aux = c.quiet.aux)
@[simp] theorem dmaError_gang (s k d a : Nat) (c : Chip) : (dmaError s k d a c).gang = c.gang :=
  (congrArg Chip.gang (dmaError_quiet s k d a c) : (dmaError s k d a c).quiet.gang = c.quiet.gang)
@[simp] theorem dmaError_dram (s k d a : Nat) (c : Chip) : (dmaError s k d a c).dram = c.dram :=
  (congrArg Chip.dram (dmaError_quiet s k d a c) : (dmaError s k d a c).quiet.dram = c.quiet.dram)
@[simp] theorem dmaError_health (s k d a : Nat) (c : Chip) : (dmaError s k d a c).health = c.health :=
  (congrArg Chip.health (dmaError_quiet s k d a c) : (dmaError s k d a c).quiet.health = c.quiet.health)
@[simp] theorem dmaError_supply (s k d a : Nat) (c : Chip) : (dmaError s k d a c).supply = c.supply :=
  (congrArg Chip.supply (dmaError_quiet s k d a c) : (dmaError s k d a c).quiet.supply = c.quiet.supply)
@[simp] theorem dmaError_sec (s k d a : Nat) (c : Chip) : (dmaError s k d a c).sec = c.sec :=
  (congrArg Chip.sec (dmaError_quiet s k d a c) : (dmaError s k d a c).quiet.sec = c.quiet.sec)

/-! ### What `respond` leaves -/

@[simp] theorem respond_modes (mb st d : Nat) (body : List Byte) (c : Chip) : (respond mb st d body c).modes = c.modes :=
  (congrArg Chip.modes (respond_quiet mb st d body c) : (respond mb st d body c).quiet.modes = c.quiet.modes)
@[simp] theorem respond_fw (mb st d : Nat) (body : List Byte) (c : Chip) : (respond mb st d body c).fw = c.fw :=
  (congrArg Chip.fw (respond_quiet mb st d body c) : (respond mb st d body c).quiet.fw = c.quiet.fw)
@[simp] theorem respond_regs (mb st d : Nat) (body : List Byte) (c : Chip) : (respond mb st d body c).regs = c.regs :=
  (congrArg Chip.regs (respond_quiet mb st d body c) : (respond mb st d body c).quiet.regs = c.quiet.regs)
@[simp] theorem respond_enc (mb st d : Nat) (body : List Byte) (c : Chip) : (respond mb st d body c).enc = c.enc :=
  (congrArg Chip.enc (respond_quiet mb st d body c) : (respond mb st d body c).quiet.enc = c.quiet.enc)
@[simp] theorem respond_trig (mb st d : Nat) (body : List Byte) (c : Chip) : (respond mb st d body c).trig = c.trig :=
  (congrArg Chip.trig (respond_quiet mb st d body c) : (respond mb st d body c).quiet.trig = c.quiet.trig)
@[simp] theorem respond_ledger (mb st d : Nat) (body : List Byte) (c : Chip) : (respond mb st d body c).ledger = c.ledger :=
  (congrArg Chip.ledger (respond_quiet mb st d body c) : (respond mb st d body c).quiet.ledger = c.quiet.ledger)
@[simp] theorem respond_older (mb st d : Nat) (body : List Byte) (c : Chip) : (respond mb st d body c).older = c.older :=
  (congrArg Chip.older (respond_quiet mb st d body c) : (respond mb st d body c).quiet.older = c.quiet.older)
@[simp] theorem respond_port (mb st d : Nat) (body : List Byte) (c : Chip) : (respond mb st d body c).port = c.port :=
  (congrArg Chip.port (respond_quiet mb st d body c) : (respond mb st d body c).quiet.port = c.quiet.port)
@[simp] theorem respond_lane (mb st d : Nat) (body : List Byte) (c : Chip) : (respond mb st d body c).lane = c.lane :=
  (congrArg Chip.lane (respond_quiet mb st d body c) : (respond mb st d body c).quiet.lane = c.quiet.lane)
@[simp] theorem respond_vcam (mb st d : Nat) (body : List Byte) (c : Chip) : (respond mb st d body c).vcam = c.vcam :=
  (congrArg Chip.vcam (respond_quiet mb st d body c) : (respond mb st d body c).quiet.vcam = c.quiet.vcam)
@[simp] theorem respond_corr (mb st d : Nat) (body : List Byte) (c : Chip) : (respond mb st d body c).corr = c.corr :=
  (congrArg Chip.corr (respond_quiet mb st d body c) : (respond mb st d body c).quiet.corr = c.quiet.corr)
@[simp] theorem respond_cal (mb st d : Nat) (body : List Byte) (c : Chip) : (respond mb st d body c).cal = c.cal :=
  (congrArg Chip.cal (respond_quiet mb st d body c) : (respond mb st d body c).quiet.cal = c.quiet.cal)
@[simp] theorem respond_seam (mb st d : Nat) (body : List Byte) (c : Chip) : (respond mb st d body c).seam = c.seam :=
  (congrArg Chip.seam (respond_quiet mb st d body c) : (respond mb st d body c).quiet.seam = c.quiet.seam)
@[simp] theorem respond_engines (mb st d : Nat) (body : List Byte) (c : Chip) : (respond mb st d body c).engines = c.engines :=
  (congrArg Chip.engines (respond_quiet mb st d body c) : (respond mb st d body c).quiet.engines = c.quiet.engines)
@[simp] theorem respond_perg (mb st d : Nat) (body : List Byte) (c : Chip) : (respond mb st d body c).perg = c.perg :=
  (congrArg Chip.perg (respond_quiet mb st d body c) : (respond mb st d body c).quiet.perg = c.quiet.perg)
@[simp] theorem respond_det (mb st d : Nat) (body : List Byte) (c : Chip) : (respond mb st d body c).det = c.det :=
  (congrArg Chip.det (respond_quiet mb st d body c) : (respond mb st d body c).quiet.det = c.quiet.det)
@[simp] theorem respond_carry (mb st d : Nat) (body : List Byte) (c : Chip) : (respond mb st d body c).carry = c.carry :=
  (congrArg Chip.carry (respond_quiet mb st d body c) : (respond mb st d body c).quiet.carry = c.quiet.carry)
@[simp] theorem respond_records (mb st d : Nat) (body : List Byte) (c : Chip) : (respond mb st d body c).records = c.records :=
  (congrArg Chip.records (respond_quiet mb st d body c) : (respond mb st d body c).quiet.records = c.quiet.records)
@[simp] theorem respond_tiles (mb st d : Nat) (body : List Byte) (c : Chip) : (respond mb st d body c).tiles = c.tiles :=
  (congrArg Chip.tiles (respond_quiet mb st d body c) : (respond mb st d body c).quiet.tiles = c.quiet.tiles)
@[simp] theorem respond_abacus (mb st d : Nat) (body : List Byte) (c : Chip) : (respond mb st d body c).abacus = c.abacus :=
  (congrArg Chip.abacus (respond_quiet mb st d body c) : (respond mb st d body c).quiet.abacus = c.quiet.abacus)
@[simp] theorem respond_rotunda (mb st d : Nat) (body : List Byte) (c : Chip) : (respond mb st d body c).rotunda = c.rotunda :=
  (congrArg Chip.rotunda (respond_quiet mb st d body c) : (respond mb st d body c).quiet.rotunda = c.quiet.rotunda)
@[simp] theorem respond_orangery (mb st d : Nat) (body : List Byte) (c : Chip) : (respond mb st d body c).orangery = c.orangery :=
  (congrArg Chip.orangery (respond_quiet mb st d body c) : (respond mb st d body c).quiet.orangery = c.quiet.orangery)
@[simp] theorem respond_view (mb st d : Nat) (body : List Byte) (c : Chip) : (respond mb st d body c).view = c.view :=
  (congrArg Chip.view (respond_quiet mb st d body c) : (respond mb st d body c).quiet.view = c.quiet.view)
@[simp] theorem respond_zip (mb st d : Nat) (body : List Byte) (c : Chip) : (respond mb st d body c).zip = c.zip :=
  (congrArg Chip.zip (respond_quiet mb st d body c) : (respond mb st d body c).quiet.zip = c.quiet.zip)
@[simp] theorem respond_axis (mb st d : Nat) (body : List Byte) (c : Chip) : (respond mb st d body c).axis = c.axis :=
  (congrArg Chip.axis (respond_quiet mb st d body c) : (respond mb st d body c).quiet.axis = c.quiet.axis)
@[simp] theorem respond_gp (mb st d : Nat) (body : List Byte) (c : Chip) : (respond mb st d body c).gp = c.gp :=
  (congrArg Chip.gp (respond_quiet mb st d body c) : (respond mb st d body c).quiet.gp = c.quiet.gp)
@[simp] theorem respond_mark (mb st d : Nat) (body : List Byte) (c : Chip) : (respond mb st d body c).mark = c.mark :=
  (congrArg Chip.mark (respond_quiet mb st d body c) : (respond mb st d body c).quiet.mark = c.quiet.mark)
@[simp] theorem respond_time (mb st d : Nat) (body : List Byte) (c : Chip) : (respond mb st d body c).time = c.time :=
  (congrArg Chip.time (respond_quiet mb st d body c) : (respond mb st d body c).quiet.time = c.quiet.time)
@[simp] theorem respond_aux (mb st d : Nat) (body : List Byte) (c : Chip) : (respond mb st d body c).aux = c.aux :=
  (congrArg Chip.aux (respond_quiet mb st d body c) : (respond mb st d body c).quiet.aux = c.quiet.aux)
@[simp] theorem respond_gang (mb st d : Nat) (body : List Byte) (c : Chip) : (respond mb st d body c).gang = c.gang :=
  (congrArg Chip.gang (respond_quiet mb st d body c) : (respond mb st d body c).quiet.gang = c.quiet.gang)
@[simp] theorem respond_dram (mb st d : Nat) (body : List Byte) (c : Chip) : (respond mb st d body c).dram = c.dram :=
  (congrArg Chip.dram (respond_quiet mb st d body c) : (respond mb st d body c).quiet.dram = c.quiet.dram)
@[simp] theorem respond_health (mb st d : Nat) (body : List Byte) (c : Chip) : (respond mb st d body c).health = c.health :=
  (congrArg Chip.health (respond_quiet mb st d body c) : (respond mb st d body c).quiet.health = c.quiet.health)
@[simp] theorem respond_supply (mb st d : Nat) (body : List Byte) (c : Chip) : (respond mb st d body c).supply = c.supply :=
  (congrArg Chip.supply (respond_quiet mb st d body c) : (respond mb st d body c).quiet.supply = c.quiet.supply)
@[simp] theorem respond_sec (mb st d : Nat) (body : List Byte) (c : Chip) : (respond mb st d body c).sec = c.sec :=
  (congrArg Chip.sec (respond_quiet mb st d body c) : (respond mb st d body c).quiet.sec = c.quiet.sec)

end Sys2Proof.Machine
end

