-- ==== Sys2Proof/WellFormed.lean ====
section
/-! DEFINITION. Which commands make sense as they stand: operands inside the ranges of the things they name. -/
namespace Sys2Proof

/-- Every number of a list lies below a bound. -/
def allBelow (bound : Nat) (l : List Nat) : Bool := l.all fun x => decide (x < bound)

/-- A camera with link counts, speeds and pixel data the ports know (R57). -/
def CameraInfo.wf (x : CameraInfo) : Bool :=
  [1, 2, 4].contains x.defaultLinks && decide (x.model.length ≤ 32) && decide (x.serial.length ≤ 16) &&
  (x.scans.all fun y => decide (y.2.length ≤ 4) && allBelow 257 y.2) && x.errors.all fun y => decide (y.2.length ≤ 4)

/-- A read whose errors lie in the ten symbols of a code word (R428). -/
def ReadError.wf (x : ReadError) : Bool := decide (x.symbols.length ≤ 10) && allBelow 256 x.symbols

/-- A word with flipped bits among the 72 of its code word, each named once (R506). -/
def SramWord.wf (x : SramWord) : Bool := allBelow 72 x.flipped && decide (x.flipped.eraseDups.length = x.flipped.length)

/-- At most ten byte lanes, each with at most five training runs (R422, R423). -/
def BootDram.wf (x : BootDram) : Bool :=
  [x.slow, x.fast].all fun l => decide (l.length ≤ 10) && l.all fun runs => decide (runs.length ≤ 5)

/-- The command's operands are in range. -/
def Instr.wf : Instr → Bool
  | .discoveryComplete _ _ (some x) => x.wf
  | .portGetLinkQuality _ _ seen => decide (seen.length ≤ 4)
  | .calGetResult _ _ e | .ledgerCommit _ _ e | .sysExportConfig _ _ e | .frameEmit _ _ _ _ e => e.toList.all ReadError.wf
  | .cameraLineReceived t _ first packets crcErrors _ => decide (first ≤ t) && decide (packets.length ≤ 4) && decide (crcErrors.length ≤ 4)
  | .eyeScan _ _ _ width _ _ => decide (width ≤ 256)
  | .lateTileDelivery _ _ errors | .lookbackJobDone _ _ errors => errors.all ReadError.wf
  | .gangForm _ nodes _ overlaps =>
    decide (2 ≤ nodes.length) && decide (nodes.length ≤ 4) && allBelow 256 nodes && decide (overlaps.length = nodes.length)
  | .dramActivationLimit _ _ _ rows => decide (rows.length ≤ 16) && rows.all fun y => decide (y.2.length ≤ 6)
  | .dramDqsTracking _ _ d => decide (d.length = 10) && d.all fun x => decide (-1 ≤ x) && decide (x ≤ 1)
  | .dramPatrolScrub _ _ errors _ _ permille => errors.all ReadError.wf && decide (permille ≤ 1000)
  | .sramScrub _ words => words.all SramWord.wf
  | .dmaDescriptor _ _ desc _ _ _ => decide (desc.length = 64)
  | .bootComplete _ _ dram => decide (dram.length ≤ 4) && dram.all fun x => x.toList.all BootDram.wf
  | _ => true

end Sys2Proof
end

