-- ==== Sys2Proof/Tests/Slice0.lean ====
section
/-! SUPPORT. Tests: for every statement with hypotheses a small state that meets them, clause by clause; for every check of an
ill-formed command a command it refuses; and some of what the spec states, on small values. Expected values are those of the spec,
or worked out by hand from it. -/
namespace Sys2Proof
open Sys2Proof.Machine

section
set_option maxRecDepth 20000

/-- A request payload of n bytes, zero but for little-endian fields given as (offset, width, value). -/
def testPayload (n : Nat) (fs : List (Nat × Nat × Nat)) : List Byte := fs.foldl (fun bs f => putB bs f.1 (le f.2.1 f.2.2)) (zeros n)

/-- A request of mailbox 1. -/
def testJob (code : Nat) (p : List Byte) : Job :=
  { code, rawCode := code, sequence := 1, cls := 1, tag := 0, payload := p, doorbellS := 0, doorbellNs := 0, audited := false }

/-- The device after boot in a mode. -/
def testIn (base : Base) (primary : Nat) : Chip :=
  { State.reset.chip with modes := { State.reset.chip.modes with boot := .done, base, primary } }

/-- CONFIGURE. -/
def testChip : Chip := testIn .configure 4

/-- CALIBRATE, with lane 0 mapped and auxiliary channel 0 enabled. -/
def testCal : Chip :=
  let c := testIn .calibrate 5
  { c with
    lane := vset c.lane 0 { vget c.lane 0 with port := some 0 }
    aux := { c.aux with ch := vset c.aux.ch 0 { vget c.aux.ch 0 with enable := true } } }

/-- CONFIGURE, with transaction 1 OPEN. -/
def testTx : Chip :=
  { testChip with ledger := { nextId := 2, opened := [{ id := 1, rejectLate := false, tag := 0 }] } }

/-- CONFIGURE, with the look-back in use and line 7 in its index. -/
def testHistory : Chip :=
  let tag : Tag := { number := 7, md := 100, timeS := 0, timeNs := 0, speed := 0, flags := 0 }
  let c := { testChip with orangery := { testChip.orangery with
    enable := true, everEnabled := true, index := [{ tag, cdPitch := 16000, column0 := 0, columnCount := 64 }] } }
  { c with engines := { c.engines with spare := some 16 } }

/-- CONFIGURE, with a view configured, and started. -/
def testView : Chip := { testChip with view := vset testChip.view 0 { vget testChip.view 0 with configured := true } }
def testViewOn : Chip := { testChip with view := vset testChip.view 0 { vget testChip.view 0 with configured := true, started := true } }

/-- CONFIGURE, with compression job 1 queued. -/
def testZip : Chip := { testChip with zip := { testChip.zip with jobs := [{ id := 1, operation := 0 }] } }

/-- CONFIGURE, with axis 0 configured and idle. -/
def testAxis : Chip :=
  { testChip with axis := vset testChip.axis 0 { vget testChip.axis 0 with
      configured := true, state := .idle, cfg := { (vget testChip.axis 0).cfg with swNegGpio := 0, posMin := -100, posMax := 100 } } }

/-- CONFIGURE, with auxiliary channel 0 enabled. -/
def testAux : Chip :=
  { testChip with aux := { testChip.aux with ch := vset testChip.aux.ch 0 { vget testChip.aux.ch 0 with enable := true } } }

/-- CONFIGURE, in the grace of a thermal request. -/
def testGrace : Chip := { testChip with health := { testChip.health with state := .grace } }

/-- CONFIGURE, with a session on mailbox 1. -/
def testSession : Chip :=
  { testChip with sec := { testChip.sec with sessions := vset testChip.sec.sessions 1 (some { cls := 2, id := 1, idleS := 60, lastCommand := 0 }) } }

/-- LOCKDOWN. -/
def testLocked : Chip := { testChip with modes := { testChip.modes with lockdown := true, primary := 12 } }

/-- CONFIGURE, with both firmware banks valid. -/
def testBank : Chip := { testChip with fw := { testChip.fw with running := 0, valid := Vector.replicate 2 true } }

/-- A device whose mailbox 1 holds a request. -/
def testState (c : Chip) (j : Job) : State :=
  { State.reset with chip := { c with mbx := { c.mbx with mb := vset c.mbx.mb 1 { owner := true, job := some j } } } }

/-- A request is held and passes the checks of its command. -/
def testMet (code : Nat) (accepts : Env → Job → Chip → Bool) (c : Chip) (p : List Byte) : Bool :=
  let j := testJob code p
  let s := testState c j
  s.holds 1 code j && accepts ⟨1, s.bulk⟩ j (s.tick 5)

/-- A request is held and fails a check of its command. -/
def testFailed (x : Nat × (Env → Job → Chip → Bool)) : Bool :=
  let j := testJob x.1 (zeros 5)
  let s := testState testChip j
  s.holds 1 x.1 j && !x.2 ⟨1, s.bulk⟩ j (s.tick 5)

/-! ### Requests that meet the hypotheses of the completion statements -/

/-- Requests that meet the hypotheses of the statement of these commands, one for each clause. -/
theorem test_encoder_and_trigger_requests_are_met :
    testMet 0x0300 acceptsEncConfigure testChip (testPayload 32 [(14, 2, 1), (16, 8, 1)]) = true ∧
    testMet 0x0301 acceptsEncGetState testChip (zeros 2) = true ∧
    testMet 0x0302 acceptsTrigConfigure testChip (testPayload 24 [(2, 2, 8)]) = true ∧
    testMet 0x0303 acceptsTrigSetPitch testTx (testPayload 12 [(0, 4, 1)]) = true ∧
    testMet 0x0304 acceptsWebSetGeometry testTx (testPayload 80 [(0, 4, 1)]) = true := by decide

/-- Requests that meet the hypotheses of the statement of these commands, one for each clause. -/
theorem test_port_requests_are_met :
    testMet 0x0200 acceptsPortDiscover testChip (zeros 16) = true ∧
    testMet 0x0201 acceptsPortConfigure testChip (testPayload 32 [(4, 4, 10), (12, 2, 1), (14, 2, 1), (16, 2, 10)]) = true ∧
    testMet 0x0202 acceptsPortReadCameraReg testChip (testPayload 12 [(8, 2, 4)]) = true ∧
    testMet 0x0203 acceptsPortWriteCameraReg testChip (testPayload 16 [(8, 2, 4)]) = true ∧
    testMet 0x0204 acceptsPortGetLinkQuality testChip (zeros 2) = true ∧
    testMet 0x0205 acceptsLaneMap testChip (testPayload 32 [(0, 16, 0xffffffffffffffffffffffffffffffff)]) = true ∧
    testMet 0x0206 acceptsLaneGetStatus testChip (zeros 0) = true ∧
    testMet 0x0207 acceptsVcamConfigure testChip (testPayload 32 [(4, 1, 1), (5, 1, 12), (6, 2, 1), (12, 4, 64), (16, 2, 1), (18, 2, 1)]) = true := by decide

/-- Requests that meet the hypotheses of the statement of these commands, one for each clause. -/
theorem test_calibration_requests_are_met :
    testMet 0x0400 acceptsCalFlatField testCal (testPayload 36 [(0, 2, 1), (3, 1, 8), (8, 2, 256), (14, 2, 10), (16, 1, 1), (18, 2, 1), (32, 2, 1)]) = true ∧
    testMet 0x0401 acceptsCalGeometry testCal (testPayload 192 [(0, 2, 1), (2, 1, 4), (3, 1, 1), (4, 2, 8), (8, 4, 16), (30, 2, 1), (160, 4, 0), (164, 4, 1), (168, 4, 2), (172, 4, 3), (176, 4, 4), (180, 4, 5), (184, 4, 6), (188, 4, 7)]) = true ∧
    testMet 0x0402 acceptsCalGetResult testCal (testPayload 12 [(4, 1, 5)]) = true ∧
    testMet 0x0404 acceptsCalAux testCal (testPayload 16 [(0, 1, 1), (3, 1, 8), (4, 4, 1000000)]) = true ∧
    testMet 0x0403 acceptsCalLinks testCal (testPayload 8 [(2, 2, 1), (5, 1, 1)]) = true := by decide

/-- Requests that meet the hypotheses of the statement of these commands, one for each clause. -/
theorem test_pipeline_requests_are_met :
    testMet 0x0500 acceptsPipeSetCorrection testTx (testPayload 32 [(0, 4, 1)]) = true ∧
    testMet 0x0501 acceptsPipeSetStitch testTx (testPayload 28 [(0, 4, 1)]) = true ∧
    testMet 0x0502 acceptsPipeSetReference testTx (testPayload 24 [(0, 4, 1)]) = true ∧
    testMet 0x0503 acceptsPipeSetDetection testTx (testPayload 40 [(0, 4, 1)]) = true ∧
    testMet 0x0504 acceptsPipeSetFilters testTx (testPayload 12 [(0, 4, 1), (4, 1, 3)]) = true ∧
    testMet 0x0505 acceptsPipeSetLabelling testTx (testPayload 16 [(0, 4, 1)]) = true ∧
    testMet 0x0508 acceptsPipeSetTiles testTx (testPayload 24 [(0, 4, 1)]) = true ∧
    testMet 0x0506 acceptsPipeLoadClassifier testTx (testPayload 24 [(0, 4, 1), (4, 1, 1), (6, 2, 8)]) = true ∧
    testMet 0x0507 acceptsPipeSetRecurrence testTx (testPayload 16 [(0, 4, 1)]) = true := by decide

/-- Requests that meet the hypotheses of the statement of these commands, one for each clause. -/
theorem test_output_and_history_requests_are_met :
    testMet 0x0700 acceptsOutSetRecordRing testChip (testPayload 32 [(1, 1, 0), (8, 4, 1024), (16, 8, 4096), (24, 8, 32)]) = true ∧
    testMet 0x0701 acceptsOutSetTileRing testChip (testPayload 32 [(1, 1, 0), (8, 4, 16), (16, 8, 4096), (24, 8, 32), (12, 4, 65536)]) = true ∧
    testMet 0x0705 acceptsOutGetStats testChip (zeros 4) = true ∧
    testMet 0x0800 acceptsLookbackConfigure testChip (testPayload 16 [(8, 4, 10)]) = true ∧
    testMet 0x0801 acceptsLookbackRetrieve testHistory (testPayload 56 [(8, 8, 100), (20, 4, 63), (26, 1, 255), (28, 4, 4096), (40, 8, 65536)]) = true ∧
    testMet 0x0802 acceptsLookbackReplay testHistory (testPayload 40 [(8, 8, 100), (20, 4, 63)]) = true ∧
    testMet 0x0803 acceptsLookbackPin testHistory (testPayload 32 [(1, 1, 1), (16, 8, 100), (28, 4, 63)]) = true ∧
    testMet 0x0804 acceptsLookbackStatus testChip (zeros 4) = true := by decide

/-- Requests that meet the hypotheses of the statement of these commands, one for each clause. -/
theorem test_view_and_compression_requests_are_met :
    testMet 0x0702 acceptsViewConfigure testChip (testPayload 64 [(2, 2, 2), (4, 2, 1), (6, 2, 16), (12, 4, 64), (16, 1, 1), (48, 4, 2), (52, 4, 65536)]) = true ∧
    testMet 0x0703 acceptsViewStreamStart testView (zeros 4) = true ∧
    testMet 0x0704 acceptsViewStreamStop testViewOn (zeros 4) = true ∧
    testMet 0x0900 acceptsZipSubmit testChip (testPayload 64 [(2, 1, 1), (4, 1, 255)]) = true ∧
    testMet 0x0901 acceptsZipStatus testZip (testPayload 4 [(0, 4, 1)]) = true ∧
    testMet 0x0902 acceptsZipCancel testZip (testPayload 4 [(0, 4, 1)]) = true := by decide

/-- Requests that meet the hypotheses of the statement of these commands, one for each clause. -/
theorem test_ledger_and_motion_requests_are_met :
    testMet 0x0600 acceptsLedgerOpen testChip (zeros 8) = true ∧
    testMet 0x0601 acceptsLedgerCommit testTx (testPayload 32 [(0, 4, 1)]) = true ∧
    testMet 0x0602 acceptsLedgerAbort testTx (testPayload 4 [(0, 4, 1)]) = true ∧
    testMet 0x0603 acceptsLedgerStatus testChip (zeros 4) = true ∧
    testMet 0x0B00 acceptsAxisConfigure testChip (testPayload 72 [(3, 1, 255), (10, 2, 1), (12, 2, 100), (16, 2, 1), (18, 1, 255), (19, 1, 255), (24, 8, 65536), (32, 4, 1), (36, 4, 1), (40, 4, 1), (44, 4, 1), (48, 4, 1), (52, 4, 10), (64, 8, 1)]) = true ∧
    testMet 0x0B01 acceptsAxisHome testAxis (testPayload 32 [(1, 1, 1), (16, 4, 1)]) = true ∧
    testMet 0x0B02 acceptsAxisMove testAxis (zeros 24) = true ∧
    testMet 0x0B03 acceptsAxisStop testChip (zeros 4) = true ∧
    testMet 0x0B04 acceptsAxisStatus testChip (zeros 4) = true ∧
    testMet 0x0B05 acceptsMarkConfigure testTx (testPayload 56 [(0, 4, 1)]) = true := by decide

/-- Requests that meet the hypotheses of the statement of these commands, one for each clause. -/
theorem test_time_requests_are_met :
    testMet 0x0A00 acceptsTimeGet testChip (zeros 4) = true ∧
    testMet 0x0A01 acceptsTimeSet testChip (zeros 32) = true ∧
    testMet 0x0A02 acceptsPtpConfigure testChip (testPayload 16 [(15, 1, 2)]) = true ∧
    testMet 0x0A03 acceptsPtpStatus testChip (zeros 4) = true ∧
    testMet 0x0A04 acceptsServoConfigure testChip (testPayload 36 [(3, 1, 1), (12, 4, 100), (16, 4, 1), (20, 4, 10), (32, 2, 1)]) = true ∧
    testMet 0x0A05 acceptsPulseSchedule testChip (testPayload 40 [(28, 4, 8)]) = true ∧
    testMet 0x0A06 acceptsPulseCancel testChip (zeros 4) = true ∧
    testMet 0x0A07 acceptsCaptureConfigure testChip (testPayload 32 [(3, 1, 24), (8, 4, 64), (16, 8, 4096), (24, 8, 32)]) = true := by decide

/-- Requests that meet the hypotheses of the statement of these commands, one for each clause. -/
theorem test_auxiliary_and_gang_requests_are_met :
    testMet 0x0C00 acceptsAuxConfigure testChip (testPayload 32 [(5, 1, 24), (12, 4, 64), (16, 8, 4096), (24, 8, 32)]) = true ∧
    testMet 0x0C01 acceptsAuxLoadCoeffs testChip (testPayload 12 [(6, 2, 1), (8, 4, 1)]) = true ∧
    testMet 0x0C02 acceptsAuxSwapBank testAux (zeros 8) = true ∧
    testMet 0x0C03 acceptsAuxToneConfigure testChip (testPayload 20 [(4, 4, 1), (8, 4, 16)]) = true ∧
    testMet 0x0C04 acceptsAuxRead testChip (zeros 4) = true ∧
    testMet 0x0F00 acceptsGangConfigure testChip (testPayload 32 [(0, 1, 1), (4, 2, 2), (6, 2, 65535), (12, 4, 16000), (20, 1, 6), (21, 1, 1), (22, 1, 1)]) = true ∧
    testMet 0x0F01 acceptsGangStatus testChip (zeros 0) = true ∧
    testMet 0x0D05 acceptsDramStatus testChip (zeros 4) = true := by decide

/-- Requests that meet the hypotheses of the statement of these commands, one for each clause. -/
theorem test_event_and_health_requests_are_met :
    testMet 0x0107 acceptsSysSetEventRing testChip (testPayload 32 [(8, 4, 64), (16, 8, 4096), (24, 8, 32)]) = true ∧
    testMet 0x0108 acceptsSysSetEventMask testChip (zeros 32) = true ∧
    testMet 0x0D00 acceptsHealthStatus testChip (zeros 32) = true ∧
    testMet 0x0D01 acceptsThermalConfigure testChip (testPayload 16 [(0, 2, 960), (2, 2, 961), (4, 2, 962), (6, 2, 963), (8, 2, 964), (12, 4, 10)]) = true ∧
    testMet 0x0D02 acceptsThermalAckRequest testGrace (zeros 4) = true ∧
    testMet 0x0D03 acceptsLifeRead testChip (zeros 10) = true ∧
    testMet 0x0D04 acceptsLifeSetCalendar testChip (zeros 4) = true := by decide

/-- Requests that meet the hypotheses of the statement of these commands, one for each clause. -/
theorem test_security_requests_are_met :
    testMet 0x0E00 acceptsSecSessionOpen testChip (testPayload 8 [(1, 1, 2), (4, 4, 60)]) = true ∧
    testMet 0x0E01 acceptsSecSessionClose testSession (zeros 0) = true ∧
    testMet 0x0E03 acceptsSecFuseRead testChip (zeros 0) = true ∧
    testMet 0x0E02 acceptsSecFuseWrite testChip (zeros 4) = true ∧
    testMet 0x0E04 acceptsSecKeyLoad testChip (testPayload 36 [(0, 1, 1)]) = true ∧
    testMet 0x0E05 acceptsSecTamperConfigure testChip (zeros 12) = true ∧
    testMet 0x0E06 acceptsSecUnlock testLocked (testPayload 8 [(1, 1, 2)]) = true := by decide

/-- Requests that meet the hypotheses of the statement of these commands, one for each clause. -/
theorem test_system_requests_are_met :
    testMet 0x0100 acceptsSysGetInfo testChip (zeros 0) = true ∧
    testMet 0x0101 acceptsSysGetCaps testChip (zeros 0) = true ∧
    testMet 0x0103 acceptsSysGetMode testChip (zeros 0) = true ∧
    testMet 0x0102 acceptsSysSetMode testChip (testPayload 4 [(0, 1, 3)]) = true ∧
    testMet 0x0104 acceptsSysResetSubsystem testChip (zeros 4) = true ∧
    testMet 0x0105 acceptsSysFwStage testChip (testPayload 20 [(0, 1, 1), (1, 1, 1), (2, 2, 4), (8, 4, 100)]) = true ∧
    testMet 0x0106 acceptsSysFwActivate testBank (testPayload 4 [(0, 1, 1)]) = true ∧
    testMet 0x0109 acceptsSysExportConfig testChip (testPayload 8 [(4, 4, 16777216)]) = true := by decide

/-- For each command a request that is held and fails a check. -/
theorem test_refused_inspection_requests_exist :
    ([(0x0300, acceptsEncConfigure), (0x0301, acceptsEncGetState), (0x0302, acceptsTrigConfigure), (0x0303, acceptsTrigSetPitch),
      (0x0304, acceptsWebSetGeometry), (0x0200, acceptsPortDiscover), (0x0201, acceptsPortConfigure), (0x0202, acceptsPortReadCameraReg),
      (0x0203, acceptsPortWriteCameraReg), (0x0204, acceptsPortGetLinkQuality), (0x0205, acceptsLaneMap), (0x0206, acceptsLaneGetStatus),
      (0x0207, acceptsVcamConfigure), (0x0400, acceptsCalFlatField), (0x0401, acceptsCalGeometry), (0x0402, acceptsCalGetResult),
      (0x0500, acceptsPipeSetCorrection), (0x0501, acceptsPipeSetStitch), (0x0502, acceptsPipeSetReference), (0x0503, acceptsPipeSetDetection),
      (0x0504, acceptsPipeSetFilters), (0x0505, acceptsPipeSetLabelling), (0x0508, acceptsPipeSetTiles), (0x0507, acceptsPipeSetRecurrence),
      (0x0700, acceptsOutSetRecordRing), (0x0701, acceptsOutSetTileRing), (0x0705, acceptsOutGetStats), (0x0800, acceptsLookbackConfigure),
      (0x0801, acceptsLookbackRetrieve), (0x0802, acceptsLookbackReplay), (0x0803, acceptsLookbackPin), (0x0804, acceptsLookbackStatus),
      (0x0702, acceptsViewConfigure), (0x0703, acceptsViewStreamStart), (0x0704, acceptsViewStreamStop), (0x0900, acceptsZipSubmit),
      (0x0901, acceptsZipStatus), (0x0902, acceptsZipCancel), (0x0600, acceptsLedgerOpen), (0x0602, acceptsLedgerAbort),
      (0x0603, acceptsLedgerStatus), (0x0B00, acceptsAxisConfigure), (0x0B01, acceptsAxisHome), (0x0B03, acceptsAxisStop),
      (0x0B04, acceptsAxisStatus), (0x0B05, acceptsMarkConfigure), (0x0A00, acceptsTimeGet), (0x0A01, acceptsTimeSet),
      (0x0A03, acceptsPtpStatus), (0x0A04, acceptsServoConfigure), (0x0A06, acceptsPulseCancel), (0x0A07, acceptsCaptureConfigure),
      (0x0C03, acceptsAuxToneConfigure), (0x0C04, acceptsAuxRead)].all testFailed) = true := by decide

/-- For each command a request that is held and fails a check. -/
theorem test_refused_system_requests_exist :
    ([(0x0404, acceptsCalAux), (0x0403, acceptsCalLinks), (0x0F00, acceptsGangConfigure), (0x0F01, acceptsGangStatus),
      (0x0D05, acceptsDramStatus), (0x0107, acceptsSysSetEventRing), (0x0108, acceptsSysSetEventMask), (0x0D00, acceptsHealthStatus),
      (0x0D01, acceptsThermalConfigure), (0x0D02, acceptsThermalAckRequest), (0x0D03, acceptsLifeRead), (0x0D04, acceptsLifeSetCalendar),
      (0x0E00, acceptsSecSessionOpen), (0x0E01, acceptsSecSessionClose), (0x0E03, acceptsSecFuseRead), (0x0E02, acceptsSecFuseWrite),
      (0x0E04, acceptsSecKeyLoad), (0x0E05, acceptsSecTamperConfigure), (0x0E06, acceptsSecUnlock), (0x0100, acceptsSysGetInfo),
      (0x0101, acceptsSysGetCaps), (0x0103, acceptsSysGetMode), (0x0104, acceptsSysResetSubsystem), (0x0106, acceptsSysFwActivate),
      (0x0109, acceptsSysExportConfig), (0x010A, acceptsSysImportConfig)].all testFailed) = true := by decide

/-! ### Events: states that meet the hypotheses, clause by clause -/

/-- The device at instant 5, as a row finds it. -/
def testAt (c : Chip) : Chip := ({ State.reset with chip := c } : State).tick 5

/-- INSPECT, anchored, on a grid of one pitch. -/
def testRun : Chip :=
  let c := testIn .inspect 6
  { c with trig := { c.trig with anchored := true, gridNum := 1 } }

def testTag (n : Nat) : Tag := { number := n, md := 100 + n, timeS := 0, timeNs := 0, speed := 0, flags := 0 }

/-- Channel 0 counts, with its index enabled. -/
def testEnc : Chip :=
  { testRun with enc := vset testRun.enc 0 { vget testRun.enc 0 with configured := true, indexEnable := true, countsPerRev := 4, forward := true } }

def testStep (a b : Bool) : Option Int :=
  let e := vget (testAt testEnc).enc 0
  countStep e.form (e.seen e.pinA e.pinB).1 (e.seen e.pinA e.pinB).2 (e.seen a b).1 (e.seen a b).2

/-- Encoder, index and trigger events: a channel not configured and one that counts forward, backward, not at all, and not legally; a
level held for as many samples as the filter asks, and for one fewer; an active index edge and none; a channel that comes to a stop after
its zero-speed time and not before; a trigger due after no other, one held that is due, one held that is not, a target not reached. -/
theorem test_encoder_events_are_met :
    (vget (testAt testChip).enc 0).configured = false ∧ (vget (testAt testEnc).enc 0).configured = true ∧
    testStep false true = some 1 ∧ testStep true false = some (-1) ∧ testStep false false = some 0 ∧ testStep true true = none ∧
    (let e := vget (testAt testEnc).enc 0
     e.indexEnable && e.countsPerRev != 0 && e.forward && !(xor e.pinZ e.invertZ) && xor true e.invertZ && !(xor false e.invertZ) && !e.stopped &&
       decide (e.glitchSamples ≤ 2) && !decide (e.glitchSamples ≤ 1)) = true ∧
    (let e := { vget (testAt testEnc).enc 0 with zeroSpeedTimeout := 100 }
     decide (e.times.headD 0 + e.zeroSpeedTimeout * 1000000 ≤ 100000000) && !decide (e.times.headD 0 + e.zeroSpeedTimeout * 1000000 ≤ 99999999)) = true ∧
    (let c := testAt { testEnc with trig := { testEnc.trig with mdCount := 1 } }
     generatorRuns c && c.trig.lastTrigger.isNone && (knownInstant c).isNone && decide (triggerGoal c ≤ mdAt c (tickNow c)) &&
       (issueTrigger c).trig.tags.head?.isSome) = true ∧
    (let c := testAt testEnc
     let held (t : Nat) : Chip := { c with trig := { c.trig with held := [(t, 1)] } }
     decide (mdAt c (tickNow c) < triggerGoal c) && (knownInstant c).isNone && knownInstant (held 4) == some 4 && triggerDue (held 4) && !triggerDue (held 8) && !generatorRuns (testAt testChip)) = true := by decide

def testCamera : CameraInfo :=
  { defaultLinks := 1, defaultSpeed := 6, pixelFormat := 0x01100025, width := 64, minPeriodNs := 1000, revision := 0, lineMode := true
    model := [], serial := [], packetData := 64, scans := [(6, [256, 256, 256, 256])] }

def testDiscovery : Discovery := { mb := 1, links := 0, speed := 0, fallback := true, minPeriodAddr := 0, timeoutMs := 100 }

def testPort (f : Port → Port) : Chip := testAt (modPort 0 f testRun)

/-- Discovery ends with a camera accepted at a speed that is healthy, or without one; a control access waits; a virtual camera is on. -/
theorem test_discovery_events_are_met :
    (vget (testPort fun x => { x with discovery := some testDiscovery }).port 0).discovery = some testDiscovery ∧ testDiscovery.queued = false ∧ cameraAccepted testCamera = true ∧
    (speedsToTry testDiscovery testCamera.defaultSpeed).find? (locksHealthy testCamera 10 1) = some 6 ∧ locksHealthy { testCamera with errors := [(6, [10])] } 10 1 6 = false ∧
    (vget (testPort fun x => { x with accesses := [{ mb := 1, write := false, addr := 0, length := 4, data := [] }] }).port 0).accesses =
      { mb := 1, write := false, addr := 0, length := 4, data := [] } :: [] ∧
    (vget (testAt { testRun with vcam := vset testRun.vcam 0 { vget testRun.vcam 0 with enabled := true } }).vcam 0).enabled = true := by decide

def testLink (c : Chip) : Chip :=
  modPort 0 (fun x => { x with links := 1, link := vset x.link 0 { vget x.link 0 with state := 1 } }) c

/-- Lane 0 mapped to port 0. -/
def testMapped (c : Chip) : Chip := modLane 0 (fun x => { x with port := some 0 }) c

/-- A line that matches a trigger, on a streaming port and on one that locks again, with a packet lost to its CRC, and too late; a line
that does not come; a power fault; an eye scan good and, once, bad; errors at the limit; an attempt to recover; a lock that comes back
changed, mapped and not mapped. -/
theorem test_port_events_are_met :
    (let c := testAt (testMapped (modPort 0 (fun x => { x with state := .streaming, outstanding := [⟨7, 1⟩, ⟨8, 2⟩], pixelFormat := 0x01080001, width := 1 }) testRun))
     let d := modPort 0 (fun x => { x with state := .down, relocked := true }) c
     let late := modPort 0 (fun x => { x with timedOut := [(⟨7, 1⟩, 4)], outstanding := [⟨8, 2⟩] }) c
     matchLine (vget c.port 0) 3 == some (⟨7, 1⟩, [], [⟨8, 2⟩]) && (vget c.port 0).state == .streaming && laneOf (countPackets 0 [1] [1] c) 0 == some 0 &&
       ((vget c.port 0).linePixels [9]).length == 1 && (vget d.port 0).relocked && laneOf d 0 == some 0 &&
       matchLine (vget d.port 0) 3 == some (⟨7, 1⟩, [], [⟨8, 2⟩]) && ((matchLine (vget late.port 0) 3).map fun y => y.1.number) == some 7) = true ∧
    (let x := vget (testPort fun x => { x with outstanding := [⟨7, 0⟩] }).port 0
     x.outstanding == [⟨7, 0⟩] && decide (0 + x.lineTimeoutUs * 1000 ≤ 1000000) && decide (5 < 0 + x.lineTimeoutUs * 1000)) = true ∧
    (let x := vget (testPort fun x => { x with power := true, pocBlankMs := 0 }).port 0
     x.power && decide (x.powerAt + x.pocBlankMs * 1000000 ≤ 5) && x.discovery.isNone) = true ∧
    (let x := vget (testAt (testLink testRun)).port 0
     decide (0 < x.links) && (vget x.link 0).state == 1 && decide (eyeThreshold x.speed ≤ 116) && decide (0 < x.codeErrorLimit) &&
       !(vget x.link 0).unhealthyOnce && !decide (eyeThreshold x.speed ≤ 0)) = true ∧
    (let c := testAt { modPort 0 (fun x => { x with state := .down, lastAttempt := 0 }) testRun with now := 100000000 }
     (vget c.port 0).recovers && decide ((vget c.port 0).lastAttempt + 100000000 ≤ c.now) && (laneOf c 0).isNone &&
       (laneOf (testMapped c) 0).isSome && triggering c && (vget (testMapped c).port 0).recovers) = true := by decide

/-- INSPECT with trigger 8 next, lane 0 mapped to port 0, engine 0 bound to it and a forward map in force. -/
def testPipe : Chip :=
  let c := testMapped testRun
  let c := { c with trig := { c.trig with number := 8 }, engines := { c.engines with binding := vset c.engines.binding 0 (some 0), spare := some 16 } }
  { c with corr := vset c.corr 0 { vget c.corr 0 with bank := { (vget c.corr 0).bank with map := some [] } } }

def testLine : Stitched := { tag := testTag 3, columns := [] }

/-- Correction, assembly and the wait of a lane. -/
theorem test_line_events_are_met :
    (let c := testAt (modLane 0 (fun x => { x with buffer := [{ number := 3, md := 100, pixels := [] }] }) testPipe)
     pipelineRuns c && laneMapped c 0 && (vget c.engines.binding 0).isSome && !bit c.engines.withheld 0 && !contributed c 0 3 &&
       decide (c.perg.next ≤ 3) && decide (3 < c.trig.number) && (cameraLine c (settingsAt c 3) 0 3).isSome) = true ∧
    (let c := testAt { testRun with trig := { testRun.trig with number := 8 } }
     canAssemble c && !(assembleLine c).perg.recent.isEmpty) = true ∧
    (let c := testAt testPipe
     laneMapped c 0 && (((List.range 5).map (c.perg.next + ·)).find? (fun m => decide (m < c.trig.number) && !settled c 0 m)).isSome) = true := by decide

/-- A seam candidate alone, with its sums. -/
def testSeam : Seam :=
  { (getSeam testRun 0) with sums := List.replicate 76 {} ++ [{ n := 2, l := 1, ll := 1, r := 1, rr := 1, lr := 1 }], possible := 2 }

/-- A seam measured, well, weakly and before an entry that applied since; and a position to apply. -/
theorem test_seam_events_are_met :
    (let c := testAt (modSeam 0 (fun _ => testSeam) { testRun with perg := { testRun.perg with next := 1024 } })
     let x := getSeam c 0
     let z := seamSettings c 0 1023
     !x.sums.isEmpty && decide (1024 ≤ c.perg.next) && c.perg.next % 1024 == 0 && z.track && decide (x.possible ≤ 2 * (x.sums.getD 76 {}).n) &&
       x.taints.isEmpty && ({ x with textureMin := z.textureMin }.measure 0 0).1.isSome && !decide (1023 < x.appliedAt)) = true ∧
    (let c := testAt (modSeam 0 (fun x => { x with next := [(1, 1, 0, true)] }) testRun)
     (getSeam c 0).applies.isEmpty && (((getSeam c 0).next.filter fun y => decide (y.2.2.1 ≤ c.perg.next)).getLast?) == some (1, 1, 0, true)) = true := by decide

/-- Detection in INSPECT and in RELAY, the streak evaluation, labelling, a closed blob, a sweep of the Rotunda. -/
theorem test_detection_events_are_met :
    (let c := testAt { testRun with perg := { testRun.perg with out := [testLine] } }
     pipelineRuns c && c.perg.out == testLine :: [] && c.modes.base == .inspect) = true ∧
    (let c := testAt { testIn .relay 10 with perg := { testRun.perg with out := [testLine] } }
     pipelineRuns c && c.perg.out == testLine :: [] && c.modes.base == .relay) = true ∧
    (let c := testAt { testRun with det := { testRun.det with out := [{ line := testLine, mask := [] }] } }
     pipelineRuns c && c.det.out == { line := testLine, mask := [] } :: [] && !gangAbove c 3) = true ∧
    (firstClosed (testAt { testRun with carry := { testRun.carry with closed := [{ blob := {} }] } })).isSome = true ∧
    (let x : RollSample := { ph16 := 0, rev16 := 0, revolution := 0, indexed := true }
     let c := testAt { testRun with perg := { testRun.perg with next := 5 }, rotunda := { testRun.rotunda with samples := [(3, [some x])] } }
     c.rotunda.samples.find? (fun s => decide (s.1 < c.perg.next)) == some (3, [some x]) && sampleOf c 3 0 == some x) = true := by decide

def testRing (full : Bool) : Ring :=
  { enabled := true, channel := 0, irqHoldoffUs := 1, base := 4096, entryCount := 2, entrySize := 128, headAddr := 32, head := if full then 2 else 0
    signalBy := some 1000 }

def testRec : Rec := { data := zeros 128, id := 1, mdFirst := 0, mdLast := 0 }
def testTile (late : Bool) : TileJob := { ref := 1, defect := 1, size := 16, c0 := 0, n0 := 0, oversize := false, fromLookback := late }

/-- Records and tiles that leave, and the hold-off of both kinds of ring. -/
theorem test_output_events_are_met :
    (let c := testAt { testRun with records := { testRun.records with queue := [testRec], ring := testRing false } }
     c.records.queue == testRec :: [] && c.records.ring.enabled && !c.records.ring.full && hostWrites c && !waitsForTile c testRec) = true ∧
    (let c := testAt { testRun with tiles := { testRun.tiles with jobs := [testTile false], ring := testRing false } }
     c.tiles.jobs == testTile false :: [] && !(testTile false).fromLookback && tileRingOpen c && tileEngine c (testTile false)) = true ∧
    (let c := testAt { testRun with tiles := { testRun.tiles with jobs := [testTile true], ring := testRing false } }
     c.tiles.jobs == testTile true :: [] && (testTile true).fromLookback && tileRingOpen c && tileEngine c (testTile true)) = true ∧
    ((testRing false).holdoffOver 1000 && !(testRing false).holdoffOver 999) = true ∧
    (let c := testAt { testRun with evq := { testRun.evq with ring := testRing false } }
     c.evq.ring == testRing false) = true ∧
    (let c := testAt (modDma 0 (fun d => { d with owner := 1 }) { testRun with records := { testRun.records with ring := testRing false } })
     ringOf c 0 == some (testRing false)) = true := by decide

/-- A shadow period, a block that agrees and one that does not, faults of a lane's engine and of the spare, and self-tests. -/
theorem test_spare_events_are_met :
    (let c := testAt testPipe
     c.engines.spare == some 16 && triggering c && !replaying c && c.engines.shadow.isNone && c.engines.interrupted.isNone &&
       nextShadowLane c c.engines.lastLane == some 0) = true ∧
    (let c := testAt { modEngines (fun e => { e with shadow := some (0, 256), blocks := [(256, 5, 5)] }) testPipe with
       trig := { testPipe.trig with number := 600 }, perg := { testPipe.perg with next := 512 } }
     c.engines.shadow == some (0, 256) && c.engines.spare == some 16 && blockProcessed c 0 256 &&
       ((c.engines.blocks.find? fun b => b.1 == 256).map (·.2)).getD (0, 0) == (5, 5) && Nat.xor 5 0 == 5 && Nat.xor 5 1 != 5) = true ∧
    (let c := testAt testPipe
     c.engines.spare != some 0 && engineLane c 0 == some 0 && !bit c.engines.withheld 0) = true ∧
    (testAt testPipe).engines.spare = some 16 ∧
    (let x : UnderTest := { engine := 3, lane := 0, cause := 3 }
     let c := testAt (modEngines (fun e => { e with testing := [x] }) testPipe)
     c.engines.testing.find? (fun x => x.engine == 3) == some x && x.cause != 1 && x.cause != 2) = true := by decide

def testZipJob : ZipJob := { id := 1, operation := 0, level := 1 }
def testBlob : Blob := {}

def testBlock : Block := { lane := 0, span := 0, lines := [], depth8 := false, bytes := 64 }

def testJobOf (replay : Bool) : LbJob :=
  { id := 1, replay, region := {}, first := 0, lines := 1, request := testPayload 56 [(26, 1, 255)] }

/-- A block that finds room, the flush time-out, look-back jobs of both kinds that start and end. -/
theorem test_history_events_are_met :
    (let c := testAt { testHistory with orangery := { testHistory.orangery with staging := [testBlock] } }
     c.orangery.staging == testBlock :: [] &&
       (let gone := modOrangery (fun o => { o with staging := [] }) c
        (placeBytes (testBlock.bytes / extentBytes + 2) testBlock.bytes [] (writerFill (stagingUsed gone.orangery) gone)).isSome)) = true ∧
    quietFor ((testAt testHistory).orangery.flushMs * 1000000) (testAt testHistory) = true ∧
    (let c := testAt { testHistory with orangery := { testHistory.orangery with jobs := [testJobOf true] } }
     decide ((c.orangery.jobs.filter (·.running)).length < 4) && mode c != 3 && !lodgeRestarts c && jobInTurn c == some (testJobOf true)) = true ∧
    (let c := testAt { testHistory with orangery := { testHistory.orangery with jobs := [testJobOf false] } }
     decide ((c.orangery.jobs.filter (·.running)).length < 4) && mode c != 3 && !lodgeRestarts c && jobInTurn c == some (testJobOf false) &&
       (jobChannel (flushFor (testJobOf false) c) (testJobOf false)).isSome) = true ∧
    (let run (r : Bool) : LbJob := { testJobOf r with running := true }
     let c (r : Bool) := testAt { testHistory with orangery := { testHistory.orangery with jobs := [run r] } }
     (c true).orangery.jobs.find? (fun j => j.id == 1 && j.running) == some (run true) && (c true).health.level == 0 &&
       (c false).orangery.jobs.find? (fun j => j.id == 1 && j.running) == some (run false) && hostWrites (c false)) = true := by decide

def testStream (delivery : Nat) (full : Bool) : Chip :=
  let c := testRun
  testAt { c with view := vset c.view 0 { vget c.view 0 with started := true, cfg := { delivery, destMac := 1 }, ring := testRing full } }

/-- A frame that leaves over DMA, finds its ring full, or leaves over Ethernet, its destination known or not; compression jobs, one alone and two of both kinds, that start;
one that is done. -/
theorem test_view_and_compression_events_are_met :
    (let c := testStream 0 false
     (vget c.view 0).started && viewModes c && c.health.level == 0 && (vget c.view 0).cfg.delivery == 0 && (vget c.view 0).ring.enabled && !(vget c.view 0).ring.full && hostWrites c) = true ∧
    (let c := testStream 0 true
     (vget c.view 0).started && viewModes c && c.health.level == 0 && (vget c.view 0).cfg.delivery == 0 && (vget c.view 0).ring.full) = true ∧
    (let c := testStream 1 false
     (vget c.view 0).started && viewModes c && c.health.level == 0 && (vget c.view 0).cfg.delivery != 0 && destMac c (vget c.view 0).cfg == some 1 &&
       (destMac c { (vget c.view 0).cfg with destMac := 0 }).isNone) = true ∧
    (let c := testAt { testChip with zip := { testChip.zip with jobs := [testZipJob] } }
     let heads := ([zipHead c false, zipHead c true].filterMap id).filter fun j => (zipEngine c j).isSome && (zipChannel c j).isSome
     c.health.level == 0 && mode c != 3 && !lodgeRestarts c && heads == [testZipJob] && (zipEngine c testZipJob).isSome && (zipChannel c testZipJob).isSome) = true ∧
    (let b : ZipJob := { testZipJob with id := 2, operation := 4 }
     let c := testAt { testChip with zip := { testChip.zip with jobs := [testZipJob, b] } }
     c.health.level == 0 && mode c != 3 && !lodgeRestarts c && zipHead c false == some testZipJob && zipHead c true == some b && (zipEngine c testZipJob).isSome &&
       (zipChannel c testZipJob).isSome && (zipEngine c b).isSome && (zipChannel c b).isSome) = true ∧
    (let j : ZipJob := { testZipJob with operation := 1, state := 1, sourceLength := 3, destSize := 8 }
     let c := testAt { testChip with zip := { testChip.zip with jobs := [j] } }
     let e := runZip j [0x4B, 0x04, 0x00]
     c.zip.jobs.find? (fun j => j.id == 1 && j.state == 1) == some j && hostWrites c && !e.junk && e.consumed == some 3) = true := by decide

def testHead : Chip :=
  let c := testRun
  modHead 0 (fun h => { h with queue := [{ defect := 1, fireMd := 0, targetCd := 0, target := 0 }], cfg := { h.cfg with enable := true } }) c

def testMove : Profile := { start := 0, p := 0, v := 1, a := 0, segs := [{ dur := 1, jerk := 0 }] }

def testAxisAt (f : Axis → Axis) : Chip := testAt (modAxis 0 f testAxis)

def testHoming (back : Bool) : Homing :=
  { reference := 1, positive := false, velocity := 1, backoff := 1, maxTravel := 10, homePosition := 0, origin := 0, backingOff := back }

/-- Axis 0, its encoder 100 steps off, at instant 1005 with a stall time of 1 us. -/
def testStall (insideAt window : Nat) (homing : Option Homing) : Chip :=
  testAt { modAxis 0 (fun x => { x with
    cfg := { x.cfg with encoder := 4, devWindow := window, stallTimeUs := 1 }, position := 100, insideAt, homing
    state := if homing.isSome then .homing else x.state }) testAxis with now := 1000 }

/-- A mark that is due, an axis that arrives, that holds, that stalls (by itself, homing to a switch, backing off and homing to a hard stop), within its stall
time and within its window. -/
theorem test_mark_and_axis_events_are_met :
    (let c := testAt testHead
     let y := vget c.mark.heads 0
     !y.queue.isEmpty && inspecting c && y.cfg.enable && decide (0 ≤ (mdNow c : Int))) = true ∧
    (let c := testAxisAt fun x => { x with profile := some testMove, state := .moving }
     (vget c.axis 0).profile.isSome && (vget c.axis 0).profile == some testMove && (vget c.axis 0).state != .homing && (headOn c 0).isNone) = true ∧
    (let c := testAt (modAxis 0 (fun x => { x with profile := some testMove, state := .moving }) testHead)
     (headOn c 0).isSome) = true ∧
    (let x := vget (testAxisAt fun x => x).axis 0
     x.profile.isNone && decide (x.standstillAt + x.cfg.holdDelayMs * 1000000 ≤ 1000000000) && x.state == .idle && x.configured && x.state != .disabled) = true ∧
    (let c := testStall 0 1 none
     let x := vget c.axis 0
     x.cfg.encoder != 0xFF && x.stalled c && x.state == .idle && x.homing.isNone &&
       !(vget (testStall 6 1 none).axis 0).stalled (testStall 6 1 none) && !(vget (testStall 0 100 none).axis 0).stalled (testStall 0 100 none)) = true ∧
    (let run (h : Homing) : Chip := testStall 0 1 (some h)
     let homes (h : Homing) : Bool := (vget (run h).axis 0).stalled (run h) && (vget (run h).axis 0).state == .homing && (vget (run h).axis 0).homing == some h
     homes (testHoming false) && (testHoming false).reference != 0 && homes { testHoming true with reference := 0 } && (testHoming true).backingOff &&
       homes { testHoming false with reference := 0 } && !(testHoming false).backingOff) = true := by decide

/-- At instant 5 that motion is towards the positive end, and after 1 s it has ended; an axis without a motion rests. -/
theorem test_axis_moves (x : Axis) :
    (x.profile = some testMove → 0 < (x.kin 5).v) ∧ (x.profile = none → (x.kin 5).v = 0) ∧
    (x.profile = some testMove → x.ended 1000000000 = true) := by
  refine ⟨fun h => ?_, fun h => by simp [Axis.kin, h], fun h => by simp [Axis.ended, h, testMove, segsTime]⟩
  simp only [Axis.kin, h, testMove, segsTime, runSegs, Kin.after, List.foldl]
  norm_num

/-- A switch that closes while the axis moves towards it, while it rests, and in a homing run; chatter; a homing run before and after its
reference. -/
theorem test_switch_events_are_met :
    (let c := testAxisAt fun x => { x with profile := some testMove, state := .moving, cfg := { x.cfg with swPosGpio := 1 } }
     let x := vget c.axis 0
     gpLive c (x.switch true) && x.homing.isNone && x.state != .fault && x.state != .disabled && x.profile == some testMove && c.now == 5) = true ∧
    (let c := testAxisAt fun x => x
     let x := vget c.axis 0
     gpLive c (x.switch false) && x.homing.isNone && x.profile.isNone) = true ∧
    (let c := testAxisAt fun x => { x with homing := some (testHoming false), state := .homing, position := 10 }
     let x := vget c.axis 0
     gpLive c (x.switch false) && x.homing == some (testHoming false) && x.state == .homing && !(testHoming false).backingOff && (testHoming false).reference != 0 &&
       decide ((testHoming false).maxTravel ≤ (x.pos c.now - (testHoming false).origin).natAbs)) = true ∧
    (let c := testAxisAt fun x => { x with homing := some (testHoming true), state := .homing }
     let stop : Homing := { testHoming false with reference := 0 }
     let free := testStall 6 1 (some stop)
     (vget free.axis 0).homing == some stop && (vget free.axis 0).state == .homing && !(vget free.axis 0).stalled free &&
     (vget c.axis 0).homing == some (testHoming true) && (vget c.axis 0).state == .homing && (testHoming true).backingOff && (vget c.axis 0).ended c.now) = true := by decide

/-- A winding in drive and in decay, with its comparators blanked and not, against thresholds 90 and 110. -/
theorem test_chopper_samples_are_met :
    (let a : AxisCfg := { (vget testAxis.axis 0).cfg with windowH := 10, blankNs := 100 }
     let w (drive : Bool) : Winding := { drive, positive := true, edgeAt := 1000 }
     decide (1000 + a.blankNs ≤ 1100) && decide (1099 < 1000 + a.blankNs) && (w true).upper a 100 == 110 && (w false).lower a 100 == 90 &&
       !((w true).sample a 100 110 1100).drive && ((w true).sample a 100 109 1100).drive && ((w true).sample a 100 110 1099).drive &&
       ((w false).sample a 100 90 1100).drive && !((w false).sample a 100 91 1100).drive && !((w true).sample a 0 0 1000).drive) = true := by decide

def testEth (f : EthPort → EthPort) : Chip :=
  testAt (modEth 0 (fun e => f { e with enable := true, ptpEnable := true, linkUp := true }) testRun)

def testServo (f : Servo → Servo) : Chip := testAt (modServo f { testRun with now := 2000000000 })

/-- A PTP message to the multicast address of IEEE 802.3; an Announce of it describes `testMaster`. -/
def testMessage (messageType : Nat) : PtpMessage :=
  { messageType, domain := 0, dstMac := 0x011B19000000, udp := false, gptp := false, gmPriority1 := 128, gmClockClass := 6, gmAccuracy := 0x20
    gmVariance := 0, gmPriority2 := 128, gmIdentity := 7, parent := 9, stepsRemoved := 1, utcOffset := 37, utcValid := true }

def testMaster : Grandmaster := grandmasterOf (testMessage 0xB)

/-- A message the port takes, one on another transport, one that is no Announce; an Announce where no master is known, from the one known,
from a better and from a worse one; a message that follows none, one whose event message left no entry and one whose entry was read. -/
theorem test_ptp_messages_are_met :
    (let c := testEth fun e => { e with mac := 1 }
     let m := testMessage 0xB
     ptpRuns c 0 m.domain && ptpAccepts c 0 m && !ptpAccepts c 0 { m with udp := true } && ptpAccepts c 0 (testMessage 0) && (testMessage 0).messageType != 0xB &&
       (vget c.time.eth 0).master.isNone && testMaster.sender == 9 && testMaster.better { testMaster with sender := 3, priority1 := 200, identity := 8 } &&
       !testMaster.better { testMaster with sender := 3, priority1 := 100, identity := 8 } && testMaster.sender != 3) = true ∧
    (let x : TxTimestamp := { sequence := 5, messageType := 0, domain := 0, s := 0, ns := 0, frac := 0 }
     let c := readTimestamps 0 (testEth fun e => { e with owed := [x] })
     (vget c.time.eth 0).owed == x :: [] && followed 8 == some 0 && x.matches 0 5 0 && !x.matches 0 6 0 && followed 0xB == none && ptpRuns c 0 0) = true := by decide

/-- PTP messages and frames on a port that runs, a slave with a first and a close path delay, the end of a hold, PPS in and lost, the
reference lost, PPS out. -/
theorem test_ptp_and_servo_events_are_met :
    (let c := testEth id
     ptpRuns c 0 c.time.clock.domain && (vget c.time.eth 0).enable && (vget c.time.eth 0).linkUp && (vget c.time.eth 0).txts.length == 0) = true ∧
    (let c := testEth fun e => { e with portState := 9 }
     (vget c.time.eth 0).portState == 9 && ptpRuns c 0 c.time.clock.domain && slavePort c == some 0 && !lodgeRestarts c && (vget c.time.eth 0).mAvg.isNone) = true ∧
    (let one := { testEth id with time := { (testEth id).time with clock := { (testEth id).time.clock with twoStep := false } } }
     let two := { testEth id with time := { (testEth id).time with clock := { (testEth id).time.clock with twoStep := true } } }
     leavesNoEntry (stamp 0 one).2 0 && leavesNoEntry (stamp 0 one).2 3 && !leavesNoEntry (stamp 0 two).2 3 && leavesNoEntry two 4) = true ∧
    (let c := testEth fun e => { e with portState := 9, mAvg := some 65536 }
     slavePort c == some 0 && (vget c.time.eth 0).mAvg == some 65536 && decide (((1 * 65536 - (65536 : Int)).natAbs : Int) ≤ c.time.servo.pathStepNs * 65536)) = true ∧
    (let c := testServo fun x => { x with holdUntil := some 7 }
     c.time.servo.holdUntil == some 7 && !lodgeRestarts c && decide (7 ≤ c.now)) = true ∧
    (let c := testServo fun x => { x with source := 2, lastPps := some 7 }
     c.time.servo.source == 2 && c.time.servo.lastPps == some 7 && decide (7 + 1500000000 ≤ c.now)) = true ∧
    (let c := testAt (modTime (fun x => { x with sun := { x.sun with freqRef := 1 } }) testRun)
     c.time.sun.freqRef == 1) = true ∧
    (let c := testAt testRun
     c.time.servo.ppsOutEnable && decide (sunNs c % 1000000000 ≤ 4) && c.time.servo.ppsOutUntil.isNone) = true := by decide

def testPulse (f : Pulse → Pulse) : Chip := testAt (modPulse 0 f testRun)

def testCapture (f : Capture → Capture) : Chip := testAt (modCapture 0 (fun x => f { x with edges := 3 }) testRun)

/-- Pulses that are due, one-shot and periodic, and that end; capture edges with room and without; an Announce that does not come. -/
theorem test_pulse_and_capture_events_are_met :
    (let c := testPulse fun p => { p with state := .armed }
     pulsesRun c && boundaryReached c (vget c.time.pulse 0) && !(vget c.time.pulse 0).inPulse && (vget c.time.pulse 0).mode % 2 == 0) = true ∧
    (let c := testPulse fun p => { p with state := .armed, mode := 1, period := 40 * 2 ^ 32 }
     pulsesRun c && boundaryReached c (vget c.time.pulse 0) && !(vget c.time.pulse 0).inPulse && (vget c.time.pulse 0).mode % 2 == 1) = true ∧
    (let c := testPulse fun p => { p with state := .armed, mode := 1, period := 40 * 2 ^ 32, inPulse := true }
     pulsesRun c && boundaryReached c (vget c.time.pulse 0) && (vget c.time.pulse 0).inPulse && !(vget c.time.pulse 0).rejectLate) = true ∧
    (let c := testPulse fun p => { p with inPulse := true, emitted := 1, endsAt := 5 }
     (vget c.time.pulse 0).inPulse && decide ((vget c.time.pulse 0).endsAt ≤ c.now) && (vget c.time.pulse 0).emitted != 0) = true ∧
    (let c := testCapture fun x => { x with ring := testRing false }
     let x := vget c.time.capture 0
     decide (x.glitchSamples ≤ 2) && pulsesRun c && bit x.edges 0 && bit x.edges 1 && x.lastEdge.isNone && x.ring.enabled && !x.ring.full && hostWrites c) = true ∧
    (let c := testCapture id
     pulsesRun c && (vget c.time.capture 0).lastEdge.isNone && !(vget c.time.capture 0).ring.enabled) = true ∧
    (let c := testAt { modEth 0 (fun e => { e with portState := 4 }) testRun with now := 100000000000 }
     [4, 7, 8, 9].contains (vget c.time.eth 0).portState && announceMissing c 0 && !lodgeRestarts c && !announceMissing (testEth id) 0) = true := by decide

def testAuxRun : AuxRun := { mask := 1, external := false, phase := 0, avgLog2 := 1, refUv := 1000000, tolerance := 1, apply := true, startAt := 0 }

/-- Samples of both kinds of channel, an overload inside and outside a calibration, a block of a tone, a ring entry with room and without. -/
theorem test_auxiliary_events_are_met :
    (let c := testAt (modAux 0 (fun a => { a with enable := true, single := false }) testRun)
     auxRuns c && (vget c.aux.ch 0).enable && !(vget c.aux.ch 0).single && !((vget c.aux.ch 0).cycles ((vget c.aux.ch 0).early ++ [true])).isEmpty &&
       !({ vget c.aux.ch 0 with single := true } : Aux).decimation.blt 1) = true ∧
    (let c := testAt (modAux 0 (fun a => { a with enable := true, lastBit := true, equal := 63 }) { testRun with aux := { testRun.aux with run := some testAuxRun } })
     let seen := modAux 0 (fun a => [true].foldl Aux.watch a) c
     auxRuns c && (vget c.aux.ch 0).enable && (vget seen.aux.ch 0).overload && seen.aux.run == some testAuxRun && bit testAuxRun.mask 0 &&
       (testAt testRun).aux.run.isNone) = true ∧
    (let a : Aux := { (vget testRun.aux.ch 0) with lastBit := true, equal := 63, overload := true, quiet := 1023 }
     (a.watch true).overload && (a.watch true).quiet == 0 && !(a.watch false).overload && (({ a with quiet := 1022 } : Aux).watch false).overload) = true ∧
    (let c := testAt (modTone 0 (fun x => { x with enable := true, samples := List.replicate 16 0 }) testRun)
     let x := vget c.aux.tone 0
     x.enable && x.blockLength != 0 && decide (x.blockLength ≤ x.samples.length)) = true ∧
    (let c := testAt (modAux 0 (fun a => { a with entry := [1] }) { testRun with now := 1000000, aux := { testRun.aux with ring := testRing false } })
     decide ((vget c.aux.ch 0).entryAt + 1000000 ≤ c.now) && !(vget c.aux.ch 0).entry.isEmpty && c.aux.ring.enabled && !c.aux.ring.full && hostWrites c) = true ∧
    (let c := testAt (modAux 0 (fun a => { a with entry := [1] }) { testRun with now := 1000000 })
     decide ((vget c.aux.ch 0).entryAt + 1000000 ≤ c.now) && !(vget c.aux.ch 0).entry.isEmpty && !c.aux.ring.enabled) = true := by decide

/-- The leader of a gang of two, its one link up. -/
def testGang (f : Gang → Gang) : Chip :=
  testAt (modGang (fun g => f { g with cfg := { g.cfg with size := 2 }, members := 3, links := vset g.links 0 true, nodes := [0, 1] }) testRun)

/-- The other member of that gang. -/
def testFollower (f : Gang → Gang) : Chip := testGang fun g => f { g with role := 1, cfg := { g.cfg with position := 1 } }

/-- A follower's tag and its trigger; a latency; links that fail: unused, the only one, and one of a ring; one that heals, in no island and in one; a gang that
forms, with and without a conflict. -/
theorem test_gang_events_are_met :
    (let c := testFollower fun g => { g with state := .joined, tags := [testTag 3] }
     c.gang.role == 1 && c.gang.formed && c.gang.tags == testTag 3 :: [] && triggering c && c.gang.pitches.isEmpty && !c.gang.joinsAt (testTag 3)) = true ∧
    (let g := (testFollower fun g => { g with state := .rejoining, joinMd := some 103 }).gang
     g.joinsAt (testTag 3) && !g.joinsAt (testTag 2)) = true ∧
    (testGang id).gang.portUp 1 = true ∧
    (let g := (testGang fun g => { g with state := .joined, links := vset g.links 0 false }).gang
     !g.cfg.usesLink 1 && g.cfg.usesLink 0 && g.formed && Nat.land g.reachable g.members != g.members && !(testGang id).gang.formed) = true ∧
    (let ring (g : Gang) : Gang := { g with state := .joined, cfg := { g.cfg with size := 4, ring := true }, members := 15 }
     let g := (testGang fun g => ring { g with links := vset (vmapIdx (fun _ _ => true) g.links) 0 false }).gang
     g.cfg.usesLink 0 && g.state == .joined && Nat.land g.reachable g.members == g.members) = true ∧
    (testGang fun g => { g with state := .joined }).gang.state ≠ .island ∧
    (let g := (testGang fun g => { g with state := .island, cfg := { g.cfg with autoRejoin := false } }).gang
     g.state == .island && ((List.range g.cfg.size).all fun b => !g.cfg.usesLink b || vget g.links b) && !g.cfg.autoRejoin) = true ∧
    (let c := testGang fun g => { g with state := .forming }
     c.gang.state == .forming && sarecRuns c && [4, 5].length == c.gang.cfg.size && [4, 5].eraseDups.length == 2 && [4, 4].length == c.gang.cfg.size &&
       [4, 4].eraseDups.length != 2) = true ∧
    1 < (testGang id).gang.cfg.size := by decide

def testDram (f : DramChannel → DramChannel) : Chip := testAt (modCh 0 f testRun)

/-- DRAM rows on a channel that runs; training that goes on and that is accepted; a speed change with channels left and with none. -/
theorem test_memory_array_events_are_met :
    (let c := testDram id
     dramRuns c 0 && !panicking c 0 && panics false 76 100 && !panics true 49 100 && panics true 75 100 && !panics false 50 100 && decide (0 < (vget c.dram.ch 0).ranks) && (vget c.dram.ch 0).activations.isEmpty && backgroundRuns c) = true ∧
    (let e : ReadError := { ch := 0, group := 0, symbols := [], solution := none, row := 0, location := 0, hit := .rows }
     outcomeOf e == .clean && outcomeOf { e with symbols := [0, 0, 0, 1] } == .corrected 3 && outcomeOf { e with symbols := [1, 2], solution := some 5 } == .corrected 5 && outcomeOf { e with symbols := [1, 2] } == .uncorrectable &&
       ([3, 3, 80].filter (· < 72)).eraseDups.length == 1) = true ∧
    (let d := vget (testDram fun d => { d with queue := [(0, 2)] }).dram.ch 0
     d.training.isNone && d.queue == (0, 2) :: [] && (trainingResult 5 d.temperature (d.lane 6400 0) [(100, 40, 20)]).isNone) = true ∧
    (let r : Retrain := { lane := 0, cause := 2, runs := [(100, 40, 20)] }
     let d := vget (testDram fun d => { d with training := some r }).dram.ch 0
     d.training == some r && d.queue == [] && (trainingResult 5 d.temperature (d.lane 6400 0) ((100, 40, 20) :: r.runs)).isSome) = true ∧
    (let c := testAt { testRun with dram := { testRun.dram with switching := some (4800, [0, 1]) } }
     let d := testAt { testRun with dram := { testRun.dram with switching := some (4800, [3]) } }
     c.dram.switching == some (4800, 0 :: [1]) && d.dram.switching == some (4800, 3 :: []) && d.dram.pendingSpeed.isNone) = true := by decide

/-- A housekeeping round needs nothing; a grace that ends above and below the threshold, few dips, the end of a hold, a supply that has
settled; a journal entry that waits; telemetry without and with a ring, with and without its event. -/
theorem test_health_and_life_events_are_met :
    (let c := testAt { testRun with health := { testRun.health with state := .grace, graceEnd := 0, dieTemp := 2000 } }
     let d := testAt { testRun with health := { testRun.health with state := .grace, graceEnd := 0 } }
     c.health.state == .grace && decide (c.health.graceEnd ≤ c.health.roundAt) && decide (c.health.request.value ≤ c.health.dieTemp) &&
       d.health.state == .grace && decide (d.health.dieTemp < d.health.request.value)) = true ∧
    ([5].length ≤ 16 ∧ testRun.supply.outside = [] ∧ testRun.supply.lastExcursion + 100000000 ≤ 100000000) ∧
    (let x : Supply := { testRun.supply with unstable := true, lastDip := some 0 }
     x.unstable && x.lastDip == some 0 && decide (0 + 10000000000 ≤ 10000000000)) = true ∧
    (let c := testAt { testRun with life := { testRun.life with queue := [{ kind := 0, part := 0, timeS := 0, timeNs := 0, body := zeros 42 }] } }
     !c.supply.held && firmwareRuns c && (nextEntry c).isSome) = true ∧
    (let c := testAt { testRun with life := { testRun.life with telemetryEvent := false } }
     !c.life.telemetryEvent && !c.life.ring.enabled) = true ∧
    (let c := testAt { testRun with life := { testRun.life with telemetryEvent := false, ring := testRing false } }
     !c.life.telemetryEvent && c.life.ring.enabled && !c.life.ring.full && hostWrites c) = true ∧
    (let c := testAt testRun
     c.life.telemetryEvent && !c.life.ring.enabled) = true := by decide

/-- A tamper source that asserts and one that clears, a challenge gone, a session idle for its time, a lockout over, debug access open. -/
theorem test_security_events_are_met :
    (let c := testAt testRun
     !vget c.sec.asserted 0 && raisesEvents (tamperActs 0 c) && (challengeOf c false 1).isNone && (vget c.sec.fuses 4).fused != 1) = true ∧
    (let c := modSec (fun s => { s with asserted := vset s.asserted 0 true }) testRun
     vget c.sec.asserted 0) = true ∧
    (let c := testAt { testSession with now := 60000000000 }
     (vget c.sec.sessions 1).any fun x => decide (x.lastCommand + x.idleS * 1000000000 ≤ c.now)) = true ∧
    (let c := testAt (modSec (fun s => { s with lockoutUntil := some 3 }) testRun)
     c.sec.lockoutUntil == some 3 && decide (3 ≤ c.now)) = true := by decide

def testCalRun (kind deadline : Nat) : CalRun := { resultId := 1, kind, phase := 0, request := zeros 36, deadline }

/-- Reports of the mode, the same, with another condition and another mode; a drain that is over; the self-test of CONFIGURE. -/
theorem test_mode_events_are_met :
    (let c := testAt (modModes (fun m => { m with reportedConditions := 1 }) testRun)
     let d := testAt (modModes (fun m => { m with primary := 4 }) testRun)
     let e := testAt (modModes (fun m => { m with reportedConditions := conditions testRun % 32 }) testRun)
     c.modes.boot == .done && firmwareRuns c && primaryOf c == c.modes.primary && conditions c % 32 != c.modes.reportedConditions &&
       primaryOf d != d.modes.primary && primaryOf e == e.modes.primary && conditions e % 32 == e.modes.reportedConditions) = true ∧
    (let c := testAt (modModes (fun m => { m with change := .drain .configure 1 }) testRun)
     c.modes.change == .drain .configure 1 && drained c) = true ∧
    (testAt (modModes (fun m => { m with change := .selfTest 1 }) testRun)).modes.change = .selfTest 1 := by decide

/-- A calibration phase that is complete and one out of time, an auxiliary run with its samples, a run of the links at its end. -/
theorem test_calibration_events_are_met :
    (let c := testAt { testRun with cal := { testRun.cal with run := some (testCalRun 1 9) }, trig := { testRun.trig with number := 1000000 } }
     let d := testAt { testRun with cal := { testRun.cal with run := some (testCalRun 0 3) } }
     c.cal.run == some (testCalRun 1 9) && calComplete c (testCalRun 1 9) && d.cal.run == some (testCalRun 0 3) && decide ((testCalRun 0 3).deadline ≤ d.now)) =
      true ∧
    (let r : AuxRun := { testAuxRun with capture := vset testAuxRun.capture 0 { count := 4 } }
     let c := testAt { testRun with aux := { testRun.aux with run := some r } }
     c.aux.run == some r && (setBits 8 r.mask).all fun k => decide (2 * 2 ^ r.avgLog2 ≤ (vget r.capture k).count)) = true ∧
    (let r : LinksRun := { portMask := 1, durationS := 1, margin := 0, tolerance := 0, startedAt := 0 }
     let c := testAt { testRun with now := 1000000000, cal := { testRun.cal with links := some r } }
     c.cal.links == some r && r.running && decide (r.startedAt + r.durationS * 1000000000 ≤ c.now)) = true := by decide

/-- A lockstep recovery that ends, the first and the fifth in a minute; an activation that begins, ends well and without a bank. -/
theorem test_lodge_events_are_met :
    (let c := testAt (modModes (fun m => { m with notReady := .lockstep 1 }) testRun)
     c.modes.notReady == .lockstep 1) = true ∧
    (let c := testAt testRun
     let d := testAt (modModes (fun m => { m with recoveries := [1, 2, 3, 4] }) testRun)
     firmwareRuns c && decide (c.modes.recoveries.length < 3) && firmwareRuns d &&
       decide (4 ≤ (d.now :: d.modes.recoveries.filter fun t => decide (d.now < t + 60000000000)).length)) = true ∧
    (let c := testAt (modModes (fun m => { m with notReady := .activationPending }) testRun)
     c.modes.notReady == .activationPending && ((List.range 8).all fun mb => (vget c.mbx.mb mb).job.isNone)) = true ∧
    (let c := testAt (modFw (fun f => { f with activating := some 1 }) (modModes (fun m => { m with notReady := .activation 1 }) testRun))
     let d := testAt (modFw (fun f => { f with activating := none }) (modModes (fun m => { m with notReady := .activation 1 }) testRun))
     c.modes.notReady == .activation 1 && c.fw.activating == some 1 && d.modes.notReady == .activation 1 && d.fw.activating.isNone) = true := by decide

/-- PERST_N rises on a device that has seen none; boot that finds a bank and that finds none. -/
theorem test_boot_events_are_met :
    State.reset.chip.modes.perstSeen = false ∧
    (let c := testAt (modModes (fun m => { m with boot := .booting }) testBank)
     c.modes.boot == .booting && bootBankOf 3 c == some c.fw.bootBank && (bootBankOf 0 c).isNone) = true := by decide

/-- A descriptor of one line of 32 bytes with its control bit 0 set. -/
def testDescriptor : List Byte := testPayload 64 [(0, 4, 1), (4, 4, 32), (8, 8, 4096), (16, 8, 8192), (32, 2, 1)]

/-- Tails accepted and not, on the event ring and on a ring with a channel; start addresses, doorbells, stops and descriptors on channels in
each state; what is read and written elsewhere needs nothing but its address. -/
theorem test_host_link_events_are_met :
    (let c := testAt { testRun with evq := { testRun.evq with ring := testRing true } }
     c.evq.ring.enabled && c.evq.ring.accepts 1 && !c.evq.ring.accepts 3) = true ∧
    (let x := vget (testAt testRun).pcie.dma 0
     x.state != .active && x.state != .owned && !(testAt testRun).modes.lockdown) = true ∧
    (vget (testAt (modDma 0 (fun x => { x with state := .owned }) testRun)).pcie.dma 0).state = .owned ∧
    (let x := vget (testAt (modDma 0 (fun x => { x with startWritten := true, chain := 64 }) testRun)).pcie.dma 0
     x.startWritten && x.chain % 64 == 0) = true ∧
    (let x := vget (testAt (modDma 0 (fun x => { x with startWritten := true, chain := 0x10000020 }) testRun)).pcie.dma 0
     x.startWritten && x.chain % 64 != 0) = true ∧
    (let c := testAt (modDma 0 (fun x => { x with owner := 1 }) { testRun with records := { testRun.records with ring := testRing true } })
     ringOf c 0 == some (testRing true) && (testRing true).accepts 1 && !(testRing true).accepts 3) = true ∧
    (let c := testAt (modDma 0 (fun x => { x with state := .active, stopRequested := true }) testRun)
     let d := testAt (modDma 0 (fun x => { x with state := .active }) testRun)
     let x := vget c.pcie.dma 0
     x.state == .active && x.owner == 0 && hostWrites c && x.stopRequested && (vget d.pcie.dma 0).state == .active && !(vget d.pcie.dma 0).stopRequested &&
       transferFails testDescriptor (3, 4, 0) && !transferFails testDescriptor (7, 0, 0) && !transferFails testDescriptor (3, 4, 32) && bit (rd testDescriptor 0 4) 0 && alignFaults testDescriptor == 0 &&
       (descriptorFault testDescriptor).isNone) = true ∧
    (let c := testAt testRun
     !windowOpen c 0x18058 && !plainHalves 0x18058) = true ∧
    (let e : Event := { code := 1, severity := 1, source := 0, sequence := 0, timeS := 0, timeNs := 0, payload := [] }
     let c := writeEventsLost (testAt { testRun with evq := { testRun.evq with ring := testRing false, fifo := [e] } })
     eventRoom c && c.evq.fifo == e :: []) = true ∧
    (let w : RateWindow := { code := 1, key := 2, source := 0, severity := 1, until_ := 3 }
     let c := testAt { testRun with rates := [w] }
     c.rates.find? (fun w => w.code == 1 && w.key == 2) == some w && decide (w.until_ ≤ c.now)) = true ∧
    (let c := testAt { testRun with mbx := { testRun.mbx with mb := vset testRun.mbx.mb 1 { bytes := testPayload 64 [(2, 2, 0x0100)] } } }
     let m := vget c.mbx.mb 1
     !m.owner && (notReadyWait c 1).isNone && m.lastSequence != some (rd m.bytes 0 2) && servedAs c 1 (rd m.bytes 2 2) == some 0x0100) = true := by decide

/-! ### Hypotheses of the other statements -/

/-- A step whose front command waits, on canonical memories that hold bytes. -/
theorem test_step_statements_are_met :
    (let s : State := { State.reset with host := [(5, 7)], bulk := [(9, 1)], pending := [.sysGetInfo 0 1, .lineTrigger 1] }
     s.memOk && s.pending == .sysGetInfo 0 1 :: [.lineTrigger 1] && (match step s with
       | .next u => u.pending == [.lineTrigger 1]
       | _ => false)) = true ∧
    Mem.wf [(5, 7)] = true ∧ Mem.wf [(5, 7), (5, 1)] = false ∧ Mem.wf [(5, 0)] = false := by decide

/-- Fields at the ends of their ranges, an image of two records, entries. -/
theorem test_encoding_statements_are_met :
    rd ([9] ++ le 2 65535 ++ [9]) 1 2 = 65535 ∧ rdS ([9] ++ leS 2 (-32768) ++ [9]) 1 2 = -32768 ∧
    readRecords 2 ([(65535, [1, 2, 3]), (0, [])].flatMap imageRecordBytes) = some [(65535, [1, 2, 3]), (0, [])] ∧ testRec.data.length = 128 := by decide

/-- A mailbox that holds a command of code `code` and class `cls`. -/
def testDoorbell (code cls : Nat) (f : Chip → Chip) : Chip :=
  testAt (f { testChip with mbx := { testChip.mbx with mb := vset testChip.mbx.mb 1 { bytes := testPayload 64 [(2, 2, code), (8, 1, cls)] } } })

/-- A doorbell on a mailbox the device holds, before it is ready, with an unknown code, in LOCKDOWN, and above its class. -/
theorem test_doorbell_statement_is_met :
    (vget (testState testChip (testJob 0x0100 [])).chip.mbx.mb 1).owner = true ∧
    (let c := testDoorbell 0x0100 0 (modModes fun m => { m with boot := .booting })
     !(vget c.mbx.mb 1).owner && c.modes.personality == 0 && (notReadyWait c 1).isSome) = true ∧
    (let c := testDoorbell 0x01FF 0 id
     (notReadyWait c 1).isNone && (vget c.mbx.mb 1).lastSequence.isNone && (baseClass 0x01FF).isNone) = true ∧
    (let c := testDoorbell 0x0300 0 (modModes fun m => { m with lockdown := true })
     (notReadyWait c 1).isNone && (baseClass 0x0300).isSome && c.modes.lockdown && !lockdownServes 0x0300) = true ∧
    (let c := testDoorbell 0x0300 0 id
     (notReadyWait c 1).isNone && (baseClass 0x0300).isSome && !c.modes.lockdown && !auditNeeded c 0x0300 [] && !privilegeOk c 1 0x0300 0 []) = true := by decide

/-- A repeat, an answer to a request, a request that waits in THERMAL-HALT, answers and doorbells of the forerunner. -/
theorem test_mailbox_statements_are_met :
    (let c := testAt { testChip with mbx := { testChip.mbx with mb := vset testChip.mbx.mb 1 { lastSequence := some 0, kept := zeros 64 } } }
     let m := vget c.mbx.mb 1
     !m.owner && (notReadyWait c 1).isNone && m.lastSequence == some (rd m.bytes 0 2) && m.kept.length == 64 && rd m.kept 10 1 % 2 == 0) = true ∧
    (let j := testJob 0x0100 []
     (vget (testState testChip j).chip.mbx.mb 1).job == some j && j.rawCode == j.code && decide (j.sequence < 65536) && !lodgeRestarts (testState testChip j).chip &&
       lodgeRestarts (testState (modModes (fun m => { m with notReady := .lockstep 1 }) testChip) j).chip && !([stNotReady, stBadCmd, stLocked].contains stOk)) = true ∧
    (let j := testJob 0x0300 []
     let c := (testState (modModes (fun m => { m with thermalHalt := true }) testChip) j).chip
     (vget c.mbx.mb 1).job == some j && !j.waiting && inTurn c j && lodgeServes c && c.modes.thermalHalt && !haltServes 0x0300) = true ∧
    (let j := { testJob 0x0300 [] with rawCode := 0x8A }
     (vget (testState testChip j).chip.mbx.mb 1).job == some j && j.rawCode != j.code) = true ∧
    (let c := testDoorbell 0x8A 0 (modModes fun m => { m with personality := 1 })
     c.modes.personality == 1 && decide (0x80 ≤ rd (vget c.mbx.mb 1).bytes 2 2) && decide (rd (vget c.mbx.mb 1).bytes 2 2 ≤ 0xBF)) = true := by decide

/-- A command function that leaves the device alone where a length or a field fails, as the statement on THERMAL-HALT asks. -/
theorem test_halted_commands_exist (env : Env) (j : Job) (c : Chip) :
    (getCaps env j c).early = true →
      [stBadLen, stBadParam].contains (getCaps env j c).status = true ∧ (getCaps env j c).chip = c ∧ (getCaps env j c).later = false := by
  simp only [getCaps, checked, firstFail, lenIs, inOrder]
  by_cases h : j.payload.length = 0 <;> simp [h, replyBody, stBadLen, stBadParam]

/-- Events: masked, raised with room, with the FIFO full; in the forerunner's personality of a group it has and of one it has not. -/
theorem test_event_statements_are_met :
    (let c := { testChip with evq := { testChip.evq with mask := Vector.replicate 16 0 } }
     !bit (vget c.evq.mask (0x0303 / 256 % 16)) (0x0303 % 16)) = true ∧
    (testChip.modes.boot == .done && eventEnabled testChip 0x0303 1 && testChip.modes.personality == 0 && !testChip.modes.lockdown &&
       testChip.evq.fifo.isEmpty) = true ∧
    (let e : Event := { code := 1, severity := 1, source := 0, sequence := 0, timeS := 0, timeNs := 0, payload := [] }
     let c := { testChip with evq := { testChip.evq with fifo := List.replicate 256 e } }
     c.modes.boot == .done && eventEnabled c 0x0303 1 && decide (256 ≤ c.evq.fifo.length)) = true ∧
    (let c := modModes (fun m => { m with notReady := .lockstep 1 }) testChip
     lodgeRestarts c && !lodgeRestarts testChip && raisedByFirmware 0x0A00 [] && !raisedByFirmware 0x0600 []) = true ∧
    (modModes (fun m => { m with personality := 1 }) testChip).modes.personality = 1 ∧ (0x0601 / 256 = 0x06 ∧ ¬ (0x0303 / 256 = 0x06)) := by decide

/-- A ring with room, its head at the last value before it wraps; a masked vector that is pending; a counter one below all ones. -/
theorem test_ring_vector_and_counter_statements_are_met :
    (let r := { testRing false with entrySize := 128, head := 2 ^ 32 - 1, tail := 2 ^ 32 - 1 }
     (zeros 128).length == r.entrySize && decide (0 < r.entryCount) && decide (r.headAddr + 32 ≤ r.base) && decide (r.head < 2 ^ 32) && !r.full &&
       r.accepts (2 ^ 32 - 1) && !r.accepts 0) = true ∧
    (vget (testAt testChip).pcie.msix 1).mask = true ∧
    (let c := testAt { testChip with pcie := { testChip.pcie with msix := vmod testChip.pcie.msix 1 fun e => { e with pending := true } } }
     (vget c.pcie.msix 1).mask && (vget c.pcie.msix 1).pending && !c.pcie.d3hot) = true ∧
    ((65534 : Nat) ≤ 2 ^ 16 - 1 ∧ 65534 + 1 ≥ 2 ^ 16 - 1 ∧ testChip.saturated = [] ∧ eventEnabled testChip 0x0D09 1 = true) := by decide

/-- A channel that reverses; the phase at either end and between; MD below 0 and above 64 bits. -/
theorem test_encoder_statements_are_met :
    (let e := { vget testEnc.enc 0 with forward := false, directionHysteresis := 3 }
     e.against == 0 && e.forward != true && decide (0 < e.directionHysteresis)) = true ∧
    (let e := vget testEnc.enc 0
     decide (0 < e.countsPerRev) && decide (({ e with phase := 3 } : Enc).phase < e.countsPerRev) && decide (e.phase < e.countsPerRev) &&
       decide (-(2 ^ 47 : Int) ≤ e.revolutions) && decide (e.revolutions < (2 ^ 47 : Int))) = true ∧
    (let far (n : Int) : Chip := { testEnc with enc := vset testEnc.enc 0 { vget testEnc.enc 0 with wuPerCount := 2 ^ 63, count := n * 2 ^ 40 } }
     (far 4).trig.anchored && mdCounts (far 4) && mdCounts (far (-4)) && decide (mdOfCount (far (-4)) (mainEnc (far (-4))).count < 0) && decide ((2 ^ 64 : Int) ≤ mdOfCount (far 4) (mainEnc (far 4)).count) &&
       decide (0 ≤ mdOfCount testEnc 0)) = true := by decide

/-- A full-scale pixel of each depth, a model entry with history, an untouched seam, a Sundial at the end of a second. -/
theorem test_pipeline_statements_are_met :
    (2 ^ 8 - 1 < 2 ^ ({ pixelFormat := 0x01080001 } : Port).bitsPerPixel ∧ 2 ^ 14 - 1 < 2 ^ ({ pixelFormat := 0x01100025 } : Port).bitsPerPixel) ∧
    0 < [5].length ∧ (({ mean := 1, var := 1, n := 65535 } : ModelEntry).n ≠ 0 ∧ ({ mean := 1, var := 1, n := 65535 } : ModelEntry).n ≤ 65535) ∧
    ((getSeam testRun 0).weakCount = 0 ∧ (getSeam testRun 0).held = false) ∧
    (let x : Sundial := { State.reset.chip.time.sun with ns := 999999999, frac := 2 ^ 32 - 1 }
     x.ns < 10 ^ 9 ∧ x.frac < 2 ^ 32 ∧ x.increment ≤ 10 ^ 9 * 2 ^ 32 ∧ (x.s * 10 ^ 9 + x.ns) * 2 ^ 32 + x.frac + x.increment < 2 ^ 48 * (10 ^ 9 * 2 ^ 32) ∧
       2 ^ 48 * (10 ^ 9 * 2 ^ 32) ≤ ((2 ^ 48 - 1) * 10 ^ 9 + x.ns) * 2 ^ 32 + x.frac + x.increment ∧
       sunTotal { x with s := 2 ^ 48 - 1 } (x.at_ + 4) / (10 ^ 9 * 2 ^ 32) = 2 ^ 48 - 1) := by decide

/-- The forerunner's personality, in CONFIGURE. -/
def testOld : Chip := modModes (fun m => { m with personality := 1 }) testChip

def testLegacy (raw : Nat) (p : List Byte) : Job := { testJob ((legacyNative raw).getD 0) p with rawCode := raw }

/-- Requests of the forerunner: one of each code that is not a setting; and a setting that is staged and committed. -/
theorem test_legacy_requests_are_met :
    ([0x80, 0x81, 0x82, 0x83, 0x84, 0x85, 0x86, 0x87, 0x88, 0x89, 0x8A, 0x8B, 0x8C, 0xA0, 0xA1, 0xA2, 0xA3, 0xA4, 0xA8, 0xA9, 0xAA, 0xB0, 0xB1, 0xB2, 0xB3,
      0xB8, 0xB9, 0xBA].all fun raw => (testState testOld (testLegacy raw [])).holdsLegacy 1 false (testLegacy raw [])) = true ∧
    ((zeros 28).length = 28 ∧ rd [4] 0 1 = 4) ∧
    (let j := testLegacy 0x95 (testPayload 12 [(0, 1, 255), (1, 1, 16), (4, 4, 1)])
     let s := testState testOld j
     let c := s.tick 5
     let opened := newTx false 0 true c
     let k := settingRequest j opened.1
     let staged := settingCommand j.code ⟨1, s.bulk⟩ k opened.2
     s.holdsLegacy 1 true j && !c.ledger.armed.any (·.internal) && !modelHeld c 1 && firstSetting c 1 && j.code != 0x0506 &&
       passes (settingLimits j.code k.payload) && staged.status == stOk && match openTx staged.chip opened.1 with
         | some x => (commitTx x 0 0 0 0 staged.chip).status == stOk
         | none => false) = true := by decide

/-- An import of an image without records, from the bulk window. -/
theorem test_import_request_is_met :
    (let j := testJob 0x010A (testPayload 8 [(4, 4, 64)])
     let s := { testState testChip j with bulk := Mem.writeBytes [] 0 (testPayload 64 [(0, 4, 0x46435750), (4, 2, 1), (24, 4, 64), (28, 4, crc32 [])]) }
     s.holds 1 0x010A j && acceptsSysImportConfig ⟨1, s.bulk⟩ j (s.tick 5)) = true := by decide

/-! ### Ill-formed commands -/

/-- Each check of a camera's report refuses: a link count, a name and a serial number too long. -/
theorem test_wf_camera :
    testCamera.wf = true ∧ ({ testCamera with defaultLinks := 3 } : CameraInfo).wf = false ∧
    ({ testCamera with model := zeros 33 } : CameraInfo).wf = false ∧ ({ testCamera with serial := zeros 17 } : CameraInfo).wf = false ∧
    (Instr.discoveryComplete 0 0 (some { testCamera with defaultLinks := 3 })).wf = false ∧
    ({ testCamera with scans := [(6, [257])] } : CameraInfo).wf = false ∧
    ({ testCamera with scans := [(6, [0, 0, 0, 0, 0])] } : CameraInfo).wf = false ∧
    ({ testCamera with errors := [(6, [0, 0, 0, 0, 0])] } : CameraInfo).wf = false := by decide

/-- A line that ends before it begins, and one with packets or CRC errors on a fifth link. -/
theorem test_wf_line :
    (Instr.cameraLineReceived 3 0 4 [] [] []).wf = false ∧ (Instr.cameraLineReceived 3 0 3 [0, 0, 0, 0, 0] [] []).wf = false ∧
    (Instr.cameraLineReceived 3 0 3 [] [0, 0, 0, 0, 0] []).wf = false ∧ (Instr.cameraLineReceived 3 0 3 [1] [0] []).wf = true := by decide

/-- An eye wider than one unit interval; what a fifth link has seen. -/
theorem test_wf_eye :
    (Instr.eyeScan 0 0 0 257 0 0).wf = false ∧ (Instr.eyeScan 0 0 0 256 0 0).wf = true ∧
    (Instr.portGetLinkQuality 0 0 (List.replicate 5 (0, 0))).wf = false := by decide

/-- A read with one symbol in error at the given value, and one without any. -/
def testRead (symbol : Nat) : ReadError := { ch := 0, group := 0, symbols := [symbol], solution := none, row := 0, location := 0, hit := .rows }

/-- Read errors of more than a byte and of eleven symbols, wherever a command has one. -/
theorem test_wf_reads :
    (testRead 256).wf = false ∧ (testRead 255).wf = true ∧ ({ testRead 0 with symbols := List.replicate 11 0 } : ReadError).wf = false ∧
    (Instr.calGetResult 0 0 (some (testRead 256))).wf = false ∧ (Instr.frameEmit 0 0 true true (some (testRead 256))).wf = false ∧
    (Instr.lateTileDelivery 0 true [testRead 256]).wf = false ∧ (Instr.lookbackJobDone 0 0 [testRead 256]).wf = false ∧
    (Instr.dramPatrolScrub 0 0 [testRead 256] none false 0).wf = false ∧ (Instr.dramPatrolScrub 0 0 [] none false 1001).wf = false := by decide

/-- A bit flipped outside the code word and one named twice; a table of seventeen rows and a row with seven requesters; a descriptor of 63
bytes; a fifth channel, an eleventh byte lane and a sixth training run. -/
theorem test_wf_arrays :
    (Instr.sramScrub 0 [{ hit := .lodge, row := 0, addr := 0, flipped := [72] }]).wf = false ∧
    (Instr.sramScrub 0 [{ hit := .lodge, row := 0, addr := 0, flipped := [3, 3] }]).wf = false ∧
    (Instr.dramActivationLimit 0 0 0 (List.replicate 17 (0, []))).wf = false ∧
    (Instr.dramActivationLimit 0 0 0 [(0, List.replicate 7 0)]).wf = false ∧
    (Instr.dmaDescriptor 0 0 (zeros 63) [] none 0).wf = false ∧ (Instr.dmaDescriptor 0 0 (zeros 64) [] none 0).wf = true ∧
    (Instr.bootComplete 0 0 (List.replicate 5 none)).wf = false ∧
    (Instr.bootComplete 0 0 [some { (default : BootDram) with slow := List.replicate 11 [] }]).wf = false ∧
    (Instr.bootComplete 0 0 [some { (default : BootDram) with fast := [List.replicate 6 (0, 0, 0)] }]).wf = false := by decide

/-- Tracking of too few byte lanes, and by more than one step. -/
theorem test_wf_tracking :
    (Instr.dramDqsTracking 0 0 (List.replicate 9 0)).wf = false ∧ (Instr.dramDqsTracking 0 0 (2 :: List.replicate 9 0)).wf = false ∧
    (Instr.dramDqsTracking 0 0 ((-2) :: List.replicate 9 0)).wf = false := by decide

/-- A gang of one, of five, with a node number of more than eight bits, and with an overlap too few. -/
theorem test_wf_gang :
    (Instr.gangForm 0 [1] 0 [64]).wf = false ∧ (Instr.gangForm 0 [1, 2, 3, 4, 5] 0 [64, 64, 64, 64, 64]).wf = false ∧
    (Instr.gangForm 0 [1, 256] 0 [64, 64]).wf = false ∧ (Instr.gangForm 0 [1, 2] 0 [64]).wf = false ∧ (Instr.gangForm 0 [1, 2] 0 [64, 64]).wf = true := by decide

/-! ### What the spec states, on small values -/

/-- Quadrature counts up through 00, 01, 11, 10 (R28); two changes at once are illegal (R29). -/
theorem test_quadrature_order :
    countStep .quadrature false false false true = some 1 ∧ countStep .quadrature false true true true = some 1 ∧
    countStep .quadrature true false true true = some (-1) ∧ countStep .quadrature true false false true = none := by decide

/-- 250 000 000 ticks of the nominal increment are one second (R343). -/
theorem test_sundial_second : sunTotal State.reset.chip.time.sun 1000000000 = 1000000000 * 2 ^ 32 := by decide

/-- Halves round up, also below zero (R91): 1 × 0.5 and -1 × 0.5. -/
theorem test_gain_rounds_halves_up : gained 1 8192 = 1 ∧ gained (-1) 8192 = 0 := by decide

/-- THERMAL-HALT stands before LOCKDOWN (R532). -/
theorem test_halt_before_lockdown : primaryOf (modModes (fun m => { m with thermalHalt := true }) testLocked) = 11 ∧ primaryOf testLocked = 12 := by decide

/-- SYS.GET_MODE in CONFIGURE answers mode 4, echoes its sequence, gives the mailbox back and sets its response bit (R466, R468, R479). -/
theorem test_get_mode :
    (let c := (testState testChip (testJob 0x0103 [])).run 5 fun s c => finish 1 (getMode ⟨1, s.bulk⟩ (testJob 0x0103 []) c)
     let m := vget c.chip.mbx.mb 1
     rd m.bytes 0 2 == 1 && rd m.bytes 2 2 == 0x0103 && rd m.bytes 6 2 == 0 && rd m.bytes 64 1 == 4 && !m.owner && c.chip.mbx.response == 2) = true := by decide

/-- The first transaction has ID 1 and the one after 0xFFFFFFFF has ID 1 again (R300). -/
theorem test_transaction_ids :
    (ledgerOpen ⟨1, []⟩ (testJob 0x0600 (zeros 8)) testChip).body = le 4 1 ++ le 4 1 ∧ nextTxId 0xFFFFFFFF = 1 := by decide

/-- A staging command on no transaction finds none (R302). -/
theorem test_staging_without_transaction :
    (trigSetPitch ⟨1, []⟩ (testJob 0x0303 (testPayload 12 [(0, 4, 9)])) testChip).status = stNotFound := by decide

/-- A request of the wrong length is told the right one (R471). -/
theorem test_wrong_length :
    (ledgerOpen ⟨1, []⟩ (testJob 0x0600 (zeros 7)) testChip).status = stBadLen ∧ (ledgerOpen ⟨1, []⟩ (testJob 0x0600 (zeros 7)) testChip).detail = 8 := by decide

/-- The check value of CRC-32 and of Adler-32 over the digits 1 to 9, as RFC 1952 and RFC 1950 define them (R284). -/
theorem test_check_values :
    crc32 [0x31, 0x32, 0x33, 0x34, 0x35, 0x36, 0x37, 0x38, 0x39] = 0xCBF43926 ∧ adler32 [0x31, 0x32, 0x33, 0x34, 0x35, 0x36, 0x37, 0x38, 0x39] = 0x091E01DE := by decide

/-- The fixed-code DEFLATE stream of the letter a (R284), written out from RFC 1951. -/
theorem test_inflate_letter : (inflate 0 8 [0x4B, 0x04, 0x00]).output = [0x61] ∧ (inflate 0 8 [0x4B, 0x04, 0x00]).error = none := by decide

/-- An event's code, severity, sequence and first payload byte stand at their offsets (R458). -/
theorem test_event_layout :
    (let bs := eventBytes { code := 0x0303, severity := 1, source := 5, sequence := 7, timeS := 0, timeNs := 0, payload := [9] }
     rd bs 0 2 == 0x0303 && rd bs 2 1 == 1 && rd bs 3 1 == 5 && rd bs 4 4 == 7 && rd bs 20 1 == 9 && bs.length == 32) = true := by decide

/-- SYS_STATUS reads 0 after reset (register map), with `no_spare` among its bits. -/
theorem test_sys_status_at_reset : sysStatus State.reset.chip = 0 := by decide

/-- A doorbell after 0x1000_0020 was written to DMA_CHAIN, a multiple of 32 and not of 64, halts the channel with ERR_ALIGN, bit 5
(R447, R448); the register reads the value written (R589). -/
theorem test_misaligned_chain :
    (let d := vget (dmaDoorbell 24 0 (dmaChainWrite 24 0x10000020 testRun)).pcie.dma 24
     dmaRegister d 0 == 0x200102 && dmaRegister d 8 == 0x10000020 && !d.startWritten) = true := by decide

/-- A transaction aborted with one entry of 8 bytes staged keeps both counts and none of the data (R299, R300). -/
theorem test_aborted_counts :
    (let x : Tx := { id := 3, rejectLate := false, tag := 0, entries := [{ code := 0x0303, payload := zeros 8 }] }
     let c := closeTx { x with state := .aborted } { testChip with ledger := { testChip.ledger with opened := [x] } }
     (findTx c 3).map (fun y => (y.state.code, y.entries.length, y.payloadBytes, y.entries.map (·.payload.length))) == some (4, 1, 8, [0])) = true := by decide

end

end Sys2Proof
end

/-! SUPPORT. Chapter 2: where the phase and the revolution count of an encoder channel stand after a count (R32), and what an index
leaves of a channel and of MD (R35). -/
namespace Sys2Proof.Machine

/-! ### Numbers that wrap in two's complement -/

/-- What a wrapped sum has moved by, read in the same width, is what was added. -/
theorem wrapS_add_sub_self (n : Nat) (x d : Int) : wrapS n (wrapS n (x + d) - x) = wrapS n d := by
  simp only [wrapS, Int.bmod_sub_bmod, add_sub_cancel_left]

theorem wrapS_48_of_range {x : Int} (lo : -(2 ^ 47 : Int) ≤ x) (hi : x < (2 ^ 47 : Int)) : wrapS 48 x = x := by
  apply Int.bmod_eq_of_le_mul_two <;> push_cast <;> omega

/-! ### Phase and revolutions after one count (R32) -/

theorem Enc.count1_forward_at_top {e : Enc} (t : Nat) (hc : 0 < e.countsPerRev) (h : e.phase + 1 = e.countsPerRev) :
    (e.count1 true t).phase = 0 ∧ (e.count1 true t).revolutions = wrapS 48 (e.revolutions + 1) := by
  simp [Enc.count1, h, hc.ne']

theorem Enc.count1_forward_below_top {e : Enc} (t : Nat) (h : e.phase + 1 < e.countsPerRev) :
    (e.count1 true t).phase = e.phase + 1 ∧ (e.count1 true t).revolutions = wrapS 48 e.revolutions := by
  have hc : e.countsPerRev ≠ 0 := by omega
  simp [Enc.count1, h.ne, hc]

theorem Enc.count1_backward_at_zero {e : Enc} (t : Nat) (hc : 0 < e.countsPerRev) (h : e.phase = 0) :
    (e.count1 false t).phase = e.countsPerRev - 1 ∧ (e.count1 false t).revolutions = wrapS 48 (e.revolutions - 1) := by
  simp [Enc.count1, h, hc.ne', Int.sub_eq_add_neg]

theorem Enc.count1_backward_above_zero {e : Enc} (t : Nat) (hc : 0 < e.countsPerRev) (h : 0 < e.phase) :
    (e.count1 false t).phase = e.phase - 1 ∧ (e.count1 false t).revolutions = wrapS 48 e.revolutions := by
  simp [Enc.count1, h.ne', hc.ne']

/-- A count keeps the phase inside the revolution. -/
theorem Enc.count1_phase_lt {e : Enc} (fwd : Bool) (t : Nat) (hc : 0 < e.countsPerRev) (h : e.phase < e.countsPerRev) :
    (e.count1 fwd t).phase < e.countsPerRev := by
  cases fwd with
  | true =>
    rcases Nat.lt_or_eq_of_le (Nat.succ_le_of_lt h) with hb | ht
    · rw [(Enc.count1_forward_below_top t hb).1]; exact hb
    · rw [(Enc.count1_forward_at_top t hc ht).1]; exact hc
  | false =>
    rcases Nat.eq_zero_or_pos e.phase with hz | hp
    · rw [(Enc.count1_backward_at_zero t hc hz).1]; omega
    · rw [(Enc.count1_backward_above_zero t hc hp).1]; omega

/-! ### An event takes no time -/

@[simp] theorem signalVector_now (v : Nat) (c : Chip) : (signalVector v c).now = c.now := by
  simp only [signalVector]; split <;> rfl

@[simp] theorem signalGroup_now (code : Nat) (c : Chip) : (signalGroup code c).now = c.now := by
  simp only [signalGroup]; split <;> simp

@[simp] theorem journalEvent_now (e : Event) (c : Chip) : (journalEvent e c).now = c.now := by
  by_cases h : c.life.day = utcDay c <;> simp only [journalEvent, h, if_true, if_false] <;> split <;> rfl

@[simp] theorem enqueueEvent_now (e : Event) (c : Chip) : (enqueueEvent e c).now = c.now := by
  simp only [enqueueEvent]
  repeat' split
  all_goals simp

@[simp] theorem raiseNow_now (j : Bool) (code sev src : Nat) (p : List Byte) (c : Chip) : (raiseNow j code sev src p c).now = c.now := by
  simp only [raiseNow]
  repeat' split
  all_goals simp

@[simp] theorem raiseWith_now (j : Bool) (code sev src : Nat) (p : List Byte) (c : Chip) : (raiseWith j code sev src p c).now = c.now := by
  simp only [raiseWith]; split <;> simp

@[simp] theorem noteSaturated_now (k o i w v : Nat) (c : Chip) : (noteSaturated k o i w v c).now = c.now := by
  simp only [noteSaturated]; split <;> simp

@[simp] theorem raise_now (code sev src : Nat) (p : List Byte) (c : Chip) : (raise code sev src p c).now = c.now := by simp [raise]

/-! ### What an index leaves of a channel and of MD (R35) -/

/-- Setting an element changes no view of any element that the new value shares with the old one. -/
theorem vget_vset_view {α β : Type} [Inhabited α] {n : Nat} (F : α → β) {v : Vector α n} {i : Nat} {x : α} (h : F x = F (vget v i))
    (k : Nat) : F (vget (vset v i x) k) = F (vget v k) := by
  by_cases hk : k = i
  · subst hk
    by_cases hi : k < n
    · rw [vget_vset_self v hi, h]
    · simp [vget, vset, hi]
  · rw [vget_vset_ne v hk]

/-- A channel without what an index sets: the phase counter and the marks of an index (R30, R33, R34, R236). -/
def Enc.sansIndex (e : Enc) : Enc :=
  { e with phase := 0, revolutions := 0, indexed := false, suspect := false, lastDeviation := 0, realignedBeyond := false }

@[simp] theorem Enc.sansIndex_count (e : Enc) : e.sansIndex.count = e.count := rfl
@[simp] theorem Enc.sansIndex_forward (e : Enc) : e.sansIndex.forward = e.forward := rfl
@[simp] theorem Enc.sansIndex_lastForward (e : Enc) : e.sansIndex.lastForward = e.lastForward := rfl
@[simp] theorem Enc.sansIndex_stopped (e : Enc) : e.sansIndex.stopped = e.stopped := rfl
@[simp] theorem Enc.sansIndex_times (e : Enc) : e.sansIndex.times = e.times := rfl
@[simp] theorem Enc.sansIndex_wuPerCount (e : Enc) : e.sansIndex.wuPerCount = e.wuPerCount := rfl
@[simp] theorem Enc.sansIndex_speed (e : Enc) (t : Nat) : e.sansIndex.speed t = e.speed t := rfl

/-- Judging an index, realigned or not, keeps the rest of the channel. -/
theorem Enc.judged_sansIndex (e : Enc) (dev : Int) (suspect : Bool) :
    ({ (if e.realign then e.realigned else e) with lastDeviation := dev, suspect } : Enc).sansIndex = e.sansIndex := by
  cases e.realign <;> rfl

/-- The note of a realignment beyond the tolerance keeps the rest of every channel. -/
theorem Enc.vmod_realignedBeyond_sansIndex (v : Vector Enc 8) (i k : Nat) :
    (vget (vmod v i fun e => { e with realignedBeyond := true }) k).sansIndex = (vget v k).sansIndex :=
  vget_vset_view Enc.sansIndex (x := { vget v i with realignedBeyond := true }) rfl k

/-- MD is formed from the present instant, the anchor, the gang's role and the motion of the main channel: what an index sets is not
among them. -/
theorem mdNow_congr_sansIndex {c u : Chip} (hnow : u.now = c.now) (hgang : u.gang = c.gang)
    (htrig : u.trig = { c.trig with realignPending := u.trig.realignPending }) (henc : ∀ k, (vget u.enc k).sansIndex = (vget c.enc k).sansIndex) :
    mdNow u = mdNow c := by
  have hmain : (mainEnc u).sansIndex = (mainEnc c).sansIndex := by
    rw [mainEnc, htrig]
    exact henc c.trig.mainChannel
  have hcounts : mdCounts u = mdCounts c := by simp only [mdCounts, followsTags, hgang]
  simp only [mdNow, mdAt, ← Enc.sansIndex_speed (mainEnc u), ← Enc.sansIndex_forward (mainEnc u), ← Enc.sansIndex_lastForward (mainEnc u),
    ← Enc.sansIndex_stopped (mainEnc u), ← Enc.sansIndex_times (mainEnc u), ← Enc.sansIndex_wuPerCount (mainEnc u), hmain, hnow, hcounts]
  rw [htrig]
  rfl

/-- An index takes no time, leaves the gang, and changes in the trigger generator only the note of a realignment and in the channels
only what is an index's to set. -/
theorem takeIndex_frame (ch : Nat) (c : Chip) :
    (takeIndex ch c).now = c.now ∧ (takeIndex ch c).gang = c.gang ∧
    (takeIndex ch c).trig = { c.trig with realignPending := (takeIndex ch c).trig.realignPending } ∧
    ∀ k, (vget (takeIndex ch c).enc k).sansIndex = (vget c.enc k).sansIndex := by
  simp only [takeIndex]
  split
  case isTrue => exact ⟨rfl, rfl, rfl, vget_vset_view Enc.sansIndex rfl⟩
  case isFalse =>
    split
    case isTrue => exact ⟨rfl, rfl, rfl, vget_vset_view Enc.sansIndex (Enc.judged_sansIndex _ _ _)⟩
    case isFalse =>
      simp only [raise_now, raise_gang, raise_trig, raise_enc]
      split
      case isTrue => exact ⟨rfl, rfl, rfl, fun k => (Enc.vmod_realignedBeyond_sansIndex _ ch k).trans (vget_vset_view Enc.sansIndex (by rfl) k)⟩
      case isFalse => exact ⟨rfl, rfl, rfl, fun k => vget_vset_view Enc.sansIndex (by rfl) k⟩

end Sys2Proof.Machine

namespace Sys2Proof
open Sys2Proof.Machine

/-- Settles O25: at either end of the phase and between them, with what the revolution count does there (R32). -/
theorem thePhaseWrapsWithTheRevolution : Obligations.ThePhaseWrapsWithTheRevolution := by
  intro e t hc hphase hlo hhi f b
  have hkeep := wrapS_48_of_range hlo hhi
  refine ⟨Enc.count1_phase_lt true t hc hphase, Enc.count1_phase_lt false t hc hphase, fun htop => ?_, fun hbelow => ?_, fun hzero => ?_,
    fun habove => ?_⟩
  · obtain ⟨hp, hr⟩ := Enc.count1_forward_at_top t hc (by omega)
    exact ⟨hp, hr, by rw [hr, wrapS_add_sub_self]; rfl⟩
  · obtain ⟨hp, hr⟩ := Enc.count1_forward_below_top (e := e) t (by omega)
    exact ⟨hp, hr.trans hkeep⟩
  · obtain ⟨hp, hr⟩ := Enc.count1_backward_at_zero t hc hzero
    exact ⟨hp, hr, by rw [hr]; exact wrapS_add_sub_self 48 e.revolutions (-1)⟩
  · obtain ⟨hp, hr⟩ := Enc.count1_backward_above_zero t hc habove
    exact ⟨hp, hr.trans hkeep⟩

/-- Settles O26: neither the count of a channel nor anything MD is formed from is among what an index sets (R35). -/
theorem anIndexNeverMovesMd : Obligations.AnIndexNeverMovesMd := by
  refine ⟨fun c ch => ?_, fun e => ⟨rfl, rfl⟩⟩
  obtain ⟨hnow, hgang, htrig, henc⟩ := takeIndex_frame ch c
  refine ⟨fun k => ?_, mdNow_congr_sansIndex hnow hgang htrig henc, ?_, ?_⟩
  · rw [← Enc.sansIndex_count, henc k, Enc.sansIndex_count]
  · rw [htrig]
  · rw [htrig]

end Sys2Proof

/-! SUPPORT. Chapter 4: what the first steps of a lane engine make of a raw pixel: the shift to 14 bits and the saturated value (R87),
offset and drift (R88), and the rounding of the gain (R91). -/
namespace Sys2Proof.Machine

/-! ### The shift to 14 bits (R62, R87) -/

/-- Raw pixels that fit the port's depth are shifted and lose no bit. -/
theorem unpack_of_lt {p : Port} {raw : List Nat} (h : ∀ x ∈ raw, x < 2 ^ p.bitsPerPixel) : unpack p raw = raw.map (· <<< p.shift) := by
  refine List.map_congr_left fun x hx => ?_
  rw [Nat.mod_eq_of_lt (h x hx), Nat.shiftLeft_eq]

theorem Port.fullScale_eq_shiftLeft (p : Port) : p.fullScale = (2 ^ p.bitsPerPixel - 1) <<< p.shift := (Nat.shiftLeft_eq _ _).symm

/-- The shift keeps different pixels different, so only the greatest pixel of the depth comes out at full scale. -/
theorem Port.shiftLeft_eq_fullScale_iff (p : Port) (x : Nat) : x <<< p.shift = p.fullScale ↔ x = 2 ^ p.bitsPerPixel - 1 := by
  rw [p.fullScale_eq_shiftLeft, Nat.shiftLeft_eq, Nat.shiftLeft_eq]
  exact Nat.mul_left_inj (Nat.two_pow_pos p.shift).ne'

/-- A port's shift is fixed by its pixel format alone, through the depth in the format's row of R62. -/
theorem Port.shift_of_format {p : Port} {format : Nat} (h : p.pixelFormat = format) :
    p.shift = 14 - ((pixelFormats.find? fun x => x.1 == format).map (·.2.1)).getD 12 := by
  subst h
  rfl

/-! ### Offset, drift and gain (R88, R91) -/

theorem CorrBank.step2_getD (b : CorrBank) (delta : Int) {xs : List Nat} {u : Nat} (h : u < xs.length) :
    (b.step2 delta xs).getD u 0 = b.dark xs u - delta := by
  simp [CorrBank.step2, List.getD_eq_getElem?_getD, h]

/-- An arithmetic shift right is the floor of the quotient. -/
theorem asr_bounds (x : Int) (n : Nat) : 2 ^ n * asr x n ≤ x ∧ x < 2 ^ n * (asr x n + 1) := by
  have hpos : (0 : Int) < 2 ^ n := by positivity
  exact ⟨Int.mul_ediv_self_le hpos.ne', (Int.lt_mul_ediv_self_add hpos).trans_eq (mul_add_one _ _).symm⟩

end Sys2Proof.Machine

namespace Sys2Proof
open Sys2Proof.Machine

/-- Settles O28: the shift by its rows of R62 and what it makes of the greatest pixel, then y1 pixel by pixel and y2 as a floor (R87, R88,
R91). -/
theorem rawPixelsAreShiftedOffsetAndGained : Obligations.RawPixelsAreShiftedOffsetAndGained := by
  refine ⟨fun p x hx => ?shifted, fun p => ?formats, fun b delta xs u hu => b.step2_getD delta hu, fun y1 g => asr_bounds (y1 * g + 8192) 14⟩
  case shifted =>
    have hunpack : unpack p [x] = [x <<< p.shift] := unpack_of_lt (by simpa using hx)
    exact ⟨hunpack, by rw [hunpack, List.singleton_inj, p.shiftLeft_eq_fullScale_iff]⟩
  case formats =>
    refine ⟨Port.shift_of_format, ?_, ?_, ?_⟩
    all_goals exact fun h => h.elim Port.shift_of_format Port.shift_of_format

end Sys2Proof

/-! SUPPORT. Chapter 23: the status and the detail a host reads in the header of an answer (R468), as the personality reports them (R561),
and that raising an event reads four things of the modes and writes none (R562). -/
namespace Sys2Proof.Machine

/-! ### Reading a field of a header back (R10, R468) -/

theorem fromLe_le {n v : Nat} (h : v < 256 ^ n) : fromLe (le n v) = v := by
  induction n generalizing v with
  | zero => exact (Nat.lt_one_iff.1 h).symm
  | succ n ih =>
    have hhigh : v / 256 < 256 ^ n := Nat.div_lt_of_lt_mul (by rwa [← pow_succ'])
    rw [le, fromLe, ih hhigh, BitVec.toNat_ofNat]
    exact Nat.mod_add_div v 256

/-- A number laid behind other bytes is read at their length. -/
theorem rd_le_of_split {bs pre post : List Byte} {off n v : Nat} (hbs : bs = pre ++ (le n v ++ post)) (hoff : pre.length = off)
    (hv : v < 256 ^ n) : rd bs off n = v := by
  subst hbs hoff
  rw [rd, List.drop_left, List.take_left' (le_length n v), fromLe_le hv]

section
variable {m : Mailbox} {sequence command status cls flags detail tag s ns : Nat} {body : List Byte}

theorem answerBytes_status (h : status < 65536) :
    rd (answerBytes m sequence command status cls flags detail tag s ns body) 6 2 = status :=
  rd_le_of_split (pre := sliceB (fit 4096 m.bytes) 0 0 ++ le 2 sequence ++ le 2 command ++ le 2 body.length)
    (by simp only [answerBytes, putB, List.append_assoc]; rfl) (by simp) h

theorem answerBytes_detail (h : detail < 65536) :
    rd (answerBytes m sequence command status cls flags detail tag s ns body) 12 2 = detail :=
  rd_le_of_split
    (pre := sliceB (fit 4096 m.bytes) 0 0 ++ le 2 sequence ++ le 2 command ++ le 2 body.length ++ le 2 status ++ le 1 cls ++ [0] ++
      le 1 flags ++ [0])
    (by simp only [answerBytes, putB, List.append_assoc]; rfl) (by simp) h
end

/-! ### Answers as the personality reports them (R561) -/

theorem reportedStatus_notReady (d : Nat) : reportedStatus true stNotReady d = (stBusy, d) := rfl
theorem reportedStatus_dataError (d : Nat) : reportedStatus true stDataError d = (stAborted, 0) := rfl
theorem reportedStatus_other {st : Nat} (d : Nat) (hn : st ≠ stNotReady) (hd : st ≠ stDataError) :
    reportedStatus true st d = (st, d) := by
  simp [reportedStatus, hn, hd]

/-- What is reported fits the fields of the header. -/
theorem reportedStatus_lt {st d : Nat} (legacy : Bool) (hst : st < 65536) (hd : d < 65536) :
    (reportedStatus legacy st d).1 < 65536 ∧ (reportedStatus legacy st d).2 < 65536 := by
  simp only [reportedStatus]
  split
  · exact ⟨(by decide : stBusy < 65536), hd⟩
  · split
    · exact ⟨(by decide : stAborted < 65536), Nat.zero_lt_succ _⟩
    · exact ⟨hst, hd⟩

/-- The header a mailbox holds shows a status and a detail (R468). -/
def Mailbox.shows (m : Mailbox) (shown : Nat × Nat) : Prop := rd m.bytes 6 2 = shown.1 ∧ rd m.bytes 12 2 = shown.2

theorem answer_bytes_self {mb : Nat} (h : mb < 8) (bs : List Byte) (c : Chip) : (vget (answer mb bs c).mbx.mb mb).bytes = bs := by
  simp only [answer, signalVector_mbx, vget_vmod_self _ h]

/-- An answer laid down by `answerBytes` shows what it was given. -/
theorem answer_answerBytes_shows {mb : Nat} (h : mb < 8) {m : Mailbox} {sequence command cls flags tag s ns : Nat} {body : List Byte}
    {c : Chip} {shown : Nat × Nat} (hshown : shown.1 < 65536 ∧ shown.2 < 65536) :
    (vget (answer mb (answerBytes m sequence command shown.1 cls flags shown.2 tag s ns body) c).mbx.mb mb).shows shown := by
  rw [Mailbox.shows, answer_bytes_self h]
  exact ⟨answerBytes_status hshown.1, answerBytes_detail hshown.2⟩

/-- The answer to the request a mailbox holds: legacy, where the code it came under is not the native one (R559). -/
theorem respondNow_shows {mb : Nat} {j : Job} {c : Chip} {st d : Nat} (hmb : mb < 8) (hj : (vget c.mbx.mb mb).job = some j)
    (hst : st < 65536) (hd : d < 65536) (body : List Byte) :
    (vget (respondNow mb st d body c).mbx.mb mb).shows (reportedStatus (j.rawCode != j.code) st d) := by
  simp only [respondNow, if_neg (Nat.not_le.2 hmb), hj]
  exact answer_answerBytes_shows hmb (reportedStatus_lt _ hst hd)

/-- A refusal at the doorbell: legacy, where the code is of the forerunner's range in its personality (R558). -/
theorem refuseDoorbell_shows {mb : Nat} {st d : Nat} (hmb : mb < 8) (hst : st < 65536) (hd : d < 65536) (executed : Bool)
    (audited : Option Job) (c : Chip) :
    let code := rd (vget c.mbx.mb mb).bytes 2 2
    (vget (refuseDoorbell mb st d executed audited c).mbx.mb mb).shows
      (reportedStatus (c.modes.personality == 1 && decide (0x80 ≤ code) && decide (code ≤ 0xBF)) st d) :=
  answer_answerBytes_shows hmb (reportedStatus_lt _ hst hd)

/-! ### Raising an event reads the modes and writes none -/

section
variable (c : Chip) (m : Modes)

theorem signalVector_withModes (v : Nat) : signalVector v { c with modes := m } = { signalVector v c with modes := m } := by
  simp only [signalVector]; split <;> rfl

theorem signalGroup_withModes (code : Nat) : signalGroup code { c with modes := m } = { signalGroup code c with modes := m } := by
  simp only [signalGroup]
  split
  · exact signalVector_withModes c m _
  · rfl

theorem journalEvent_withModes (e : Event) : journalEvent e { c with modes := m } = { journalEvent e c with modes := m } := by
  have hday : utcDay { c with modes := m } = utcDay c := rfl
  by_cases h : c.life.day = utcDay c <;> simp only [journalEvent, hday, h, if_true, if_false] <;> split <;> rfl

theorem enqueueEvent_withModes (e : Event) : enqueueEvent e { c with modes := m } = { enqueueEvent e c with modes := m } := by
  simp only [enqueueEvent, signalGroup_withModes]
  split <;> split <;> rfl
end

@[simp] theorem journalEvent_modes (e : Event) (c : Chip) : (journalEvent e c).modes = c.modes :=
  (congrArg Chip.modes (journalEvent_quiet e c) : (journalEvent e c).quiet.modes = c.quiet.modes)

/-- An event as raised now, with the next sequence (R458). -/
def Chip.nextEvent (c : Chip) (code sev source : Nat) (payload : List Byte) : Event :=
  { code, severity := sev, source := source % 128 + 128 * b2n (raisedByFirmware code payload), sequence := c.evq.nextSequence,
    timeS := (clock c).1, timeNs := (clock c).2, payload := fit 12 payload }

/-- The device once an event has taken its sequence (R459). -/
def Chip.sequenceTaken (c : Chip) : Chip := { c with evq := { c.evq with nextSequence := wrapU 32 (c.evq.nextSequence + 1) } }

/-- The last step of raising an event: the ring carries it, unless LOCKDOWN keeps it out (R527). -/
def carryEvent (e : Event) (c : Chip) : Chip := if c.modes.lockdown && !lockdownCarries e.code then c else enqueueEvent e c

/-- Raising an event at once: it takes its sequence, goes into the journal where asked for, and is carried. -/
theorem raiseNow_eq (journal : Bool) (code sev source : Nat) (payload : List Byte) (c : Chip) :
    raiseNow journal code sev source payload c =
      if !raisesEvents c || !eventEnabled c code sev || (c.modes.personality == 1 && !legacyRaises code) then c
      else carryEvent (c.nextEvent code sev source payload)
        (if journal then journalEvent (c.nextEvent code sev source payload) c.sequenceTaken else c.sequenceTaken) := rfl

theorem carryEvent_withModes {c : Chip} {m : Modes} (hlock : m.lockdown = c.modes.lockdown) (e : Event) :
    carryEvent e { c with modes := m } = { carryEvent e c with modes := m } := by
  simp only [carryEvent, hlock, enqueueEvent_withModes]
  split <;> rfl

/-- Of the modes, an event that both personalities know depends on the boot and the lockdown alone. -/
theorem raiseNow_withModes {c : Chip} {m : Modes} {code : Nat} (hboot : m.boot = c.modes.boot) (hlock : m.lockdown = c.modes.lockdown)
    (hknown : legacyRaises code = true) (journal : Bool) (sev source : Nat) (payload : List Byte) :
    raiseNow journal code sev source payload { c with modes := m } = { raiseNow journal code sev source payload c with modes := m } := by
  have hraises : raisesEvents { c with modes := m } = raisesEvents c := by simp only [raisesEvents, hboot]
  have henabled : eventEnabled { c with modes := m } code sev = eventEnabled c code sev := rfl
  have hevent : ({ c with modes := m } : Chip).nextEvent code sev source payload = c.nextEvent code sev source payload := rfl
  have htaken : ({ c with modes := m } : Chip).sequenceTaken = { c.sequenceTaken with modes := m } := rfl
  simp only [raiseNow_eq, hraises, henabled, hevent, htaken, hknown, Bool.not_true, Bool.and_false, Bool.or_false]
  split
  case isTrue => rfl
  case isFalse =>
    cases journal with
    | false => exact carryEvent_withModes (c := c.sequenceTaken) hlock _
    | true =>
      simp only [if_true, journalEvent_withModes]
      exact carryEvent_withModes (by rw [journalEvent_modes]; exact hlock) _

/-- Where what Borusk firmware raises may wait for the Lodge (R25), the event depends on the restart besides. -/
theorem raiseWith_withModes {c : Chip} {m : Modes} {code : Nat} (hboot : m.boot = c.modes.boot) (hlock : m.lockdown = c.modes.lockdown)
    (hready : m.notReady = c.modes.notReady) (hknown : legacyRaises code = true) (journal : Bool) (sev source : Nat) (payload : List Byte) :
    raiseWith journal code sev source payload { c with modes := m } = { raiseWith journal code sev source payload c with modes := m } := by
  have hrestarts : lodgeRestarts { c with modes := m } = lodgeRestarts c := by simp only [lodgeRestarts, hboot, hready]
  simp only [raiseWith, hrestarts, raiseNow_withModes hboot hlock hknown]
  split <;> rfl

/-! ### What the forerunner's personality does not know (R562) -/

theorem legacyRaises_eq_false_iff {code : Nat} : legacyRaises code = false ↔
    code / 256 = 0x06 ∨ code / 256 = 0x08 ∨ code / 256 = 0x0B ∨ code / 256 = 0x0C ∨ code / 256 = 0x0F ∨ code = 0x0700 := by
  simp only [legacyRaises, List.contains_cons, List.contains_nil, Bool.and_eq_false_iff, Bool.not_eq_false', bne_eq_false_iff_eq,
    Bool.or_eq_true, beq_iff_eq, Bool.false_eq_true, or_false, or_assoc]

theorem raiseNow_of_unknown {c : Chip} {code : Nat} (hp : c.modes.personality = 1) (h : legacyRaises code = false) (journal : Bool)
    (sev source : Nat) (payload : List Byte) : raiseNow journal code sev source payload c = c := by
  simp [raiseNow, hp, h]

/-- An event that has nothing to wait for is raised at once. -/
theorem raiseWith_of_unheld {c : Chip} {code : Nat} {payload : List Byte}
    (h : lodgeRestarts c = true → raisedByFirmware code payload = false) (journal : Bool) (sev source : Nat) :
    raiseWith journal code sev source payload c = raiseNow journal code sev source payload c :=
  if_neg (by simpa using h)

end Sys2Proof.Machine

namespace Sys2Proof
open Sys2Proof.Machine

/-- Settles O19: either answer shows what `reportedStatus` makes of a legacy code's status (R561). -/
theorem legacyStatusesAreTheForerunners : Obligations.LegacyStatusesAreTheForerunners := by
  intro c mb st d hst hd reported
  have hreported : ∀ u : Chip, (vget u.mbx.mb mb).shows (reportedStatus true st d) → reported u := by
    intro u hshows
    refine ⟨fun hn => ?_, fun he => ?_, fun hn he => ?_⟩
    · rwa [hn, reportedStatus_notReady] at hshows
    · rwa [he, reportedStatus_dataError] at hshows
    · rwa [reportedStatus_other d hn he] at hshows
  refine ⟨fun j body hj hraw _ => hreported _ ?answered, fun executed audited hp hlo hhi => hreported _ ?refused⟩
  case answered => simpa [bne_iff_ne.2 hraw] using respondNow_shows mb.isLt hj hst hd body
  case refused => simpa [hp, hlo, hhi] using refuseDoorbell_shows mb.isLt hst hd executed audited c

/-- Settles O20: an event the personality does not know is dropped, and the personality is nothing an event it knows depends on (R562). -/
theorem legacyEventsAreThoseOfTheForerunner : Obligations.LegacyEventsAreThoseOfTheForerunner := by
  intro journal code sev source payload c hp
  rw [← legacyRaises_eq_false_iff, Bool.not_eq_false]
  refine ⟨fun hunknown => ?dropped, fun hknown => ?raised⟩
  case dropped =>
    have hnow := raiseNow_of_unknown hp hunknown journal sev source payload
    exact ⟨hnow, fun hunheld => (raiseWith_of_unheld hunheld journal sev source).trans hnow⟩
  case raised =>
    let native : Chip := { c with modes := { c.modes with personality := 0 } }
    exact raiseWith_withModes (c := native) (m := c.modes) rfl rfl rfl hknown journal sev source payload

end Sys2Proof

/-! SUPPORT. What a step is made of: every command's effect lands as one change of the device, an idle tick moves the windings alone, and
either leaves the memories in canonical form. -/
namespace Sys2Proof.Machine

/-! ### Every command answers a next state -/

/-- Whatever a command does, it does to the device, and what it issued lands in the memories. -/
theorem exec_eq_put (i : Instr) (s : State) : ∃ c, exec i s = .next (s.put c) := by
  cases i <;> exact ⟨_, rfl⟩

theorem step_cons {s : State} {i : Instr} {rest : List Instr} (h : s.pending = i :: rest) : step s = exec i { s with pending := rest } := by
  simp only [step, h]

theorem step_nil {s : State} (h : s.pending = []) : step s = .next s.idle := by
  simp only [step, h]

/-! ### An idle tick -/

/-- A fold keeps what every round keeps. -/
theorem foldl_view {α σ β : Type} (F : σ → β) {f : σ → α → σ} (h : ∀ c k, F (f c k) = F c) (ks : List α) (c : σ) :
    F (ks.foldl f c) = F c := by
  induction ks generalizing c with
  | nil => rfl
  | cons k ks ih => rw [List.foldl_cons, ih, h]

/-- The device apart from what sampling the windings may touch: the axes, the outputs and the count of drawn free values. -/
def Chip.sansWindings (c : Chip) : Chip := { c with fresh := 0, out := [], axis := Vector.replicate 4 default }

/-- Two devices that differ in no other field differ in those three. -/
theorem Chip.eq_of_sansWindings {u c : Chip} (h : u.sansWindings = c.sansWindings) :
    u = { c with fresh := u.fresh, out := u.out, axis := u.axis } :=
  congrArg (fun x : Chip => { x with fresh := u.fresh, out := u.out, axis := u.axis }) h

theorem Winding.unsampled_sansWindings (a : AxisCfg) (from_ now : Nat) (moved : Bool) (target : Int) (w : Winding) (c : Chip) :
    (w.unsampled a from_ now moved target c).2.sansWindings = c.sansWindings := by
  simp only [Winding.unsampled, apply_ite Prod.snd, ite_self]; rfl

theorem sampledAxis_sansWindings (k : Nat) (c : Chip) : (sampledAxis k c).sansWindings = c.sansWindings := by
  simp only [sampledAxis]
  split
  · rfl
  · exact (Winding.unsampled_sansWindings _ _ _ _ _ _ _).trans (Winding.unsampled_sansWindings _ _ _ _ _ _ _)

theorem sampleAxis_sansWindings (k : Nat) (c : Chip) : (sampleAxis k c).sansWindings = c.sansWindings := by
  simp only [sampleAxis]; split <;> rfl

/-- The device once every axis is brought up to the present instant, with what it issued before forgotten. -/
def Chip.brought (c : Chip) : Chip := (List.range 4).foldl (fun c k => sampledAxis k c) { c with out := [] }

theorem Chip.brought_sansWindings (c : Chip) : c.brought.sansWindings = c.sansWindings :=
  foldl_view Chip.sansWindings (fun c k => sampledAxis_sansWindings k c) (List.range 4) { c with out := [] }

theorem State.idle_chip (s : State) :
    s.idle.chip = (List.range 4).foldl (fun c k => sampleAxis k c) { s.chip.brought with now := s.chip.brought.now + 4 } := by
  simp only [State.idle, Chip.brought]

@[simp] theorem State.idle_host (s : State) : s.idle.host = s.host := by simp only [State.idle]
@[simp] theorem State.idle_bulk (s : State) : s.idle.bulk = s.bulk := by simp only [State.idle]
@[simp] theorem State.idle_pending (s : State) : s.idle.pending = s.pending := by simp only [State.idle]

/-- In an idle tick 4 ns pass, and of the rest only the windings, the outputs and the free values change. -/
theorem State.idle_frame (s : State) : s.idle.chip =
    { s.chip with now := s.chip.now + 4, fresh := s.idle.chip.fresh, out := s.idle.chip.out, axis := s.idle.chip.axis } := by
  refine Chip.eq_of_sansWindings (c := { s.chip with now := s.chip.now + 4 }) ?_
  rw [State.idle_chip, foldl_view Chip.sansWindings (fun c k => sampleAxis_sansWindings k c)]
  exact congrArg (fun x : Chip => { x with now := x.now + 4 }) s.chip.brought_sansWindings

end Sys2Proof.Machine

namespace Sys2Proof
open Sys2Proof.Machine

/-- Settles O2: a command's effects and an idle tick both keep the canonical form; the queue is the step's own. -/
theorem everyStepKeepsCanonicalMemory : Obligations.EveryStepKeepsCanonicalMemory := by
  intro s u hmem hstep
  cases hq : s.pending with
  | nil =>
    obtain rfl : s.idle = u := by simpa [step_nil hq] using hstep
    exact ⟨by simpa [State.memOk] using hmem, by simp [hq]⟩
  | cons i rest =>
    obtain ⟨c, hc⟩ := exec_eq_put i { s with pending := rest }
    obtain rfl : ({ s with pending := rest } : State).put c = u := by simpa [step_cons hq, hc] using hstep
    exact ⟨State.put_memOk c hmem, rfl⟩

/-- Settles O1: what an idle tick leaves, and the one shape of every command's outcome. -/
theorem stepRunsFrontCommand : Obligations.StepRunsFrontCommand := by
  refine ⟨fun i rest s h => step_cons h, fun s h => ⟨step_nil h, s.idle_host, s.idle_bulk, s.idle_pending.trans h, s.idle_frame⟩, fun i s => ?_⟩
  obtain ⟨c, hc⟩ := exec_eq_put i s
  exact ⟨s.put c, hc, rfl⟩

/-- Settles O3: reset's values are read off, bank by bank. -/
theorem resetLeavesTheStatedValues : Obligations.ResetLeavesTheStatedValues := by
  refine ⟨State.reset_memOk, rfl, rfl, rfl, rfl, ?mailboxes, ?masks, rfl, rfl, rfl, rfl, rfl, rfl, rfl, rfl, rfl, rfl, rfl, rfl, rfl, rfl,
    ?encoders, ?channels⟩
  all_goals decide

end Sys2Proof

/-! SUPPORT. Chapter 10: bits of little-endian fields, and what a decompressor makes of stored blocks (R284, R287), which stand in wherever
the engine's own stream would not do (R288). -/
namespace Sys2Proof.Machine

/-! ### Bits of a number and of a byte string -/

theorem bit_zero (x : Nat) : bit x 0 = decide (x % 2 = 1) := by
  simp [bit, beq_eq_decide]

theorem bit_succ (x i : Nat) : bit x (i + 1) = bit (x / 2) i := by
  simp only [bit, pow_succ', Nat.div_div_eq_div_mul]

@[simp] theorem lowBits_zero (x : Nat) : lowBits 0 x = [] := rfl

theorem lowBits_succ (n x : Nat) : lowBits (n + 1) x = decide (x % 2 = 1) :: lowBits n (x / 2) := by
  simp only [lowBits, List.range_succ_eq_map, List.map_cons, List.map_map, bit_zero]
  congr 1
  exact List.map_congr_left fun i _ => bit_succ x i

@[simp] theorem lowBits_length (n x : Nat) : (lowBits n x).length = n := by simp [lowBits]

theorem lowBits_add (m n x : Nat) : lowBits (m + n) x = lowBits m x ++ lowBits n (x / 2 ^ m) := by
  induction m generalizing x with
  | zero => simp
  | succ m ih => rw [Nat.succ_add, lowBits_succ, lowBits_succ, ih, Nat.div_div_eq_div_mul, ← pow_succ', List.cons_append]

/-- Bits above those taken do not matter. -/
theorem lowBits_mod (n x : Nat) : lowBits n (x % 2 ^ n) = lowBits n x := by
  induction n generalizing x with
  | zero => rfl
  | succ n ih =>
    have hlow : x % 2 ^ (n + 1) % 2 = x % 2 := Nat.mod_mod_of_dvd x (dvd_pow_self 2 n.succ_ne_zero)
    have hhigh : x % 2 ^ (n + 1) / 2 = x / 2 % 2 ^ n := by rw [pow_succ', Nat.mod_mul_right_div_self]
    rw [lowBits_succ, lowBits_succ, hlow, hhigh, ih]

theorem packBits_lowBits {n x : Nat} (h : x < 2 ^ n) : packBits (lowBits n x) = x := by
  induction n generalizing x with
  | zero => simpa [packBits] using (Nat.lt_one_iff.1 h).symm
  | succ n ih =>
    have hbit : b2n (decide (x % 2 = 1)) = x % 2 := by
      rcases Nat.mod_two_eq_zero_or_one x with h0 | h1
      · rw [h0]; rfl
      · rw [h1]; rfl
    rw [lowBits_succ, packBits, ih (Nat.div_lt_of_lt_mul (by rwa [← pow_succ'])), hbit, Nat.mod_add_div]

@[simp] theorem bytesBits_nil : bytesBits [] = [] := rfl
@[simp] theorem bytesBits_cons (b : Byte) (bs : List Byte) : bytesBits (b :: bs) = lowBits 8 b.toNat ++ bytesBits bs := rfl
@[simp] theorem bytesBits_append (as bs : List Byte) : bytesBits (as ++ bs) = bytesBits as ++ bytesBits bs := List.flatMap_append

@[simp] theorem bytesBits_length (bs : List Byte) : (bytesBits bs).length = 8 * bs.length := by
  induction bs with
  | nil => rfl
  | cons b bs ih => simp only [bytesBits_cons, List.length_append, lowBits_length, List.length_cons, ih]; omega

/-- A little-endian field is the bits of its value, the least significant first (R10). -/
theorem bytesBits_le (n v : Nat) : bytesBits (le n v) = lowBits (8 * n) v := by
  induction n generalizing v with
  | zero => rfl
  | succ n ih =>
    rw [le, bytesBits_cons, ih, BitVec.toNat_ofNat, lowBits_mod, Nat.mul_succ, Nat.add_comm (8 * n) 8, lowBits_add]; rfl

/-- A number laid down at the front of the input is what is taken from it. -/
theorem BitIn.take_lowBits {n x : Nat} (h : x < 2 ^ n) (r : List Bool) (pos : Nat) :
    BitIn.take { rest := lowBits n x ++ r, pos } n = some (x, { rest := r, pos := pos + n }) := by
  have htake : (lowBits n x ++ r).take n = lowBits n x := List.take_left' (lowBits_length n x)
  have hdrop : (lowBits n x ++ r).drop n = r := List.drop_left' (lowBits_length n x)
  have hlen : ¬ (lowBits n x ++ r).length < n := by simp
  simp only [BitIn.take, if_neg hlen, htake, hdrop, packBits_lowBits h]

/-! ### Stored blocks (R287) -/

/-- A stored block: the mark of the last block, the length of its data, its complement, the data. -/
def storedBytesOf (last : Bool) (seg : List Byte) : List Byte :=
  le 1 (b2n last) ++ le 2 seg.length ++ le 2 (65535 - seg.length) ++ seg

/-- Stored blocks one after another, the last one marked. -/
def storedBlocksOf : List (List Byte) → List Byte
  | [] => []
  | [seg] => storedBytesOf true seg
  | seg :: segs => storedBytesOf false seg ++ storedBlocksOf segs

theorem storedBlocksOf_cons_cons (seg seg' : List Byte) (segs : List (List Byte)) :
    storedBlocksOf (seg :: seg' :: segs) = storedBytesOf false seg ++ storedBlocksOf (seg' :: segs) := rfl

@[simp] theorem storedBytesOf_length (last : Bool) (seg : List Byte) : (storedBytesOf last seg).length = seg.length + 5 := by
  simp only [storedBytesOf, List.length_append, le_length]; omega

theorem storedBlocksOf_length (segs : List (List Byte)) :
    (storedBlocksOf segs).length = segs.flatten.length + 5 * segs.length := by
  induction segs with
  | nil => rfl
  | cons seg segs ih =>
    cases segs with
    | nil => simp [storedBlocksOf]
    | cons seg' segs =>
      rw [storedBlocksOf_cons_cons, List.length_append, ih, storedBytesOf_length, List.flatten_cons (l := seg), List.length_append,
        List.length_cons (a := seg)]
      omega

/-- Where the last block is told by its place, from any place on. -/
theorem flatten_mapIdx_storedBytesOf {segs : List (List Byte)} {k n : Nat} (h : k + segs.length = n) :
    (segs.mapIdx fun i seg => storedBytesOf (i + k + 1 == n) seg).flatten = storedBlocksOf segs := by
  induction segs generalizing k with
  | nil => rfl
  | cons seg segs ih =>
    have hrest := ih (k := k + 1) (by rw [← h, List.length_cons]; omega)
    have hplace (i : Nat) : i + (k + 1) + 1 = i + 1 + k + 1 := by omega
    simp only [hplace] at hrest
    rw [List.mapIdx_cons, List.flatten_cons, hrest]
    cases segs with
    | nil => simp [storedBlocksOf, ← h]
    | cons seg' segs =>
      have hnot : (0 + k + 1 == n) = false := by simp only [List.length_cons] at h; simp; omega
      rw [storedBlocksOf_cons_cons, hnot]

/-- The data of a stored block is read byte by byte. -/
theorem storedBytes_bytesBits {limit : Nat} {seg : List Byte} {o : Inflate} (h : o.count + seg.length ≤ limit) (r : List Bool) (pos : Nat) :
    storedBytes limit seg.length { rest := bytesBits seg ++ r, pos } o =
      .ok () { rest := r, pos := pos + 8 * seg.length } { out := seg.reverse ++ o.out, count := o.count + seg.length } := by
  induction seg generalizing pos o with
  | nil => rfl
  | cons b seg ih =>
    rw [List.length_cons] at h
    have hroom : ¬ limit ≤ o.count := by omega
    have hnext := ih (o := { out := b :: o.out, count := o.count + 1 }) (by simp only; omega) (pos + 8)
    rw [List.length_cons, storedBytes, bytesBits_cons, List.append_assoc, BitIn.take_lowBits b.isLt]
    simp only [if_neg hroom, BitVec.ofNat_toNat, BitVec.setWidth_eq, hnext, List.reverse_cons, List.append_assoc, List.singleton_append]
    congr 2 <;> omega

/-- A stored block after its three bits of header: the rest of the byte is passed over (R287). -/
theorem storedBlock_bytesBits {limit : Nat} {seg : List Byte} {o : Inflate} (hseg : seg.length ≤ 65535)
    (h : o.count + seg.length ≤ limit) (r : List Bool) {pos : Nat} (hpos : pos % 8 = 0) :
    storedBlock limit { rest := lowBits 5 0 ++ (bytesBits (le 2 seg.length ++ le 2 (65535 - seg.length) ++ seg) ++ r), pos := pos + 3 } o =
      .ok () { rest := r, pos := pos + 8 * (seg.length + 5) } { out := seg.reverse ++ o.out, count := o.count + seg.length } := by
  have hgap : (8 - (pos + 3) % 8) % 8 = 5 := by omega
  have hlen : (seg.length + 65536 * (65535 - seg.length)) % 65536 = seg.length := by omega
  have hcomplement : (seg.length + 65536 * (65535 - seg.length)) / 65536 = 65535 - seg.length := by omega
  have hfield : bytesBits (le 2 seg.length ++ le 2 (65535 - seg.length) ++ seg) ++ r =
      lowBits 32 (seg.length + 65536 * (65535 - seg.length)) ++ (bytesBits seg ++ r) := by
    have hboth := lowBits_add 16 16 (seg.length + 65536 * (65535 - seg.length))
    rw [← lowBits_mod 16 (seg.length + _), show (2 : Nat) ^ 16 = 65536 from rfl, hlen, hcomplement] at hboth
    simp only [bytesBits_append, bytesBits_le, List.append_assoc, hboth, Nat.reduceMul]
  have hsum : ¬ seg.length + (65535 - seg.length) ≠ 65535 := by omega
  simp only [storedBlock, BitIn.align, hgap, List.drop_left' (lowBits_length 5 0), hfield]
  rw [BitIn.take_lowBits (by omega)]
  simp only [hlen, hcomplement, if_neg hsum, storedBytes_bytesBits h]
  congr 2; omega

/-- One stored block at a byte boundary, then what follows it, where it is not the last (R287). -/
theorem blocks_storedBytesOf {limit fuel : Nat} {last : Bool} {seg : List Byte} {o : Inflate} (hseg : seg.length ≤ 65535)
    (h : o.count + seg.length ≤ limit) (r : List Bool) {pos : Nat} (hpos : pos % 8 = 0) :
    let i : BitIn := { rest := r, pos := pos + 8 * (seg.length + 5) }
    let o' : Inflate := { out := seg.reverse ++ o.out, count := o.count + seg.length }
    blocks limit (fuel + 1) { rest := bytesBits (storedBytesOf last seg) ++ r, pos } o =
      if last then .ok () i o' else blocks limit fuel i o' := by
  have hmark : b2n last < 2 ^ 3 ∧ b2n last / 2 = 0 ∧ b2n last / 2 ^ 3 = 0 ∧ (b2n last % 2 = 1 ↔ last = true) := by cases last <;> decide
  obtain ⟨hfits, hkind, hhigh, hlast⟩ := hmark
  have hsplit : bytesBits (storedBytesOf last seg) ++ r = lowBits 3 (b2n last) ++
      (lowBits 5 0 ++ (bytesBits (le 2 seg.length ++ le 2 (65535 - seg.length) ++ seg) ++ r)) := by
    have hfirst := lowBits_add 3 5 (b2n last)
    rw [hhigh] at hfirst
    simp only [storedBytesOf, bytesBits_append, bytesBits_le, List.append_assoc] at hfirst ⊢
    rw [← List.append_assoc (lowBits 3 _), ← hfirst]
  simp only [blocks, hsplit, BitIn.take_lowBits hfits, hkind, storedBlock_bytesBits hseg h r hpos, hlast]

/-- A stream of stored blocks expands to their data. -/
theorem blocks_storedBlocksOf {limit fuel : Nat} {segs : List (List Byte)} {o : Inflate} (hne : segs ≠ []) (hfuel : segs.length ≤ fuel)
    (hseg : ∀ seg ∈ segs, seg.length ≤ 65535) (h : o.count + segs.flatten.length ≤ limit) {pos : Nat} (hpos : pos % 8 = 0) :
    blocks limit fuel { rest := bytesBits (storedBlocksOf segs), pos } o =
      .ok () { rest := [], pos := pos + 8 * (storedBlocksOf segs).length }
        { out := segs.flatten.reverse ++ o.out, count := o.count + segs.flatten.length } := by
  induction segs generalizing fuel o pos with
  | nil => exact absurd rfl hne
  | cons seg segs ih =>
    obtain ⟨fuel, rfl⟩ : ∃ k, fuel = k + 1 := ⟨fuel - 1, by simp only [List.length_cons] at hfuel; omega⟩
    rw [List.flatten_cons, List.length_append] at h
    have hthis : seg.length ≤ 65535 := hseg seg List.mem_cons_self
    cases segs with
    | nil =>
      have hone := blocks_storedBytesOf (fuel := fuel) (last := true) hthis (o := o) (limit := limit) (by omega) [] hpos
      simpa [storedBlocksOf] using hone
    | cons seg' segs =>
      have hone := blocks_storedBytesOf (fuel := fuel) (last := false) hthis (o := o) (limit := limit) (by omega)
        (bytesBits (storedBlocksOf (seg' :: segs))) hpos
      have hrest := ih (fuel := fuel) (o := { out := seg.reverse ++ o.out, count := o.count + seg.length })
        (List.cons_ne_nil _ _) (by simp only [List.length_cons] at hfuel ⊢; omega) (fun s hs => hseg s (List.mem_cons_of_mem _ hs))
        (by simp only; omega) (pos := pos + 8 * (seg.length + 5)) (by omega)
      rw [storedBlocksOf_cons_cons, bytesBits_append, hone]
      simp only [Bool.false_eq_true, if_false, hrest, List.flatten_cons, List.reverse_append, List.append_assoc, List.length_append,
        storedBytesOf_length]
      congr 2 <;> omega

/-! ### The stored stream of an input (R287) -/

theorem flatten_chunks {α : Type} {n k : Nat} {l : List α} (h : l.length ≤ n * k) : (chunks n k l).flatten = l := by
  induction k generalizing l with
  | zero => simpa [chunks, eq_comm] using h
  | succ k ih =>
    cases l with
    | nil => rfl
    | cons a l =>
      have hrest : ((a :: l).drop n).length ≤ n * k := by rw [List.length_drop]; rw [Nat.mul_succ] at h; omega
      simp only [chunks, List.isEmpty_cons, Bool.false_eq_true, if_false, List.flatten_cons, ih hrest, List.take_append_drop]

theorem length_le_of_mem_chunks {α : Type} {n k : Nat} {l x : List α} (h : x ∈ chunks n k l) : x.length ≤ n := by
  induction k generalizing l with
  | zero => simp [chunks] at h
  | succ k ih =>
    rw [chunks] at h
    split at h
    · simp at h
    · rcases List.mem_cons.1 h with rfl | h
      · exact List.length_take_le n l
      · exact ih h

theorem ceilDiv_add_self {a n : Nat} (h : 0 < n) : ceilDiv (a + n) n = ceilDiv a n + 1 := by
  rw [ceilDiv, ceilDiv, if_neg h.ne', if_neg h.ne', show a + n + n - 1 = a + n - 1 + n by omega, Nat.add_div_right _ h]

/-- A string is cut into as many parts as its length asks for. -/
theorem chunks_length {α : Type} {n k : Nat} {l : List α} (hn : 0 < n) (h : l.length ≤ n * k) : (chunks n k l).length = ceilDiv l.length n := by
  induction k generalizing l with
  | zero =>
    obtain rfl : l = [] := by simpa using h
    simp [chunks, ceilDiv, Nat.div_eq_of_lt (Nat.sub_lt hn Nat.one_pos)]
  | succ k ih =>
    cases l with
    | nil => simp [chunks, ceilDiv, Nat.div_eq_of_lt (Nat.sub_lt hn Nat.one_pos)]
    | cons a l =>
      have hrest : ((a :: l).drop n).length ≤ n * k := by rw [List.length_drop]; rw [Nat.mul_succ] at h; omega
      simp only [chunks, List.isEmpty_cons, Bool.false_eq_true, if_false, List.length_cons (a := List.take _ _), ih hrest, List.length_drop]
      rcases Nat.le_total n (a :: l).length with hle | hlt
      · rw [← ceilDiv_add_self hn, Nat.sub_add_cancel hle]
      · have hone : ((a :: l).length + n - 1) / n = 1 :=
          Nat.div_eq_of_lt_le (by simp only [List.length_cons]; omega) (by simp only [List.length_cons] at hlt ⊢; omega)
        rw [Nat.sub_eq_zero_of_le hlt, ceilDiv, ceilDiv, if_neg hn.ne', if_neg hn.ne', hone, Nat.zero_add,
          Nat.div_eq_of_lt (Nat.sub_lt hn Nat.one_pos)]

/-- The segments of the stored stream: one empty segment for an empty input. -/
def storedSegments (bs : List Byte) : List (List Byte) := if bs.isEmpty then [[]] else chunks 65535 (bs.length / 65535 + 1) bs

theorem storedStream_eq (bs : List Byte) : storedStream bs = storedBlocksOf (storedSegments bs) :=
  flatten_mapIdx_storedBytesOf (k := 0) (Nat.zero_add _)

theorem storedSegments_flatten (bs : List Byte) : (storedSegments bs).flatten = bs := by
  rw [storedSegments]
  split
  case isTrue h => exact (List.isEmpty_iff.1 h).symm
  case isFalse => exact flatten_chunks (by omega)

theorem storedSegments_length (bs : List Byte) : (storedSegments bs).length = max 1 (ceilDiv bs.length 65535) := by
  rw [storedSegments]
  split
  case isTrue h => obtain rfl : bs = [] := by simpa using h
                   rfl
  case isFalse h =>
    have hpos : 0 < bs.length := List.length_pos_iff.2 (by simpa using h)
    have hsome : 1 ≤ ceilDiv bs.length 65535 := by rw [ceilDiv, if_neg (by decide)]; omega
    rw [chunks_length (by decide) (by omega), max_eq_right hsome]

theorem length_le_of_mem_storedSegments {bs seg : List Byte} (h : seg ∈ storedSegments bs) : seg.length ≤ 65535 := by
  rw [storedSegments] at h
  split at h
  · simp only [List.mem_singleton] at h; subst h; exact Nat.zero_le _
  · exact length_le_of_mem_chunks h

theorem storedSegments_ne_nil (bs : List Byte) : storedSegments bs ≠ [] := by
  rw [← List.length_pos_iff, storedSegments_length]; omega

theorem storedStream_length (bs : List Byte) : (storedStream bs).length = deflateBound 0 bs.length := by
  rw [storedStream_eq, storedBlocksOf_length, storedSegments_flatten, storedSegments_length, deflateBound, if_pos rfl, Nat.add_zero]

/-- Decompressing a raw stream is running its blocks (R284). -/
theorem inflate_raw {limit : Nat} {bs : List Byte} {i : BitIn} {o : Inflate}
    (h : blocks limit ((bytesBits bs).length + 1) { rest := bytesBits bs, pos := 0 } {} = .ok () i o) :
    inflate 0 limit bs = { output := o.out.reverse, consumed := i.align.pos / 8 } := by
  simp only [inflate, wrapperHeader, List.drop_zero, Nat.mul_zero, h]

/-- The stored stream of an input expands to it and is used up. -/
theorem inflate_storedStream (bs : List Byte) :
    inflate 0 bs.length (storedStream bs) = { output := bs, consumed := (storedStream bs).length } := by
  have hblocks := blocks_storedBlocksOf (limit := bs.length) (fuel := (bytesBits (storedStream bs)).length + 1) (o := {}) (pos := 0)
    (storedSegments_ne_nil bs) (by rw [bytesBits_length, storedStream_eq, storedBlocksOf_length]; omega)
    (fun _ => length_le_of_mem_storedSegments) (by rw [storedSegments_flatten]; exact (Nat.zero_add _).le) rfl
  rw [← storedStream_eq] at hblocks
  rw [inflate_raw hblocks, storedSegments_flatten]
  have hboundary : (8 - (0 + 8 * (storedStream bs).length) % 8) % 8 = 0 := by omega
  have hused : (0 + 8 * (storedStream bs).length + 0) / 8 = (storedStream bs).length := by omega
  simp only [BitIn.align, hboundary, hused, List.append_nil, List.reverse_reverse]

/-! ### The raw stream, whatever the engine writes (R287, R288) -/

theorem deflateRaw_length_le (level : Nat) (fixed : Bool) (bs : List Byte) :
    (deflateRaw level fixed bs).length ≤ deflateBound 0 bs.length := by
  simp only [deflateRaw]
  split
  case isTrue h => exact h.2.2.2
  case isFalse => exact (storedStream_length bs).le

theorem inflate_deflateRaw (level : Nat) (fixed : Bool) (bs : List Byte) :
    inflate 0 bs.length (deflateRaw level fixed bs) = { output := bs, consumed := (deflateRaw level fixed bs).length } := by
  simp only [deflateRaw]
  split
  case isTrue h =>
    obtain ⟨herror, houtput, hconsumed, -⟩ := h
    generalize inflate 0 bs.length (engineStream level fixed bs) = r at *
    obtain ⟨output, consumed, error⟩ := r
    simp only [Option.isNone_iff_eq_none] at herror houtput hconsumed
    rw [herror, houtput, hconsumed]
  case isFalse => exact inflate_storedStream bs

theorem deflate_raw (level : Nat) (fixed : Bool) (bs : List Byte) : deflate 0 level fixed bs = deflateRaw level fixed bs := by
  simp only [deflate]

/-- A wrapper adds its header and its trailer to the raw stream (R284). -/
theorem deflate_length_le (wrapper level : Nat) (fixed : Bool) (bs : List Byte) :
    (deflate wrapper level fixed bs).length ≤ deflateBound wrapper bs.length := by
  have hraw := deflateRaw_length_le level fixed bs
  rcases wrapper with _ | _ | wrapper
  case zero => rwa [deflate_raw]
  case succ.zero =>
    simp only [deflate, deflateBound, be, List.length_append, List.length_cons, List.length_nil, List.length_reverse, le_length] at hraw ⊢
    simp only [if_true, Nat.zero_add, one_ne_zero, if_false] at hraw ⊢
    omega
  case succ.succ =>
    simp only [deflate, deflateBound, List.length_append, List.length_cons, List.length_nil, le_length] at hraw ⊢
    simp only [if_true, Nat.add_eq_zero_iff, one_ne_zero, and_false, if_false, Nat.add_eq_right] at hraw ⊢
    omega

end Sys2Proof.Machine

namespace Sys2Proof
open Sys2Proof.Machine

/-- Settles O32: the raw stream either was seen to expand to its input or is the stored stream, which does (R287, R288). -/
theorem compressedStreamsExpandToTheirInput : Obligations.CompressedStreamsExpandToTheirInput :=
  fun level fixed bs => ⟨by rw [deflate_raw]; exact inflate_deflateRaw level fixed bs, fun wrapper => deflate_length_le wrapper level fixed bs⟩

end Sys2Proof

/-! SUPPORT. Chapter 13: the Sundial as a count of 2^-32 ns, which one tick moves by the increment, and its seconds at their end (R343,
R550). -/
namespace Sys2Proof.Machine

theorem sunSecond_eq : sunSecond = 4294967296000000000 := rfl

/-! ### One tick on seconds, nanoseconds and fraction (R343) -/

/-- One tick: the increment is added to nanoseconds and fraction, and a full second carries. -/
def sunTick (increment : Nat) (x : Nat × Nat × Nat) : Nat × Nat × Nat :=
  let f := x.2.1 * 2 ^ 32 + x.2.2 + increment
  if sunSecond ≤ f then (x.1 + 1, (f - sunSecond) / 2 ^ 32, (f - sunSecond) % 2 ^ 32) else (x.1, f / 2 ^ 32, f % 2 ^ 32)

/-- A count of 2^-32 ns as seconds, nanoseconds and fraction. -/
def sunParts (total : Nat) : Nat × Nat × Nat := ((secNs (total / 2 ^ 32)).1, (secNs (total / 2 ^ 32)).2, total % 2 ^ 32)

/-- Seconds, nanoseconds and fraction as a count of 2^-32 ns. -/
def sunCount (s ns frac : Nat) : Nat := (s * 1000000000 + ns) * 2 ^ 32 + frac

theorem sunParts_sunCount {s ns frac : Nat} (hns : ns < 1000000000) (hfrac : frac < 2 ^ 32) : sunParts (sunCount s ns frac) = (s, ns, frac) := by
  have hhigh : sunCount s ns frac / 2 ^ 32 = s * 1000000000 + ns := by simp only [sunCount]; omega
  have hlow : sunCount s ns frac % 2 ^ 32 = frac := by simp only [sunCount]; omega
  have hsec : (s * 1000000000 + ns) / 1000000000 = s := by omega
  have hrest : (s * 1000000000 + ns) % 1000000000 = ns := by omega
  rw [sunParts, hhigh, hlow, secNs, hsec, hrest]

/-- A tick adds the increment to the count. -/
theorem sunTick_sunParts {increment : Nat} (h : increment ≤ sunSecond) (total : Nat) :
    sunTick increment (sunParts total) = sunParts (total + increment) := by
  have hsub : total / 2 ^ 32 % 1000000000 * 2 ^ 32 + total % 2 ^ 32 = total % sunSecond := by rw [sunSecond_eq]; omega
  have hseconds : total / 2 ^ 32 / 1000000000 = total / sunSecond := by rw [sunSecond_eq]; omega
  have hnext := Nat.div_add_mod total sunSecond
  have hbelow := Nat.mod_lt total (show 0 < sunSecond by decide)
  simp only [sunTick, sunParts, secNs, hsub, hseconds]
  rw [sunSecond_eq] at *
  split <;> simp only [Prod.mk.injEq] <;> omega

theorem repeat_sunTick {increment : Nat} (h : increment ≤ sunSecond) (n total : Nat) :
    Nat.repeat (sunTick increment) n (sunParts total) = sunParts (total + n * increment) := by
  induction n with
  | zero => simp [Nat.repeat]
  | succ n ih => rw [Nat.repeat, ih, sunTick_sunParts h, Nat.succ_mul, Nat.add_assoc]

/-! ### Seconds at their end (R550) -/

theorem sunClamp_of_lt {total : Nat} (h : total < 2 ^ 48 * sunSecond) : sunClamp total = total :=
  if_pos (Nat.div_lt_of_lt_mul (by rwa [Nat.mul_comm]))

theorem sunClamp_of_le {total : Nat} (h : 2 ^ 48 * sunSecond ≤ total) : sunClamp total = (2 ^ 48 - 1) * sunSecond + total % sunSecond :=
  if_neg (Nat.not_lt.2 ((Nat.le_div_iff_mul_le (by decide)).2 h))

/-- The seconds of the Sundial stop at all ones of 48 bits. -/
theorem sunClamp_div (total : Nat) : sunClamp total / sunSecond = min (total / sunSecond) (2 ^ 48 - 1) := by
  rcases Nat.lt_or_ge total (2 ^ 48 * sunSecond) with h | h
  · rw [sunClamp_of_lt h]; simp only [sunSecond] at h ⊢; omega
  · rw [sunClamp_of_le h]; simp only [sunSecond] at h ⊢; omega

theorem sunClamp_mono {a b : Nat} (h : a ≤ b) : sunClamp a / sunSecond ≤ sunClamp b / sunSecond := by
  rw [sunClamp_div, sunClamp_div]
  exact min_le_min_right _ (Nat.div_le_div_right h)

/-- Below its end the reading is the count itself. -/
theorem sunClamp_eq_of_div_lt {total : Nat} (h : sunClamp total / sunSecond < 2 ^ 48 - 1) : sunClamp total = total := by
  rw [sunClamp_div] at h
  exact if_pos (by simp only [sunSecond] at h ⊢; omega)

/-- What the Sundial has counted at an instant, before its seconds are kept to 48 bits. -/
def Sundial.counted (x : Sundial) (t : Nat) : Nat := sunCount x.s x.ns x.frac + (t - x.at_) / 4 * x.increment

theorem sunTotal_eq (x : Sundial) (t : Nat) : sunTotal x t = sunClamp (x.counted t) := rfl

theorem Sundial.counted_mono (x : Sundial) {t t' : Nat} (h : t ≤ t') : x.counted t ≤ x.counted t' :=
  Nat.add_le_add_left (Nat.mul_le_mul_right _ (Nat.div_le_div_right (Nat.sub_le_sub_right h _))) _

theorem Sundial.counted_ticks (x : Sundial) (n : Nat) : x.counted (x.at_ + 4 * n) = sunCount x.s x.ns x.frac + n * x.increment := by
  rw [Sundial.counted, Nat.add_sub_cancel_left, Nat.mul_div_cancel_left n (by decide)]

/-- The seconds never fall, and before their end the reading does not either. -/
theorem sunTotal_mono (x : Sundial) {t t' : Nat} (h : t ≤ t') :
    sunTotal x t / sunSecond ≤ sunTotal x t' / sunSecond ∧
      (sunTotal x t' / sunSecond < 2 ^ 48 - 1 → sunTotal x t ≤ sunTotal x t') := by
  have hseconds := sunClamp_mono (x.counted_mono h)
  refine ⟨hseconds, fun hend => ?_⟩
  rw [sunTotal_eq, sunTotal_eq, sunClamp_eq_of_div_lt (total := x.counted t') hend, sunClamp_eq_of_div_lt (hseconds.trans_lt hend)]
  exact x.counted_mono h

end Sys2Proof.Machine

namespace Sys2Proof
open Sys2Proof.Machine

/-- Settles O31: a tick adds the increment to the count of 2^-32 ns, and the count only grows (R343, R550). -/
theorem theSundialCountsTicks : Obligations.TheSundialCountsTicks := by
  intro x hns hfrac hinc
  refine ⟨fun n => ?_, fun t t' h => sunTotal_mono x h⟩
  have htotal : sunTotal x (x.at_ + 4 * n) = sunClamp (sunCount x.s x.ns x.frac + n * x.increment) := by rw [sunTotal_eq, x.counted_ticks]
  refine ⟨fun hlt => ?_, fun hle => htotal.trans (sunClamp_of_le hle), Nat.mod_lt _ (by decide)⟩
  rw [htotal, sunClamp_of_lt (total := sunCount x.s x.ns x.frac + n * x.increment) hlt]
  exact (congrArg _ (sunParts_sunCount hns hfrac).symm).trans (repeat_sunTick hinc n _)

end Sys2Proof

/-! SUPPORT. Memory and bytes: what a canonical memory reads after a write, fields read back where they were laid down (R10), the records
of a configuration image (R486), and the sizes of entries. -/
namespace Sys2Proof.Machine

/-! ### Reading a memory -/

/-- Below the first address of a memory every byte is blank. -/
theorem Mem.read_of_lt {m : Mem} {lo a : Nat} (hm : Mem.above lo m = true) (h : a < lo) : Mem.read m a = Mem.blank := by
  induction m generalizing lo with
  | nil => rfl
  | cons e m ih =>
    obtain ⟨k, v⟩ := e
    simp only [Mem.above, Bool.and_eq_true, decide_eq_true_eq] at hm
    obtain ⟨⟨hk, -⟩, htail⟩ := hm
    rw [Mem.read, if_neg (by omega), ih htail (by omega)]

theorem Mem.read_write_ne (m : Mem) {a k : Nat} (b : Byte) (h : k ≠ a) : (m.write a b).read k = m.read k := by
  induction m with
  | nil => simp only [Mem.write]; split <;> simp [Mem.read, h.symm]
  | cons e m ih =>
    obtain ⟨k', v⟩ := e
    simp only [Mem.write]
    split
    · split <;> simp [Mem.read, h.symm]
    · split
      case isTrue h' => subst h'; split <;> simp [Mem.read, h.symm]
      case isFalse => simp only [Mem.read, ih]

theorem Mem.read_write_self {m : Mem} {lo : Nat} (a : Nat) (b : Byte) (hm : Mem.above lo m = true) : (m.write a b).read a = b := by
  induction m generalizing lo with
  | nil => simp only [Mem.write]; split <;> simp_all [Mem.read]
  | cons e m ih =>
    obtain ⟨k, v⟩ := e
    have htail : Mem.above (k + 1) m = true := by
      simp only [Mem.above, Bool.and_eq_true] at hm
      exact hm.2
    simp only [Mem.write]
    split
    case isTrue hlt =>
      split
      case isTrue hb => rw [Mem.read, if_neg hlt.ne', Mem.read_of_lt htail (by omega), hb]
      case isFalse => simp [Mem.read]
    case isFalse hlt =>
      split
      case isTrue heq =>
        split
        case isTrue hb => rw [Mem.read_of_lt htail (by omega), hb]
        case isFalse => simp [Mem.read]
      case isFalse hne => rw [Mem.read, if_neg (Ne.symm hne), ih htail]

theorem Mem.read_writeBytes_outside (m : Mem) {a k : Nat} {bs : List Byte} (h : k < a ∨ a + bs.length ≤ k) :
    (m.writeBytes a bs).read k = m.read k := by
  induction bs generalizing m a with
  | nil => rfl
  | cons b bs ih =>
    rw [List.length_cons] at h
    rw [Mem.writeBytes, ih _ (by omega), Mem.read_write_ne m b (by omega)]

theorem Mem.read_writeBytes_inside {m : Mem} (a : Nat) {bs : List Byte} (hm : m.wf = true) {i : Nat} (h : i < bs.length) :
    (m.writeBytes a bs).read (a + i) = bs.getD i 0 := by
  induction bs generalizing m a i with
  | nil => exact absurd h (Nat.not_lt_zero i)
  | cons b bs ih =>
    rw [Mem.writeBytes]
    cases i with
    | zero => rw [Mem.read_writeBytes_outside _ (by omega), Nat.add_zero, Mem.read_write_self a b hm]; rfl
    | succ i => rw [show a + (i + 1) = a + 1 + i by omega, ih (a + 1) (Mem.write_wf a b hm) (Nat.lt_of_succ_lt_succ h)]; rfl

/-- The first address of a memory is the first that is not blank. -/
theorem Mem.head_le_of_read_eq {k k' lo : Nat} {v : Byte} {m n : Mem} (hm : Mem.above lo ((k, v) :: m) = true)
    (hn : Mem.above k' n = true) (h : Mem.read ((k, v) :: m) k = Mem.read n k) : k' ≤ k := by
  by_contra hlt
  have hv : v = Mem.blank := by rw [← Mem.read_of_lt hn (Nat.lt_of_not_le hlt), ← h, Mem.read, if_pos rfl]
  simp [Mem.above, hv] at hm

/-- Canonical memories that read alike are equal. -/
theorem Mem.eq_of_read_eq {m n : Mem} {lo : Nat} (hm : Mem.above lo m = true) (hn : Mem.above lo n = true)
    (h : ∀ a, Mem.read m a = Mem.read n a) : m = n := by
  induction m generalizing n lo with
  | nil =>
    cases n with
    | nil => rfl
    | cons e n =>
      have hend := Mem.head_le_of_read_eq (k' := e.1 + 1) hn (n := []) rfl (h e.1).symm
      omega
  | cons e m ih =>
    obtain ⟨k, v⟩ := e
    have hself (k' : Nat) (v' : Byte) (l : Mem) : Mem.above lo ((k', v') :: l) = true → Mem.above k' ((k', v') :: l) = true ∧ Mem.above (k' + 1) l = true := by
      simp only [Mem.above, Bool.and_eq_true, decide_eq_true_eq]
      exact fun ⟨⟨_, hv⟩, hl⟩ => ⟨⟨⟨Nat.le_refl _, hv⟩, hl⟩, hl⟩
    cases n with
    | nil =>
      have hend := Mem.head_le_of_read_eq (k' := k + 1) hm (n := []) rfl (h k)
      omega
    | cons e' n =>
      obtain ⟨k', v'⟩ := e'
      obtain rfl : k = k' := Nat.le_antisymm (Mem.head_le_of_read_eq hn (hself k v m hm).1 (h k').symm)
        (Mem.head_le_of_read_eq hm (hself k' v' n hn).1 (h k))
      obtain rfl : v = v' := by simpa [Mem.read] using h k
      have hrest (a : Nat) : Mem.read m a = Mem.read n a := by
        by_cases ha : k = a
        · subst ha; rw [Mem.read_of_lt (hself k v m hm).2 k.lt_succ_self, Mem.read_of_lt (hself k v n hn).2 k.lt_succ_self]
        · simpa only [Mem.read, if_neg ha] using h a
      rw [ih (hself k v m hm).2 (hself k v n hn).2 hrest]

/-! ### Little-endian fields (R10) -/

theorem le_getD {n i : Nat} (v : Nat) (h : i < n) : (le n v).getD i 0 = BitVec.ofNat 8 (v / 2 ^ (8 * i)) := by
  induction n generalizing v i with
  | zero => exact absurd h (Nat.not_lt_zero i)
  | succ n ih =>
    cases i with
    | zero => simp [le]
    | succ i =>
      rw [le, List.getD_cons_succ, ih _ (Nat.lt_of_succ_lt_succ h), Nat.div_div_eq_div_mul, Nat.mul_succ, pow_add, Nat.mul_comm]; rfl

theorem two_pow_eight_mul (n : Nat) : 2 ^ (8 * n) = 256 ^ n := by rw [pow_mul]; rfl

theorem rd_le {n v : Nat} (pre post : List Byte) (h : v < 2 ^ (8 * n)) : rd (pre ++ le n v ++ post) pre.length n = v :=
  rd_le_of_split (List.append_assoc ..) rfl (by rwa [← two_pow_eight_mul])

/-- A number of n bytes is told by its residue, the negative ones by the upper half. -/
theorem rdS_leS {n : Nat} {v : Int} (pre post : List Byte) (hn : 0 < n) (hlo : -(2 ^ (8 * n - 1) : Int) ≤ v) (hhi : v < (2 ^ (8 * n - 1) : Int)) :
    rdS (pre ++ leS n v ++ post) pre.length n = v := by
  have hpow : (2 : Int) ^ (8 * n) = 2 * 2 ^ (8 * n - 1) := by rw [← pow_succ', Nat.sub_add_cancel (by omega)]
  have hpos : (0 : Int) < 2 ^ (8 * n - 1) := by positivity
  have hcast : ((2 ^ (8 * n - 1) : Nat) : Int) = 2 ^ (8 * n - 1) := by push_cast; rfl
  have hres : (v % 2 ^ (8 * n)).toNat < 2 ^ (8 * n) := by
    have := Int.emod_lt_of_pos v (show (0 : Int) < 2 ^ (8 * n) by positivity)
    zify; rw [Int.toNat_of_nonneg (Int.emod_nonneg _ (by positivity))]; exact this
  simp only [rdS, leS, rd_le pre post hres]
  rw [← hcast] at hpow hpos hlo hhi
  rw [hpow]
  generalize 2 ^ (8 * n - 1) = half at *
  rcases lt_or_ge v 0 with hneg | hnonneg
  · have hmod : v % (2 * (half : Int)) = v + 2 * half := by
      rw [← Int.add_emod_right, Int.emod_eq_of_lt (by omega) (by omega)]
    rw [hmod, if_neg (by omega)]; omega
  · rw [Int.emod_eq_of_lt hnonneg (by omega), if_pos (by omega)]; omega

/-! ### Records of an image (R486) -/

theorem imageRecordBytes_length (r : ImageRecord) : (imageRecordBytes r).length = 8 + 8 * ceilDiv r.2.length 8 := by
  simp only [imageRecordBytes, List.length_append, le_length, zeros_length, ceilDiv]
  split
  · contradiction
  · omega

theorem readRecords_cons {r : ImageRecord} (hcode : r.1 < 65536) (hlen : r.2.length < 65536) (n : Nat) (bs : List Byte) :
    readRecords (n + 1) (imageRecordBytes r ++ bs) = (readRecords n bs).map (r :: ·) := by
  have hlength : rd (imageRecordBytes r ++ bs) 2 2 = r.2.length :=
    rd_le_of_split (pre := le 2 r.1) (by simp only [imageRecordBytes, List.append_assoc]; rfl) (le_length 2 r.1) hlen
  have hnumber : rd (imageRecordBytes r ++ bs) 0 2 = r.1 :=
    rd_le_of_split (pre := []) (by simp only [imageRecordBytes, List.append_assoc]; rfl) rfl hcode
  have hpayload : ((imageRecordBytes r ++ bs).drop 8).take r.2.length = r.2 := by
    have hsplit : imageRecordBytes r ++ bs = (le 2 r.1 ++ le 2 r.2.length ++ zeros 4) ++ (r.2 ++ (zeros ((8 - r.2.length % 8) % 8) ++ bs)) := by
      simp only [imageRecordBytes, List.append_assoc]
    rw [hsplit, List.drop_left' (by simp), List.take_left' rfl]
  have hroom : ¬ (imageRecordBytes r ++ bs).length < (imageRecordBytes r).length := by simp
  simp only [readRecords, hlength, hnumber, hpayload]
  rw [← imageRecordBytes_length, if_neg hroom, List.drop_left' rfl]

/-! ### Sizes of records (R197, R199) -/

/-- The two kinds of record lay the centre of a blob, or nothing, into a field of one width. -/
theorem recordBytes_length (k : Closed) (g : Geometry) (r : RecordInfo) : (recordBytes k g r).length = 128 := by
  have hcentre (v : Int) : (if k.dense then zeros 4 else leS 4 v).length = 4 := by split <;> simp
  have hplanes : (k.blob.planeCount.toList.flatMap fun n => le 2 (satU 16 n)).length = 16 := by simp [List.length_flatMap]
  unfold recordBytes
  simp only [timeBytes, List.length_append, le_length, leS_length, hcentre, hplanes]

end Sys2Proof.Machine

namespace Sys2Proof
open Sys2Proof.Machine

/-- Settles O4: byte by byte, and by the first address where two canonical memories could differ. -/
theorem memoryReadsBackWhatIsWritten : Obligations.MemoryReadsBackWhatIsWritten :=
  ⟨fun m a bs hm => ⟨Mem.writeBytes_wf a bs hm, fun _ => Mem.read_writeBytes_inside a hm, fun _ => Mem.read_writeBytes_outside m⟩,
    fun _ _ hm hn => Mem.eq_of_read_eq hm hn⟩

/-- Settles O5 (R10). -/
theorem fieldsReadBackLittleEndian : Obligations.FieldsReadBackLittleEndian :=
  ⟨fun n v _ h => ⟨le_getD v h, le_length n v⟩, fun pre post _ _ => rd_le pre post, fun pre post _ _ => rdS_leS pre post⟩

/-- Settles O6: by induction on the records, each of which is read off the front (R486). -/
theorem imageRecordsReadBack : Obligations.ImageRecordsReadBack := by
  intro rs hrs
  induction rs with
  | nil => rfl
  | cons r rs ih =>
    obtain ⟨hcode, hlen⟩ := hrs r List.mem_cons_self
    rw [List.flatMap_cons, List.length_cons, readRecords_cons hcode hlen, ih fun x hx => hrs x (List.mem_cons_of_mem r hx)]
    rfl

/-- Settles O7: the widths of the fields of each entry add up to its size. -/
theorem entriesHaveTheirStatedSizes : Obligations.EntriesHaveTheirStatedSizes := by
  refine ⟨?events, ?records, ?gaps, ?chains, ?audits, ?journal, ?captures, ?missed⟩
  case records => exact recordBytes_length
  case gaps =>
    intro r h
    simp only [gapBytes, List.length_append, List.length_take, List.length_drop, le_length, zeros_length, h]; rfl
  case events => simp [eventBytes, timeBytes]
  case chains => simp [chainBytes]
  case audits => simp [auditBytes, timeBytes]
  case journal => simp [journalBytes, timeBytes]
  case captures => simp [captureBytes, timeBytes]
  case missed => simp [missedBytes]

end Sys2Proof

/-! SUPPORT. What a native command does with a request that passes its checks, row by row: where the command's function is its checks and
then its effect that is all there is to say; the commands with two forms, or with a read of the configuration area, have a lemma each. -/
namespace Sys2Proof.Machine

/-- A row whose command answers every accepted request with an effect carries the command out. -/
theorem Runs.of_reply {code : Nat} {row : Nat → Fin 8 → Instr} {accepts : Env → Job → Chip → Bool} {effect f : Env → Job → Chip → Reply}
    (hrow : ∀ t mb s, exec (row t mb) s = .next (s.command code t mb f))
    (hf : ∀ env j c, accepts env j c = true → f env j c = effect env j c) : Runs code row accepts effect := by
  intro s t mb j hs ha
  rw [hrow, State.command_of_holds hs, hf _ _ _ ha]

/-- A row whose command is its checks and then its effect carries out every request that passes them. -/
theorem Runs.of_checked {code : Nat} {row : Nat → Fin 8 → Instr} {ks : Env → Job → Chip → List Check} {effect : Env → Job → Chip → Reply}
    (hrow : ∀ t mb s, exec (row t mb) s = .next (s.command code t mb fun env j c => checked (ks env j c) c (effect env j c))) :
    Runs code row (fun env j c => passes (ks env j c)) effect :=
  .of_reply hrow fun _ _ _ h => checked_of_passes h _ _

/-- A command on an entry of a transaction, or on the device where it names none (R302): accepted in either form, it stages or acts. -/
theorem ite_stage_of_passes {code : Nat} {j : Job} {c : Chip} {later now : List Check} {effect : Reply}
    (hlater : rd j.payload 0 4 ≠ 0 →
      passes (later ++ stagingChecks c (rd j.payload 0 4) [{ code, payload := j.payload.drop 4 }] 1) = true)
    (hnow : rd j.payload 0 4 = 0 → passes now = true) :
    (if rd j.payload 0 4 ≠ 0 then stage code later j c else checked now c effect) =
      if rd j.payload 0 4 ≠ 0 then
        reply stOk (modTx (rd j.payload 0 4) (fun x => { x with entries := x.entries ++ [{ code, payload := j.payload.drop 4 }] }) c)
      else effect := by
  split
  case isTrue hid => exact checked_of_passes (hlater hid) _ _
  case isFalse hid => exact checked_of_passes (hnow (not_not.1 hid)) _ _

@[simp] theorem passes_nil : passes [] = true := rfl
@[simp] theorem passes_cons (k : Check) (ks : List Check) : passes (k :: ks) = (k.ok && passes ks) := rfl

/-! ### Commands that take effect now, or as an entry of a transaction (R302) -/

section
variable {env : Env} {j : Job} {c : Chip}

theorem axisMove_of_accepts (h : acceptsAxisMove env j c = true) : axisMove env j c =
    let p := j.payload
    if rd p 0 4 ≠ 0 then reply stOk (modTx (rd p 0 4) (fun x => { x with entries := x.entries ++ [{ code := 0x0B02, payload := p.drop 4 }] }) c)
    else
      let k := rd p 4 1
      let c := startMove k (p.drop 4) c
      replyBody (le 6 (vget c.axis k).arrivalS ++ le 4 (vget c.axis k).arrivalNs ++ zeros 2) c := by
  simp only [acceptsAxisMove, Bool.and_eq_true] at h
  refine ite_stage_of_passes (fun hid => ?_) (fun hid => ?_)
  · rw [beq_eq_false_iff_ne.2 hid, if_pos hid] at h
    simpa [passes_append, and_assoc] using h
  · rw [beq_iff_eq.2 hid, if_neg (not_not.2 hid)] at h
    simpa [passes_append, and_assoc] using h

theorem pulseSchedule_of_accepts (h : acceptsPulseSchedule env j c = true) : pulseSchedule env j c =
    let p := j.payload
    if rd p 0 4 ≠ 0 then reply stOk (modTx (rd p 0 4) (fun x => { x with entries := x.entries ++ [{ code := 0x0A05, payload := p.drop 4 }] }) c)
    else
      let o := rd p 4 1
      let c := programPulse o (pulseOf (p.drop 4)) c
      replyBody ((pulseEntry (vget c.time.pulse o) c).1.take 1 ++ zeros 3) c := by
  simp only [acceptsPulseSchedule, Bool.and_eq_true] at h
  refine ite_stage_of_passes (fun hid => ?_) (fun hid => ?_)
  · rw [beq_eq_false_iff_ne.2 hid, if_pos hid] at h
    simpa [passes_append, and_assoc] using h
  · rw [beq_iff_eq.2 hid, if_neg (not_not.2 hid)] at h
    simpa [passes_append, and_assoc] using h

theorem auxSwapBank_of_accepts (h : acceptsAuxSwapBank env j c = true) : auxSwapBank env j c =
    let p := j.payload
    let a := vget c.aux.ch (rd p 4 1)
    if rd p 0 4 ≠ 0 then reply stOk (modTx (rd p 0 4) (fun x => { x with entries := x.entries ++ [{ code := 0x0C02, payload := p.drop 4 }] }) c)
    else replyBody (le 1 (b2n (a.fading || a.swapNext.isSome)) ++ zeros 3) (auxSwapApply (p.drop 4) c) := by
  simp only [acceptsAuxSwapBank, Bool.and_eq_true] at h
  refine ite_stage_of_passes (fun hid => ?_) (fun hid => ?_)
  · rw [beq_eq_false_iff_ne.2 hid, if_pos hid] at h
    simpa [passes_append, and_assoc] using h
  · rw [beq_iff_eq.2 hid, if_neg (not_not.2 hid)] at h
    simpa [passes_append, and_assoc] using h

theorem auxLoadCoeffs_of_accepts (h : acceptsAuxLoadCoeffs env j c = true) : auxLoadCoeffs env j c =
    let p := j.payload
    let a := vget c.aux.ch (rd p 4 1)
    let body (bank : Nat) : List Byte := le 1 bank ++ zeros 3 ++ delayFields (a.groupDelay (bankOf (p.drop 4)))
    if rd p 0 4 ≠ 0 then
      { reply stOk (modTx (rd p 0 4) (fun x => { x with entries := x.entries ++ [{ code := 0x0C01, payload := p.drop 4 }] }) c) with body := body 0xFF }
    else replyBody (body (1 - a.current)) (auxLoadApply (p.drop 4) c) := by
  simp only [acceptsAuxLoadCoeffs, Bool.and_eq_true] at h
  by_cases hid : rd j.payload 0 4 ≠ 0
  · rw [beq_eq_false_iff_ne.2 hid, if_pos hid] at h
    have hstaged : stage 0x0C01 (lenOk (j.payload.length == 8 + 4 * rd j.payload 6 2) :: auxLoadFields false j.payload) j c = _ :=
      checked_of_passes (by simpa [passes_append, and_assoc] using h) _ _
    simp only [auxLoadCoeffs, if_pos hid, hstaged]
    rfl
  · rw [beq_iff_eq.2 (not_not.1 hid), if_neg hid] at h
    simp only [auxLoadCoeffs, if_neg hid]
    exact checked_of_passes (by simpa [passes_append, and_assoc] using h) _ _

/-! ### Commands with several forms or a rule of their own -/

theorem ptpConfigure_of_accepts (h : acceptsPtpConfigure env j c = true) :
    ptpConfigure env j c = reply stOk (if rd j.payload 0 1 = 0 then ptpClockApply j.payload c else ptpPortApply j.payload c) := by
  simp only [acceptsPtpConfigure] at h
  by_cases hitem : rd j.payload 0 1 = 0
  · rw [if_pos hitem] at h
    simp only [ptpConfigure, if_pos hitem]
    exact checked_of_passes h _ _
  · rw [if_neg hitem] at h
    simp only [ptpConfigure, if_neg hitem]
    exact checked_of_passes h _ _

theorem auxConfigure_of_accepts (h : acceptsAuxConfigure env j c = true) : auxConfigure env j c =
    let p := j.payload
    if rd p 0 1 = 1 then auxChannel p c
    else if rd p 0 1 = 2 then
      reply stOk ((setBits 8 (rd p 4 1)).foldl (fun c k => if (vget c.aux.ch k).enable then auxSuppress k 2 c else c) c)
    else
      let enable := bit (rd p 4 1) 0
      let old := c.aux.ring
      let new : Ring := {
        channel := rd p 5 1, irqCount := rd p 6 2, irqHoldoffUs := rd p 8 2, entryCount := rd p 12 4, entrySize := 32, base := rd p 16 8, headAddr := rd p 24 8 }
      reply stOk (ringChannel old enable new 7 { c with aux := { c.aux with ring := old.change enable new } }) := by
  simp only [acceptsAuxConfigure, Bool.and_eq_true] at h
  obtain ⟨hstart, hitem⟩ := h
  have hboth {ks : List Check} (hks : passes ks = true) : passes ([lenIs 32 j, inRange j.payload 0 1 0 2] ++ ks) = true := by
    rw [passes_append, hstart, hks]; rfl
  by_cases h1 : rd j.payload 0 1 = 1
  · rw [if_pos h1] at hitem
    simp only [auxConfigure, if_pos h1]
    exact checked_of_passes (hboth hitem) _ _
  · by_cases h2 : rd j.payload 0 1 = 2
    · rw [if_neg h1, if_pos h2] at hitem
      simp only [auxConfigure, if_neg h1, if_pos h2]
      exact checked_of_passes (hboth hitem) _ _
    · rw [if_neg h1, if_neg h2] at hitem
      simp only [auxConfigure, if_neg h1, if_neg h2]
      exact checked_of_passes (hboth hitem) _ _

theorem setMode_of_accepts (h : acceptsSysSetMode env j c = true) : setMode env j c =
    let old := c.modes.base
    let b := (baseOf (rd j.payload 0 1)).getD old
    let c := if old = .configure ∧ b.triggers then checkMaps c else c
    if b = old then replyBody (modeBody c) c
    else if old = .standby then replyLater (modModes (fun m => { m with change := .selfTest env.mb }) c)
    else if old.triggers && !b.triggers then replyLater (startDrain b env.mb c)
    else
      let c := reportMode (if b = .standby then enterStandby c else enterTriggering b c)
      replyBody (modeBody c) c := by
  simp only [acceptsSysSetMode] at h
  cases hb : baseOf (rd j.payload 0 1) with
  | none => simp [hb] at h
  | some b =>
    simp only [hb] at h
    rw [passes_cons, passes_cons, ← Bool.and_assoc, Bool.and_eq_true] at h
    obtain ⟨hfields, hrules⟩ := h
    simp only [setMode, hb, Option.getD_some]
    rw [checked_of_passes (by simpa using hfields)]
    exact checked_of_passes hrules _ _

/-- A commit of an open transaction is answered with the transaction in its body (R305). -/
theorem ledgerCommit_of_accepts (h : acceptsLedgerCommit env j c = true) : ledgerCommit env j c =
    let p := j.payload
    match openTx c (rd p 0 4) with
    | some x => withOpenBody (commitTx x (rd p 4 1) (rd p 8 8) (rd p 16 6) (rd p 22 4) c)
    | none => reply stBadState c := by
  simp only [acceptsLedgerCommit, passes_cons, passes_nil, Bool.and_true, ← Bool.and_assoc] at h
  rw [Bool.and_eq_true] at h
  obtain ⟨hchecks, hopen⟩ := h
  obtain ⟨x, hx⟩ := Option.isSome_iff_exists.1 hopen
  simp only [ledgerCommit, hx]
  rw [checked_of_passes (by simpa only [passes_cons, passes_nil, Bool.and_true, ← Bool.and_assoc] using hchecks)]

/-- A read of the configuration area that meets an error comes before the effect (R431). -/
theorem Runs.withArea {code : Nat} {row : Nat → Fin 8 → Instr} {accepts : Env → Job → Chip → Bool} {f : Env → Job → Chip → Reply}
    {e : ReadError} (hrow : ∀ t mb s, exec (row t mb) s = .next (s.command code t mb (withArea (some e) f))) :
    Runs code row accepts fun env j c =>
      let r := f env j c
      let c := takeRead false 0xFFFF { e with hit := .area } c
      if r.status ≠ stOk ∧ r.status ≠ stPending then r else if readFails e then reply stHwFault c else f env j c :=
  .of_reply hrow fun _ _ _ _ => rfl

/-- Firmware is staged from the bulk window, or chunk by chunk behind what is held (R481). -/
theorem fwStage_of_accepts (h : acceptsSysFwStage env j c = true) : fwStage env j c =
    let p := j.payload
    let x := (c.fw.stage.map fun x => (x.data, x.length)).getD ([], 0)
    let before := if bit (rd p 1 1) 0 then [] else x.1
    let size := if bit (rd p 1 1) 0 then rd p 8 4 else x.2
    if rd p 0 1 = 0 then
      let image := env.bulk.readBytes (rd p 4 4) (rd p 8 4)
      stageEnds image (stageWrite image c)
    else
      let data := sliceB p 16 (rd p 2 2)
      let c := stageWrite data c
      if bit (rd p 1 1) 1 then stageEnds (before ++ data) c
      else replyBody (stageBody (before ++ data).length (stageBank c) 0 0)
        (modFw (fun f => { f with stage := some { mb := env.mb % 8, length := size, data := before ++ data } }) c) := by
  have hchecks := ((Bool.and_eq_true _ _).mp h).2
  have hkind : rd j.payload 0 1 ≤ 1 := by
    have hall := List.all_eq_true.1 hchecks (inRange j.payload 0 1 0 1) (by simp)
    simpa [inRange, param] using hall
  refine (checked_of_passes hchecks _ _).trans ?_
  have hchunks : (!(rd j.payload 0 1 == 1)) = true ↔ rd j.payload 0 1 = 0 := by simp; omega
  simp only [hchunks]
  cases c.fw.stage <;> rfl

/-- Staging firmware waits for the end of a supply hold (R503). -/
theorem exec_sysFwStage_of_unheld {t : Nat} {mb : Fin 8} {s : State} (h : s.chip.supply.held = false) :
    exec (.sysFwStage t mb) s = .next (s.command 0x0105 t mb fwStage) := by
  have hheld : (s.tick t).supply.held = false := h
  simp only [exec_sysFwStage, hheld]
  rfl

end

/-- A request to stage firmware that passes its checks finds no supply hold. -/
theorem sysFwStage_runs {effect : Env → Job → Chip → Reply}
    (heffect : ∀ env j c, acceptsSysFwStage env j c = true → fwStage env j c = effect env j c) :
    Runs 0x0105 .sysFwStage acceptsSysFwStage effect := by
  intro s t mb j hs ha
  have hheld : (!(s.tick t).supply.held) = true := ((Bool.and_eq_true _ _).mp ha).1
  rw [exec_sysFwStage_of_unheld ((Bool.not_eq_true' _).mp hheld), State.command_of_holds hs, heffect _ _ _ ha]

end Sys2Proof.Machine

namespace Sys2Proof
open Sys2Proof.Machine

/-- Settles O33: checks, then effect, for each command of the encoders and the line trigger. -/
theorem webCommandsRun : Obligations.WebCommandsRun :=
  ⟨.of_checked exec_encConfigure, .of_checked exec_encGetState, .of_checked exec_trigConfigure, .of_checked exec_trigSetPitch,
    .of_checked exec_webSetGeometry⟩

/-- Settles O34: checks, then effect, for each command of the ports, lanes and virtual cameras. -/
theorem portCommandsRun : Obligations.PortCommandsRun :=
  ⟨.of_checked exec_portDiscover, .of_checked exec_portConfigure, .of_checked exec_portReadCameraReg, .of_checked exec_portWriteCameraReg,
    fun seen => .of_checked fun t mb => exec_portGetLinkQuality t mb seen, .of_checked exec_laneMap, .of_checked exec_laneGetStatus,
    .of_checked exec_vcamConfigure⟩

/-- Settles O35: checks, then effect; CAL_GET_RESULT with a read error besides (R431). -/
theorem calibrationCommandsRun : Obligations.CalibrationCommandsRun :=
  ⟨.of_checked exec_calFlatField, .of_checked exec_calGeometry, .of_checked fun t mb => exec_calGetResult t mb none,
    fun e => .withArea fun t mb => exec_calGetResult t mb (some e), .of_checked exec_calAux, .of_checked exec_calLinks⟩

/-- Settles O36: checks, then the entry joins; PIPE_LOAD_CLASSIFIER has released a model first (R226). -/
theorem pipelineCommandsRun : Obligations.PipelineCommandsRun :=
  ⟨.of_checked exec_pipeSetCorrection, .of_checked exec_pipeSetStitch, .of_checked exec_pipeSetReference,
    .of_checked exec_pipeSetDetection, .of_checked exec_pipeSetFilters, .of_checked exec_pipeSetLabelling, .of_checked exec_pipeSetTiles,
    .of_reply exec_pipeLoadClassifier fun _ _ _ h => checked_of_passes h _ _, .of_checked exec_pipeSetRecurrence⟩

/-- Settles O37: checks, then effect, for each command of the rings, the counters and the Orangery. -/
theorem outputAndHistoryCommandsRun : Obligations.OutputAndHistoryCommandsRun :=
  ⟨.of_checked exec_outSetRecordRing, .of_checked exec_outSetTileRing, .of_checked exec_outGetStats, .of_checked exec_lookbackConfigure,
    .of_checked exec_lookbackRetrieve, .of_checked exec_lookbackReplay, .of_checked exec_lookbackPin, .of_checked exec_lookbackStatus⟩

/-- Settles O38: checks, then effect, for each command of the views and the compression engines. -/
theorem viewAndCompressionCommandsRun : Obligations.ViewAndCompressionCommandsRun :=
  ⟨.of_checked exec_viewConfigure, .of_checked exec_viewStreamStart, .of_checked exec_viewStreamStop, .of_checked exec_zipSubmit,
    .of_checked exec_zipStatus, .of_checked exec_zipCancel⟩

/-- Settles O39: checks, then effect; a commit finds its transaction open, and a move is staged or starts. -/
theorem ledgerAndMotionCommandsRun : Obligations.LedgerAndMotionCommandsRun :=
  ⟨.of_checked exec_ledgerOpen, .of_reply (fun t mb => exec_ledgerCommit t mb none) fun _ _ _ => ledgerCommit_of_accepts,
    fun e => .withArea fun t mb => exec_ledgerCommit t mb (some e), .of_checked exec_ledgerAbort, .of_checked exec_ledgerStatus,
    .of_checked exec_axisConfigure, .of_checked exec_axisHome, .of_reply exec_axisMove fun _ _ _ => axisMove_of_accepts,
    .of_checked exec_axisStop, .of_checked exec_axisStatus, .of_checked exec_markConfigure⟩

/-- Settles O40: checks, then effect; PTP_CONFIGURE by its item, and a pulse is staged or programmed. -/
theorem timeCommandsRun : Obligations.TimeCommandsRun :=
  ⟨.of_checked exec_timeGet, .of_checked exec_timeSet, .of_reply exec_ptpConfigure fun _ _ _ => ptpConfigure_of_accepts,
    .of_checked exec_ptpStatus, .of_checked exec_servoConfigure, .of_reply exec_pulseSchedule fun _ _ _ => pulseSchedule_of_accepts,
    .of_checked exec_pulseCancel, .of_checked exec_captureConfigure⟩

/-- Settles O41: checks, then effect; the auxiliary commands by their item or as an entry. -/
theorem auxiliaryAndGangCommandsRun : Obligations.AuxiliaryAndGangCommandsRun :=
  ⟨.of_reply exec_auxConfigure fun _ _ _ => auxConfigure_of_accepts, .of_reply exec_auxLoadCoeffs fun _ _ _ => auxLoadCoeffs_of_accepts,
    .of_reply exec_auxSwapBank fun _ _ _ => auxSwapBank_of_accepts, .of_checked exec_auxToneConfigure, .of_checked exec_auxRead,
    .of_checked exec_gangConfigure, .of_checked exec_gangStatus, .of_checked exec_dramStatus⟩

/-- Settles O42: checks, then effect, for each command of the event ring, health and the life record. -/
theorem eventAndHealthCommandsRun : Obligations.EventAndHealthCommandsRun :=
  ⟨.of_checked exec_sysSetEventRing, .of_checked exec_sysSetEventMask, .of_checked exec_healthStatus, .of_checked exec_thermalConfigure,
    .of_checked exec_thermalAckRequest, .of_checked exec_lifeRead, .of_checked exec_lifeSetCalendar⟩

/-- Settles O43: checks, then effect, for each command of security. -/
theorem securityCommandsRun : Obligations.SecurityCommandsRun :=
  ⟨.of_checked exec_secSessionOpen, .of_checked exec_secSessionClose, .of_checked exec_secFuseRead, .of_checked exec_secFuseWrite,
    .of_checked exec_secKeyLoad, .of_checked exec_secTamperConfigure, .of_checked exec_secUnlock⟩

/-- Settles O44: checks, then effect; SYS_SET_MODE, SYS_FW_STAGE and a read error in the configuration area apart. -/
theorem systemCommandsRun : Obligations.SystemCommandsRun :=
  ⟨.of_checked exec_sysGetInfo, .of_checked exec_sysGetCaps, .of_checked exec_sysGetMode,
    .of_reply exec_sysSetMode fun _ _ _ => setMode_of_accepts, .of_checked exec_sysResetSubsystem,
    sysFwStage_runs fun _ _ _ => fwStage_of_accepts, .of_checked exec_sysFwActivate,
    .of_checked fun t mb => exec_sysExportConfig t mb none, fun e => .withArea fun t mb => exec_sysExportConfig t mb (some e),
    .of_checked exec_sysImportConfig⟩

end Sys2Proof

/-! SUPPORT. Chapter 18: the fields of an answer where a host reads them (R466, R468), the copy kept for a repeat (R469), what a doorbell
does with a command it does not take on (R472), and what a command does with a request it refuses (R472, R500). -/
namespace Sys2Proof.Machine

/-! ### Bits put -/

theorem bit_eq_testBit (x i : Nat) : bit x i = x.testBit i := by
  rw [bit, Nat.testBit_eq_decide_div_mod_eq, beq_eq_decide]

/-- Adding a clear bit sets it and leaves every other. -/
theorem bit_add_two_pow {x i : Nat} (h : bit x i = false) (k : Nat) : bit (x + 2 ^ i) k = if k = i then true else bit x k := by
  rcases Nat.lt_trichotomy k i with hlt | rfl | hgt
  · rw [if_neg hlt.ne, bit_eq_testBit, bit_eq_testBit, Nat.add_comm, Nat.testBit_two_pow_add_gt hlt]
  · rw [if_pos rfl, bit_eq_testBit, Nat.add_comm, Nat.testBit_two_pow_add_eq, ← bit_eq_testBit, h]; rfl
  · obtain ⟨l, rfl⟩ : ∃ l, k = i + 1 + l := ⟨k - (i + 1), by omega⟩
    have heven : x / 2 ^ i % 2 = 0 := by simpa [bit] using h
    have hcarry : (x + 2 ^ i) / 2 ^ (i + 1) = x / 2 ^ (i + 1) := by
      rw [pow_succ, ← Nat.div_div_eq_div_mul, ← Nat.div_div_eq_div_mul, Nat.add_div_right x (Nat.two_pow_pos i)]; omega
    rw [if_neg (by omega), bit, bit, pow_add, ← Nat.div_div_eq_div_mul, ← Nat.div_div_eq_div_mul, hcarry]

theorem bit_setBit (x i : Nat) (b : Bool) (k : Nat) : bit (setBit x i b) k = if k = i then b else bit x k := by
  simp only [setBit]
  split
  case isTrue hsame =>
    split
    · subst k; simpa using hsame
    · rfl
  case isFalse hdiff =>
    cases b with
    | true => exact bit_add_two_pow (by simpa using hdiff) k
    | false =>
      have hset : bit x i = true := by simpa using hdiff
      have hle : 2 ^ i ≤ x := by
        by_contra hlt
        simp [bit, Nat.div_eq_of_lt (Nat.lt_of_not_le hlt)] at hset
      have hclear : bit (x - 2 ^ i) i = false := by
        rw [← Nat.sub_add_cancel hle, bit_eq_testBit, Nat.add_comm, Nat.testBit_two_pow_add_eq, ← bit_eq_testBit] at hset
        simpa using hset
      have hback := bit_add_two_pow hclear k
      rw [Nat.sub_add_cancel hle] at hback
      simp only [Bool.false_eq_true, if_false]
      split
      · subst k; exact hclear
      · rw [hback, if_neg ‹_›]

/-! ### The fields of an answer (R466, R468) -/

section
variable {m : Mailbox} {sequence command status cls flags detail tag s ns : Nat} {body : List Byte}

theorem answerBytes_sequence (h : sequence < 65536) :
    rd (answerBytes m sequence command status cls flags detail tag s ns body) 0 2 = sequence :=
  rd_le_of_split (pre := sliceB (fit 4096 m.bytes) 0 0) (by simp only [answerBytes, putB, List.append_assoc]; rfl) (by simp) h

theorem answerBytes_command (h : command < 65536) :
    rd (answerBytes m sequence command status cls flags detail tag s ns body) 2 2 = command :=
  rd_le_of_split (pre := sliceB (fit 4096 m.bytes) 0 0 ++ le 2 sequence) (by simp only [answerBytes, putB, List.append_assoc]; rfl)
    (by simp) h

theorem answerBytes_length (h : body.length < 65536) :
    rd (answerBytes m sequence command status cls flags detail tag s ns body) 4 2 = body.length :=
  rd_le_of_split (pre := sliceB (fit 4096 m.bytes) 0 0 ++ le 2 sequence ++ le 2 command)
    (by simp only [answerBytes, putB, List.append_assoc]; rfl) (by simp) h

theorem answerBytes_class (h : cls < 256) : rd (answerBytes m sequence command status cls flags detail tag s ns body) 8 1 = cls :=
  rd_le_of_split (pre := sliceB (fit 4096 m.bytes) 0 0 ++ le 2 sequence ++ le 2 command ++ le 2 body.length ++ le 2 status)
    (by simp only [answerBytes, putB, List.append_assoc]; rfl) (by simp) h

theorem answerBytes_flags (h : flags < 256) : rd (answerBytes m sequence command status cls flags detail tag s ns body) 10 1 = flags :=
  rd_le_of_split
    (pre := sliceB (fit 4096 m.bytes) 0 0 ++ le 2 sequence ++ le 2 command ++ le 2 body.length ++ le 2 status ++ le 1 cls ++ [0])
    (by simp only [answerBytes, putB, List.append_assoc]; rfl) (by simp) h

theorem answerBytes_tag (h : tag < 2 ^ 32) : rd (answerBytes m sequence command status cls flags detail tag s ns body) 16 4 = tag :=
  rd_le_of_split
    (pre := sliceB (fit 4096 m.bytes) 0 0 ++ le 2 sequence ++ le 2 command ++ le 2 body.length ++ le 2 status ++ le 1 cls ++ [0] ++
      le 1 flags ++ [0] ++ le 2 detail ++ [0, 0])
    (by simp only [answerBytes, putB, List.append_assoc]; rfl) (by simp) h

theorem answerBytes_body : sliceB (answerBytes m sequence command status cls flags detail tag s ns body) 64 body.length = body := by
  let header := le 2 sequence ++ le 2 command ++ le 2 body.length ++ le 2 status ++ le 1 cls ++ [0] ++ le 1 flags ++ [0] ++
    le 2 detail ++ [0, 0] ++ le 4 tag ++ timeBytes s ns ++ zeros 34
  have hheader : header.length = 64 := by simp [header, timeBytes]
  have hsplit : answerBytes m sequence command status cls flags detail tag s ns body =
      header ++ (body ++ (fit 4096 m.bytes).drop (0 + (header ++ body).length)) := by
    simp only [answerBytes, putB, sliceB, header, List.append_assoc]; rfl
  rw [hsplit, sliceB, List.drop_left' hheader, List.take_left' rfl, Nat.sub_self]
  exact List.append_nil body

end

/-! ### An answer in its mailbox (R468, R469) -/

section
variable {mb : Nat} {c : Chip} {j : Job} {st d : Nat} {body : List Byte}

theorem answer_mbx (mb : Nat) (bs : List Byte) (c : Chip) : (answer mb bs c).mbx =
    { c.mbx with
      mb := vmod c.mbx.mb mb fun m => { m with bytes := bs, owner := false, job := none }
      response := setBit c.mbx.response mb true } := by
  simp only [answer, signalVector_mbx]

theorem answer_mb_self (hmb : mb < 8) (bs : List Byte) (c : Chip) :
    vget (answer mb bs c).mbx.mb mb = { vget c.mbx.mb mb with bytes := bs, owner := false, job := none } := by
  rw [answer_mbx, vget_vmod_self _ hmb]

theorem audit_mbx (mb st : Nat) (j : Job) (c : Chip) :
    (audit mb st j c).mbx = { c.mbx with audit := (audit mb st j c).mbx.audit } := by
  simp only [audit, satAdd_mbx]

theorem recordAnswer_response (m : Mailbox) : (recordAnswer mb m j st d body c).2.mbx.response = c.mbx.response := by
  have haudit : (if j.audited then audit mb (reportedStatus (j.rawCode != j.code) st d).1 j c else c).mbx.response = c.mbx.response := by
    split
    · rw [audit_mbx]
    · rfl
  simp only [recordAnswer]
  split <;> exact haudit

/-- An executed command is remembered with its answer, any other leaves what was remembered (R469). -/
theorem recordAnswer_mb_self (hmb : mb < 8) (m : Mailbox) :
    let r := recordAnswer mb m j st d body c
    vget r.2.mbx.mb mb = if executes st then
      { vget c.mbx.mb mb with lastSequence := some j.sequence, kept := r.1.take (64 + body.length) } else vget c.mbx.mb mb := by
  have haudit : (if j.audited then audit mb (reportedStatus (j.rawCode != j.code) st d).1 j c else c).mbx.mb = c.mbx.mb := by
    split
    · exact audit_mb ..
    · rfl
  simp only [recordAnswer]
  split
  · simp only [vget_vmod_self _ hmb, haudit]
  · rw [haudit]

/-- The bytes with which the command of a mailbox is answered, native or legacy (R468, R561). -/
def jobAnswer (m : Mailbox) (j : Job) (st d : Nat) (body : List Byte) (c : Chip) : List Byte :=
  let shown := reportedStatus (j.rawCode != j.code) st d
  answerBytes m j.sequence j.rawCode shown.1 j.cls (if j.audited then 2 else 0) shown.2 j.tag (clock c).1 (clock c).2 body

theorem jobAnswer_native (h : j.rawCode = j.code) (m : Mailbox) : jobAnswer m j st d body c =
    answerBytes m j.sequence j.code st j.cls (if j.audited then 2 else 0) d j.tag (clock c).1 (clock c).2 body := by
  simp only [jobAnswer, h, bne_self_eq_false]
  rfl

theorem recordAnswer_bytes (m : Mailbox) : (recordAnswer mb m j st d body c).1 = jobAnswer m j st d body c := rfl

theorem respond_of_restart (h : lodgeRestarts c = true) :
    respond mb st d body c = { c with mbx := { c.mbx with waiting := c.mbx.waiting ++ [(mb, st, d, body)] } } := if_pos h

/-- Outside a restart a mailbox that holds a command gets its answer. -/
theorem respond_of_job (hmb : mb < 8) (hj : (vget c.mbx.mb mb).job = some j) (h : lodgeRestarts c = false) :
    respond mb st d body c =
      answer mb (jobAnswer (vget c.mbx.mb mb) j st d body c) (recordAnswer mb (vget c.mbx.mb mb) j st d body c).2 := by
  simp only [respond, h, respondNow, if_neg (Nat.not_le.2 hmb), hj, ← recordAnswer_bytes (mb := mb)]
  rfl

theorem respond_mb_self (hmb : mb < 8) (hj : (vget c.mbx.mb mb).job = some j) (h : lodgeRestarts c = false) :
    let m := vget c.mbx.mb mb
    let bytes := jobAnswer m j st d body c
    vget (respond mb st d body c).mbx.mb mb =
      { (if executes st then { m with lastSequence := some j.sequence, kept := bytes.take (64 + body.length) } else m) with
        bytes, owner := false, job := none } := by
  simp only [respond_of_job hmb hj h, answer_mb_self hmb, recordAnswer_mb_self hmb, recordAnswer_bytes]

theorem respond_response (hmb : mb < 8) (hj : (vget c.mbx.mb mb).job = some j) (h : lodgeRestarts c = false) :
    (respond mb st d body c).mbx.response = setBit c.mbx.response mb true := by
  rw [respond_of_job hmb hj h, answer_mbx, recordAnswer_response]

theorem executes_iff : executes st = true ↔ st ∉ [stNotReady, stBadCmd, stLocked] := by
  simp [executes, and_assoc]

end
end Sys2Proof.Machine

namespace Sys2Proof
open Sys2Proof.Machine

/-- Settles O10: a restart defers the answer; else the header's fields are read off one by one (R25, R466, R468, R469). -/
theorem answersReachTheirMailbox : Obligations.AnswersReachTheirMailbox := by
  intro c mb st d body j hj hraw hbody hst hd hseq hcode hcls htag
  refine ⟨respond_of_restart, fun hrestart => ?_⟩
  have hself := respond_mb_self (st := st) (d := d) (body := body) mb.isLt hj hrestart
  have hresponse := respond_response (st := st) (d := d) (body := body) mb.isLt hj hrestart
  simp only [jobAnswer_native hraw] at hself
  refine ⟨respond_quiet .., fun k hk => ⟨respond_mb_ne mb.isLt hk .., ?_⟩, ?_, ?_⟩
  · rw [hresponse, bit_setBit, if_neg hk]
  · rw [hresponse, bit_setBit, if_pos rfl]
  · simp only [hself]
    refine ⟨trivial, trivial, answerBytes_sequence hseq, answerBytes_command hcode, answerBytes_length (by omega), answerBytes_status hst,
      answerBytes_class hcls, answerBytes_flags (by split <;> decide), answerBytes_detail hd, answerBytes_tag htag, answerBytes_body,
      fun hexecuted => ?_, fun hnot => ?_⟩
    · rw [if_pos (executes_iff.2 hexecuted)]
      exact ⟨rfl, rfl⟩
    · rw [if_neg (mt executes_iff.1 (not_not.2 hnot))]
      exact ⟨rfl, rfl⟩

end Sys2Proof

/-! SUPPORT. Chapter 18: what a doorbell does with a command it does not take on (R467, R469, R472), and what a command does with a request
that it or the mode refuses (R472, R500). -/
namespace Sys2Proof.Machine

/-! ### Bytes laid over a string, and read back -/

theorem getD_putB_of_lt {bs new : List Byte} {i : Nat} (h : i < new.length) : (putB bs 0 new).getD i 0 = new.getD i 0 := by
  simp only [putB, sliceB, List.drop_zero, List.take_zero, List.length_nil, Nat.sub_self, List.replicate_zero, List.append_nil, List.nil_append]
  rw [List.getD_append _ _ _ _ h]

/-- One byte replaced inside a string: every other byte stays. -/
theorem getD_putB_singleton {bs : List Byte} {off i : Nat} (x : Byte) (hoff : off < bs.length) :
    (putB bs off [x]).getD i 0 = if i = off then x else bs.getD i 0 := by
  have hset : putB bs off [x] = bs.set off x := by
    rw [putB, sliceB, List.drop_zero, List.length_take, Nat.min_eq_left hoff.le, Nat.sub_self, List.replicate_zero, List.append_nil,
      List.set_eq_take_append_cons_drop, if_pos hoff, List.append_assoc]
    rfl
  rw [hset]
  simp only [List.getD_eq_getElem?_getD, List.getElem?_set]
  split
  · subst off; simp
  · rw [if_neg (Ne.symm ‹_›)]

theorem rd_one (bs : List Byte) (off : Nat) : rd bs off 1 = (bs.getD off 0).toNat := by
  rw [rd, List.getD_eq_getElem?_getD]
  cases h : bs.drop off with
  | nil =>
    have hlen : bs.length ≤ off := List.drop_eq_nil_iff.1 h
    simp [fromLe, List.getElem?_eq_none hlen]
  | cons b rest =>
    have hb : bs[off]? = some b := by
      have := congrArg (·[0]?) h
      simpa [List.getElem?_drop] using this
    simp [fromLe, hb]

/-! ### The mailbox a doorbell takes (R467, R588) -/

/-- The device once it has taken a mailbox of the host's. -/
def Chip.taking (c : Chip) (mb : Nat) : Chip :=
  { c with mbx := { c.mbx with response := setBit c.mbx.response mb false, mb := vset c.mbx.mb mb { vget c.mbx.mb mb with owner := true } } }

section
variable {c : Chip} {mb code : Nat}

theorem taking_mb_self (h : mb < 8) : vget (c.taking mb).mbx.mb mb = { vget c.mbx.mb mb with owner := true } := vget_vset_self _ h _
theorem taking_mb_ne {k : Nat} (h : k ≠ mb) : vget (c.taking mb).mbx.mb k = vget c.mbx.mb k := vget_vset_ne _ h _
@[simp] theorem taking_quiet (c : Chip) (mb : Nat) : (c.taking mb).quiet = c.quiet := rfl
@[simp] theorem taking_spares (c : Chip) (mb : Nat) : (c.taking mb).spares = c.spares := rfl
@[simp] theorem taking_audit (c : Chip) (mb : Nat) : (c.taking mb).mbx.audit = c.mbx.audit := rfl
@[simp] theorem taking_modes (c : Chip) (mb : Nat) : (c.taking mb).modes = c.modes := rfl
theorem notReadyWait_taking (c : Chip) (mb : Nat) : notReadyWait (c.taking mb) mb = notReadyWait c mb := rfl

theorem doorbell_of_owner (h : (vget c.mbx.mb mb).owner = true) : doorbell mb c =
    { c with mbx := { c.mbx with mb := vset c.mbx.mb mb { vget c.mbx.mb mb with ignored := satU 8 ((vget c.mbx.mb mb).ignored + 1) } } } := by
  simp only [doorbell, h, if_true]

/-- The first of the checks that need no command's own rules (R472). -/
theorem doorbell_of_host (h : (vget c.mbx.mb mb).owner = false) : doorbell mb c =
    let m := vget c.mbx.mb mb
    match notReadyWait c mb with
    | some wait => refuseDoorbell mb stNotReady wait false none (c.taking mb)
    | none =>
      if m.lastSequence = some (rd m.bytes 0 2) then
        answer mb (putB (fit 4096 m.bytes) 0 (putB m.kept 10 [BitVec.ofNat 8 (rd m.kept 10 1 + 1)])) (c.taking mb)
      else match servedAs c mb (rd m.bytes 2 2) with
        | none => refuseDoorbell mb stBadCmd 0 false none (c.taking mb)
        | some native => admitJob mb (rd m.bytes 2 2) native (c.taking mb) := by
  simp only [doorbell, h]
  rfl

/-! ### A refusal at the doorbell (R468, R472) -/

/-- The device once a refused command is remembered as the last one, where it counts as executed (R469). -/
def rememberRefusal (mb : Nat) (bytes : List Byte) (executed : Bool) (c : Chip) : Chip :=
  if executed then { c with mbx := { c.mbx with mb := vmod c.mbx.mb mb fun m =>
    { m with lastSequence := some (rd m.bytes 0 2), kept := bytes.take 64 } } } else c

/-- The answer of a refusal. -/
def refusalBytes (mb st d : Nat) (c : Chip) : List Byte :=
  let m := vget c.mbx.mb mb
  let code := rd m.bytes 2 2
  let shown := reportedStatus (c.modes.personality == 1 && decide (0x80 ≤ code) && decide (code ≤ 0xBF)) st d
  answerBytes m (rd m.bytes 0 2) code shown.1 (rd m.bytes 8 1) 0 shown.2 (rd m.bytes 16 4) (clock c).1 (clock c).2 []

theorem refuseDoorbell_eq (st d : Nat) (executed : Bool) (c : Chip) : refuseDoorbell mb st d executed none c =
    answer mb (refusalBytes mb st d c) (rememberRefusal mb (refusalBytes mb st d c) executed c) := by
  simp only [refuseDoorbell, rememberRefusal]
  cases executed <;> rfl

@[simp] theorem rememberRefusal_quiet (bs : List Byte) (executed : Bool) (c : Chip) : (rememberRefusal mb bs executed c).quiet = c.quiet := by
  cases executed <;> rfl
@[simp] theorem rememberRefusal_spares (bs : List Byte) (executed : Bool) (c : Chip) :
    (rememberRefusal mb bs executed c).spares = c.spares := by
  cases executed <;> rfl
@[simp] theorem rememberRefusal_audit (bs : List Byte) (executed : Bool) (c : Chip) :
    (rememberRefusal mb bs executed c).mbx.audit = c.mbx.audit := by
  cases executed <;> rfl
theorem rememberRefusal_mb_ne {k : Nat} (h : k ≠ mb) (bs : List Byte) (executed : Bool) (c : Chip) :
    vget (rememberRefusal mb bs executed c).mbx.mb k = vget c.mbx.mb k := by
  cases executed
  · rfl
  · exact vget_vmod_ne _ h _

theorem refusalBytes_status {st : Nat} (hst : st < 65536) (hp : c.modes.personality = 0) (d : Nat) : rd (refusalBytes mb st d c) 6 2 = st := by
  have hnative : (c.modes.personality == 1) = false := by simp [hp]
  simp only [refusalBytes, hnative, Bool.false_and]
  exact answerBytes_status hst

/-- What a refusal at the doorbell answers, and what it leaves. -/
theorem refuseDoorbell_refuses {s : State} {st : Nat} (hmb : mb < 8) (hst : st < 65536) (hp : c.modes.personality = 0)
    (hspares : c.spares = true) (hothers : ∀ k, k ≠ mb → vget c.mbx.mb k = vget s.chip.mbx.mb k) (d : Nat) (executed : Bool) :
    let u := s.put (refuseDoorbell mb st d executed none c)
    s.keepsMemory u ∧ s.keepsOtherMailboxes mb u ∧ u.chip.quiet = c.quiet ∧ u.chip.mbx.audit = c.mbx.audit ∧
      (vget u.chip.mbx.mb mb).owner = false ∧ (vget u.chip.mbx.mb mb).job = none ∧ rd (vget u.chip.mbx.mb mb).bytes 6 2 = st ∧
      bit u.chip.mbx.response mb = true := by
  simp only [State.put_chip]
  rw [refuseDoorbell_eq]
  refine ⟨State.put_keepsMemory (by simpa using hspares), fun k hk => ?_, by simp, by rw [answer_mbx]; simp, ?_, ?_, ?_, ?_⟩
  · rw [State.put_chip, answer_mb_ne hk, rememberRefusal_mb_ne hk, hothers k hk]
  · rw [answer_mb_self hmb]
  · rw [answer_mb_self hmb]
  · rw [answer_mb_self hmb, refusalBytes_status hst hp]
  · rw [answer_mbx, bit_setBit, if_pos rfl]

/-- A command on a mailbox counts for the idle time of its session (R519). -/
def Chip.seen (c : Chip) (mb : Nat) : Chip :=
  { c with sec := { c.sec with sessions := vmod c.sec.sessions mb fun x => x.map fun x => { x with lastCommand := c.now } } }

theorem admitJob_of_lockdown {native : Nat} (code : Nat) (hl : c.modes.lockdown = true) (hs : lockdownServes native = false) :
    admitJob mb code native c = refuseDoorbell mb stLocked 0 false none (c.seen mb) := by
  simp only [admitJob, hl, hs]
  rfl

theorem granted_seen (hmb : mb < 8) (c : Chip) : granted (c.seen mb) mb = granted c mb := by
  have hsession : vget (c.seen mb).sec.sessions mb = (vget c.sec.sessions mb).map fun x => { x with lastCommand := c.now } :=
    vget_vmod_self _ hmb _
  simp only [granted, hsession]
  cases vget c.sec.sessions mb <;> rfl

theorem requiredClass_seen (c : Chip) (code : Nat) (p : List Byte) : requiredClass (c.seen mb) code p = requiredClass c code p := rfl

/-- The job a doorbell makes of the native command its mailbox holds (R466). -/
def doorbellJob (c : Chip) (mb code : Nat) : Job :=
  let h := (vget c.mbx.mb mb).bytes
  let payload := sliceB h 64 (rd h 4 2)
  { code, rawCode := code, sequence := rd h 0 2, cls := rd h 8 1, tag := rd h 16 4,
    headerFault := (11 :: 14 :: 15 :: List.range' 30 34).find? fun i => rd h i 1 != 0, payload,
    doorbellS := (clock c).1, doorbellNs := (clock c).2, audited := auditNeeded c code payload }

/-- The last checks of a native command, on a device that LOCKDOWN does not hold back (R471, R472, R473). -/
theorem admitJob_native (hlock : (c.modes.lockdown && !lockdownServes code) = false) :
    admitJob mb code code c =
      let j := doorbellJob (c.seen mb) mb code
      if j.audited && decide (64 ≤ auditHeld (c.seen mb)) then refuseDoorbell mb stBusy 0 false none (c.seen mb)
      else if !privilegeOk (c.seen mb) mb code j.cls j.payload then
        refuseDoorbell mb stNoPriv (requiredClass (c.seen mb) code j.payload) true (if j.audited then some j else none) (c.seen mb)
      else acceptJob mb j (c.seen mb) := by
  simp only [admitJob, bne_self_eq_false, Bool.not_false, Bool.true_and, Bool.false_eq_true, if_false, hlock]
  rfl

/-- A native command below its class is refused where it makes no audit entry (R471, R473). -/
theorem admitJob_of_noPriv (hmb : mb < 8) (hl : c.modes.lockdown = true → lockdownServes code = true)
    (ha : auditNeeded c code (sliceB (vget c.mbx.mb mb).bytes 64 (rd (vget c.mbx.mb mb).bytes 4 2)) = false)
    (hp : privilegeOk c mb code (rd (vget c.mbx.mb mb).bytes 8 1) (sliceB (vget c.mbx.mb mb).bytes 64 (rd (vget c.mbx.mb mb).bytes 4 2)) = false) :
    ∃ req, admitJob mb code code c = refuseDoorbell mb stNoPriv req true none (c.seen mb) := by
  have hlock : (c.modes.lockdown && !lockdownServes code) = false := by
    cases h : c.modes.lockdown with
    | false => rfl
    | true => rw [hl h]; rfl
  have haudit : (doorbellJob (c.seen mb) mb code).audited = false := by
    rw [← ha]
    simp only [doorbellJob, auditNeeded, requiredClass_seen]
    rfl
  have hpriv : privilegeOk (c.seen mb) mb code (doorbellJob (c.seen mb) mb code).cls (doorbellJob (c.seen mb) mb code).payload = false := by
    rw [← hp]
    simp only [doorbellJob, privilegeOk, requiredClass_seen, granted_seen hmb]
    rfl
  refine ⟨requiredClass (c.seen mb) code (doorbellJob (c.seen mb) mb code).payload, ?_⟩
  simp only [admitJob_native hlock, haudit, hpriv, Bool.false_and, Bool.not_false, Bool.false_eq_true, if_false, if_true]

end
end Sys2Proof.Machine

namespace Sys2Proof
open Sys2Proof.Machine

/-- Settles O9: the kept answer is laid over the mailbox with its repeat bit set, and the mailbox goes back (R469). -/
theorem repeatsGetTheRecordedAnswer : Obligations.RepeatsGetTheRecordedAnswer := by
  intro s t mb m hown hready hlast hlo hhi heven
  have hdoor : doorbell mb (s.tick t) =
      answer mb (putB (fit 4096 m.bytes) 0 (putB m.kept 10 [BitVec.ofNat 8 (rd m.kept 10 1 + 1)])) ((s.tick t).taking mb) := by
    rw [doorbell_of_host (c := s.tick t) hown]
    simp only [hready]
    exact if_pos hlast
  refine ⟨s.put (doorbell mb (s.tick t)), rfl, ?_⟩
  rw [hdoor]
  refine ⟨by simp, State.put_keepsMemory (by simp), fun k hk => ?_, by rw [State.put_chip, answer_mbx]; rfl, ?_, ?_⟩
  · rw [State.put_chip, answer_mb_ne hk, taking_mb_ne hk, State.tick_mbx]
  · rw [State.put_chip, answer_mbx, bit_setBit, if_pos rfl]
  · simp only [State.put_chip, answer_mb_self mb.isLt, taking_mb_self mb.isLt]
    have hlength : (putB m.kept 10 [BitVec.ofNat 8 (rd m.kept 10 1 + 1)]).length = m.kept.length := putB_length (by simp; omega)
    have hbyte (i : Nat) (hi : i < m.kept.length) : (putB (fit 4096 m.bytes) 0 (putB m.kept 10 [BitVec.ofNat 8 (rd m.kept 10 1 + 1)])).getD i 0 =
        if i = 10 then BitVec.ofNat 8 (rd m.kept 10 1 + 1) else m.kept.getD i 0 := by
      rw [getD_putB_of_lt (by rw [hlength]; exact hi), getD_putB_singleton _ (by omega)]
    have hsmall : rd m.kept 10 1 < 256 := by rw [rd_one]; exact BitVec.isLt _
    refine ⟨trivial, trivial, rfl, rfl, fun i hi hne => by rw [hbyte i hi, if_neg hne], ?_⟩
    rw [rd_one, hbyte 10 (by omega), if_pos rfl, BitVec.toNat_ofNat]
    omega

/-- Settles O8: the checks that need no command's own rules, one by one (R467, R472). -/
theorem doorbellsAreRefusedInOrder : Obligations.DoorbellsAreRefusedInOrder := by
  intro s t mb c m code payload
  refine ⟨fun hown => congrArg (fun d => Host.Outcome.next (s.put d)) (doorbell_of_owner hown), fun hown st hp hfirst => ?_⟩
  have hothers : ∀ k : Nat, k ≠ mb → vget (c.taking mb).mbx.mb k = vget s.chip.mbx.mb k := fun k hk => taking_mb_ne hk
  have hself : vget (c.taking mb).mbx.mb mb = { m with owner := true } := taking_mb_self mb.isLt
  suffices hrefused : ∃ (d : Nat) (executed : Bool) (e : Chip), doorbell mb c = refuseDoorbell mb st d executed none e ∧ st < 65536 ∧
      e.mbx = (c.taking mb).mbx ∧ e.modes = c.modes ∧ e.spares = true ∧
      (st = stNotReady ∨ st = stBadCmd → e.quiet = s.chip.quiet) ∧ (st = stLocked ∨ st = stNoPriv → e = (c.taking mb).seen mb) by
    obtain ⟨d, executed, e, hdoor, hst, hmbx, hmodes, hspares, hquiet, hseen⟩ := hrefused
    obtain ⟨hmemory, hmailboxes, hkept, haudit, howner, hjob, hstatus, hbit⟩ := refuseDoorbell_refuses (s := s) mb.isLt hst
      (hmodes ▸ hp) hspares (hmbx ▸ hothers) d executed
    refine ⟨s.put (doorbell mb c), rfl, ?_⟩
    rw [hdoor]
    refine ⟨hmemory, hmailboxes, fun h => hkept.trans (hquiet h), fun h => ?_, by rw [haudit, hmbx]; rfl, howner, hjob, hstatus, hbit⟩
    rw [hkept, hseen h]
    rfl
  have hserved (hcode : (baseClass code).isSome = true) : servedAs c mb code = some code := by simp [servedAs, hp, hcode]
  have hadmit (hready : notReadyWait c mb = none) (hlast : m.lastSequence ≠ some (rd m.bytes 0 2))
      (hcode : (baseClass code).isSome = true) : doorbell mb c = admitJob mb code code (c.taking mb) := by
    rw [doorbell_of_host hown]
    simp only [hready]
    rw [if_neg hlast]
    simp only [hserved hcode, code, m]
  have hbytes : (vget (c.taking mb).mbx.mb mb).bytes = m.bytes := by rw [hself]
  rcases hfirst with ⟨rfl, hwait⟩ | ⟨rfl, hready, hlast, hcode⟩ | ⟨rfl, hready, hlast, hcode, hlock, hserves⟩ |
    ⟨rfl, hready, hlast, hcode, hlock, haudit, hpriv⟩
  · obtain ⟨wait, hwait⟩ := Option.isSome_iff_exists.1 hwait
    exact ⟨wait, false, c.taking mb, by rw [doorbell_of_host hown]; simp only [hwait], by decide, rfl, rfl, rfl, fun _ => rfl,
      fun h => absurd h (by decide)⟩
  · have hnone : servedAs c mb (rd m.bytes 2 2) = none := by simp only [servedAs, hp]; simp [show baseClass (rd m.bytes 2 2) = none from hcode]
    refine ⟨0, false, c.taking mb, ?_, by decide, rfl, rfl, rfl, fun _ => rfl, fun h => absurd h (by decide)⟩
    rw [doorbell_of_host hown]
    simp only [hready]
    rw [if_neg hlast]
    simp only [hnone, m]
  · exact ⟨0, false, (c.taking mb).seen mb, by rw [hadmit hready hlast hcode, admitJob_of_lockdown (c := c.taking mb) code hlock hserves], by decide, rfl, rfl, rfl,
      fun h => absurd h (by decide), fun _ => rfl⟩
  · obtain ⟨req, hrefuse⟩ := admitJob_of_noPriv (c := c.taking mb) (code := code) mb.isLt hlock (by rw [hbytes]; exact haudit)
      (by rw [hbytes]; exact hpriv)
    exact ⟨req, true, (c.taking mb).seen mb, by rw [hadmit hready hlast hcode, hrefuse], by decide, rfl, rfl, rfl,
      fun h => absurd h (by decide), fun _ => rfl⟩

end Sys2Proof

/-! SUPPORT. Chapter 18: a request that a check of its command refuses changes nothing (R472); and a halted device that only refuses (R500). -/
namespace Sys2Proof.Machine

/-! ### The answer to a request that leaves the device alone -/

theorem lodgeRestarts_of_serves {c : Chip} (h : lodgeServes c = true) : lodgeRestarts c = false := by
  unfold lodgeServes at h
  unfold lodgeRestarts
  cases hn : c.modes.notReady <;> simp_all

/-- A command that leaves the device alone answers its mailbox and changes nothing else. -/
theorem finish_leaves {s : State} {t : Nat} {mb : Fin 8} {j : Job} {r : Reply} (hj : (vget s.chip.mbx.mb mb).job = some j)
    (hraw : j.rawCode = j.code) (hserves : lodgeServes s.chip = true) (hchip : r.chip = s.tick t) (hlater : r.later = false)
    (hstatus : r.status < 65536) :
    let u := s.put (finish mb r)
    u.chip.quiet = s.chip.quiet ∧ s.keepsMemory u ∧ s.keepsOtherMailboxes mb u ∧ (vget u.chip.mbx.mb mb).owner = false ∧
      rd (vget u.chip.mbx.mb mb).bytes 6 2 = r.status := by
  have hrestart : lodgeRestarts (s.tick t) = false := lodgeRestarts_of_serves (c := s.tick t) hserves
  have hself := respond_mb_self (c := s.tick t) (st := r.status) (d := r.detail) (body := r.body) mb.isLt hj hrestart
  have hfinish : finish mb r = respond mb r.status r.detail r.body (s.tick t) := by
    rw [finish, hlater, hchip]; rfl
  simp only [hfinish]
  refine ⟨by simp, State.put_keepsMemory (by simp), fun k hk => ?_, ?_, ?_⟩
  · rw [State.put_chip, respond_mb_ne mb.isLt hk, State.tick_mbx]
  · simp only [State.put_chip, hself]
  · simp only [State.put_chip, hself, jobAnswer_native hraw]
    exact answerBytes_status hstatus

/-! ### Checks that refuse (R472) -/

/-- A check of one of the steps 5 to 8 of R472 whose status is a refusal. -/
def Check.refuses (k : Check) : Bool := decide (5 ≤ k.step) && decide (k.step ≤ 8) && k.status != stOk && k.status != stPending && decide (k.status < 65536)

/-- Every check refuses what fails it. -/
def refusing (ks : List Check) : Bool := ks.all Check.refuses

@[simp] theorem refusing_nil : refusing [] = true := rfl
@[simp] theorem refusing_cons (k : Check) (ks : List Check) : refusing (k :: ks) = (k.refuses && refusing ks) := rfl
@[simp] theorem refusing_append (ks ls : List Check) : refusing (ks ++ ls) = (refusing ks && refusing ls) := List.all_append
@[simp] theorem refusing_map {α : Type} (f : α → Check) (xs : List α) : refusing (xs.map f) = xs.all fun x => (f x).refuses := List.all_map
@[simp] theorem refusing_ite {b : Prop} [Decidable b] {ks ls : List Check} :
    refusing (if b then ks else ls) = if b then refusing ks else refusing ls := apply_ite refusing b ks ls

@[simp] theorem lenIs_refuses (n : Nat) (j : Job) : (lenIs n j).refuses = true := rfl
@[simp] theorem lenOk_refuses (ok : Bool) : (lenOk ok).refuses = true := rfl
@[simp] theorem param_refuses (off : Nat) (ok : Bool) : (param off ok).refuses = true := rfl
@[simp] theorem crossRule_refuses (ok : Bool) : (crossRule ok).refuses = true := rfl
@[simp] theorem ownParam_refuses (off : Nat) (ok : Bool) : (ownParam off ok).refuses = true := rfl
@[simp] theorem stateRule_refuses (c : Chip) (ok : Bool) : (stateRule c ok).refuses = true := rfl
@[simp] theorem ownRule_refuses_notFound (ok : Bool) : (ownRule stNotFound ok).refuses = true := rfl
@[simp] theorem ownRule_refuses_busy (ok : Bool) : (ownRule stBusy ok).refuses = true := rfl
@[simp] theorem ownRule_refuses_noSpace (ok : Bool) : (ownRule stNoSpace ok).refuses = true := rfl
@[simp] theorem ownRule_refuses_fuseExhausted (ok : Bool) : (ownRule stFuseExhausted ok).refuses = true := rfl
@[simp] theorem ownRule_refuses_late (ok : Bool) : (ownRule stLate ok).refuses = true := rfl
@[simp] theorem ownRule_refuses_dataError (ok : Bool) : (ownRule stDataError ok).refuses = true := rfl
@[simp] theorem ownRule_refuses_notReady (ok : Bool) : (ownRule stNotReady ok).refuses = true := rfl
@[simp] theorem reserved_refuses (p : List Byte) (off n : Nat) : (reserved p off n).refuses = true := rfl
@[simp] theorem inRange_refuses (p : List Byte) (off n lo hi : Nat) : (inRange p off n lo hi).refuses = true := rfl
@[simp] theorem inRangeS_refuses (p : List Byte) (off n : Nat) (lo hi : Int) : (inRangeS p off n lo hi).refuses = true := rfl
@[simp] theorem rangeIf_refuses (now : Bool) (k : Check) : (rangeIf now k).refuses = k.refuses := rfl

@[simp] theorem stagingChecks_refusing (c : Chip) (id : Nat) (es : List Entry) (n : Nat) : refusing (stagingChecks c id es n) = true := rfl
@[simp] theorem ringChecks_refusing (c : Chip) (old : Ring) (enable : Bool) (new : Ring) (fn : Nat) :
    refusing (ringChecks c old enable new fn) = true := rfl
@[simp] theorem accessChecks_refusing (j : Job) (c : Chip) (n head : Nat) : refusing (accessChecks j c n head) = true := rfl
@[simp] theorem outRingFields_refusing (j : Job) (lo hi : Nat) (slot : List Check) : refusing (outRingFields j lo hi slot) = refusing slot := by
  simp [outRingFields]
@[simp] theorem regionChecks_refusing (c : Chip) (p : List Byte) (off m n : Nat) : refusing (regionChecks c p off m n) = true := rfl
@[simp] theorem zipChecks_refusing (j : Job) : refusing (zipChecks j) = true := rfl
theorem refusing_flatten_mapIdx {α : Type} {f : Nat → α → List Check} (hf : ∀ i x, refusing (f i x) = true) (xs : List α) :
    refusing (xs.mapIdx f).flatten = true := by
  rw [refusing, List.all_flatten, List.all_eq_true]
  intro ks hks
  obtain ⟨i, hi, rfl⟩ := List.mem_mapIdx.1 hks
  exact hf i _

@[simp] theorem archiveChecks_refusing (j : Job) : refusing (archiveChecks j) = true := by
  simp only [archiveChecks, refusing_append, Bool.and_eq_true]
  exact ⟨⟨rfl, refusing_flatten_mapIdx (fun _ _ => rfl) _⟩, rfl⟩
@[simp] theorem proofChecks_refusing (c : Chip) (unlock : Bool) (mb : Nat) (j : Job) (idle : Check) :
    refusing (proofChecks c unlock mb j idle) = idle.refuses := by
  simp [proofChecks]
@[simp] theorem gangSeamFields_refusing (p : List Byte) : refusing (gangSeamFields p) = true := rfl

/-- A request that fails one of its checks is refused by the first of them, and the device stays (R472). -/
theorem checked_refuses {ks : List Check} (hks : refusing ks = true) (hfails : passes ks = false) (c : Chip) (effect : Reply) :
    let r := checked ks c effect
    (r.chip = c ∧ r.later = false ∧ r.status ≠ stOk ∧ r.status < 65536) ∧ r.status ≠ stPending := by
  have hall : ∀ k ∈ ks, (5 ≤ k.step ∧ k.step ≤ 8) ∧ k.status ≠ stOk ∧ k.status ≠ stPending ∧ k.status < 65536 := fun k hk => by
    simpa [Check.refuses, and_assoc] using List.all_eq_true.1 hks k hk
  obtain ⟨k, hk, hbad⟩ := List.all_eq_false.1 hfails
  obtain ⟨first, hfirst⟩ := Option.isSome_iff_exists.1 (firstFail_isSome hk (hall k hk).1 (by simpa using hbad))
  obtain ⟨-, hstatus, hpending, hsmall⟩ := hall first (mem_of_mem_inOrder (List.mem_of_find?_eq_some hfirst))
  simp only [checked_of_fails hfirst]
  exact ⟨⟨trivial, trivial, hstatus, hsmall⟩, hpending⟩

/-- A row whose command leaves the device alone on every request it does not accept refuses them. -/
theorem Refuses.of_reply {code : Nat} {row : Nat → Fin 8 → Instr} {accepts : Env → Job → Chip → Bool} {f : Env → Job → Chip → Reply}
    (hrow : ∀ t mb s, exec (row t mb) s = .next (s.command code t mb f))
    (hf : ∀ env j c, accepts env j c = false →
      (f env j c).chip = c ∧ (f env j c).later = false ∧ (f env j c).status ≠ stOk ∧ (f env j c).status < 65536) :
    Refuses code row accepts := by
  intro s t mb j hs ha
  obtain ⟨hchip, hlater, hstatus, hsmall⟩ := hf ⟨mb, s.bulk⟩ j (s.tick t) ha
  refine ⟨_, (hrow t mb s).trans (congrArg _ (State.command_of_holds hs t f)), ?_⟩
  simp only [State.holds, Bool.and_eq_true, beq_iff_eq] at hs
  obtain ⟨⟨⟨⟨⟨⟨⟨hj, hcode⟩, hraw⟩, -⟩, -⟩, hserves⟩, -⟩, -⟩ := hs
  obtain ⟨hquiet, hmemory, hothers, howner, hanswer⟩ := finish_leaves hj (hraw.trans hcode.symm) hserves hchip hlater hsmall
  exact ⟨hquiet, hmemory, hothers, howner, hanswer ▸ hstatus⟩

/-- A row whose command is its checks and then its effect refuses every request that fails a check. -/
theorem Refuses.of_checked {code : Nat} {row : Nat → Fin 8 → Instr} {ks : Env → Job → Chip → List Check} {effect : Env → Job → Chip → Reply}
    (hrow : ∀ t mb s, exec (row t mb) s = .next (s.command code t mb fun env j c => checked (ks env j c) c (effect env j c)))
    (hks : ∀ env j c, refusing (ks env j c) = true := by intros; simp) : Refuses code row (fun env j c => passes (ks env j c)) :=
  .of_reply hrow fun env j c h => (checked_refuses (hks env j c) h c _).1

/-- A refused request does not come to its read of the configuration area (R431). -/
theorem Refuses.withArea {code : Nat} {row : Nat → Fin 8 → Instr} {ks : Env → Job → Chip → List Check} {effect : Env → Job → Chip → Reply}
    {error : Option ReadError}
    (hrow : ∀ t mb s, exec (row t mb) s =
      .next (s.command code t mb (Machine.withArea error fun env j c => checked (ks env j c) c (effect env j c))))
    (hks : ∀ env j c, refusing (ks env j c) = true := by intros; simp) : Refuses code row (fun env j c => passes (ks env j c)) :=
  .of_reply hrow fun env j c h => by
    obtain ⟨hrefused, hpending⟩ := checked_refuses (hks env j c) h c (effect env j c)
    have hsame : Machine.withArea error (fun env j c => checked (ks env j c) c (effect env j c)) env j c = checked (ks env j c) c (effect env j c) := by
      cases error with
      | none => rfl
      | some e => exact if_pos ⟨hrefused.2.2.1, hpending⟩
    rw [hsame]
    exact hrefused

/-! ### A halted device (R500) -/

/-- The row of a command whose turn has come, in whatever mode: what the mode lets it reply, given to its mailbox. -/
theorem State.command_underMode {s : State} {mb : Fin 8} {code : Nat} {j : Job} (hj : (vget s.chip.mbx.mb mb).job = some j)
    (hcode : j.code = code) (hraw : j.rawCode = code) (hwaiting : j.waiting = false) (hturn : inTurn s.chip j = true)
    (hserves : lodgeServes s.chip = true) (t : Nat) (f : Env → Job → Chip → Reply) :
    s.command code t mb f = s.put (finish mb (underMode (f ⟨mb, s.bulk⟩) j (s.tick t))) := by
  have hturn' : inTurn (s.tick t) j = true := hturn
  have hserves' : lodgeServes (s.tick t) = true := hserves
  rw [State.command, State.run_eq_put]
  simp [runJob, hserves', hj, Option.filter, hcode, hraw, hwaiting, hturn']

/-- A halted device answers a command it does not serve from its length, its fields or its mode, and leaves the rest (R472, R500). -/
theorem underMode_of_halted {f : Job → Chip → Reply} {c : Chip} {j : Job} (hhalt : c.modes.thermalHalt = true) (hserves : haltServes j.code = false)
    (hearly : (f j c).early = true → [stBadLen, stBadParam].contains (f j c).status = true ∧ (f j c).chip = c ∧ (f j c).later = false) :
    let r := underMode f j c
    r.chip = c ∧ r.later = false ∧ [stBadLen, stBadParam, stBadState].contains r.status = true := by
  have hrefuses : modeRefuses c j = true := by simp [modeRefuses, hhalt, hserves]
  simp only [underMode, hrefuses, Bool.true_and]
  split
  · exact ⟨rfl, rfl, rfl⟩
  · split
    · exact ⟨rfl, rfl, rfl⟩
    · next h =>
      obtain ⟨hstatus, hchip, hlater⟩ := hearly (by simpa using h)
      refine ⟨hchip, hlater, ?_⟩
      simp only [List.contains_cons, List.contains_nil, Bool.or_false, Bool.or_eq_true] at hstatus ⊢
      exact hstatus.imp id Or.inl

end Sys2Proof.Machine

namespace Sys2Proof
open Sys2Proof.Machine

/-- Settles O11: the mode stands between the fields and the command's own rules (R472, R500). -/
theorem aHaltedDeviceOnlyRefuses : Obligations.AHaltedDeviceOnlyRefuses := by
  intro s t code mb f j hearly hj hcode hraw hwaiting hturn hserves hhalt hnot
  obtain ⟨hchip, hlater, hstatus⟩ := underMode_of_halted (f := f ⟨mb, s.bulk⟩) (c := s.tick t) hhalt (hcode ▸ hnot) (hearly _ _ _)
  have hsmall (st : Nat) (h : [stBadLen, stBadParam, stBadState].contains st = true) : st < 65536 :=
    List.all_eq_true.1 (show [stBadLen, stBadParam, stBadState].all (· < 65536) from rfl) st (List.contains_iff_mem.1 h) |> of_decide_eq_true
  rw [State.command_underMode hj hcode hraw hwaiting hturn hserves]
  obtain ⟨hquiet, hmemory, hothers, howner, hanswer⟩ := finish_leaves hj (hraw.trans hcode.symm) hserves hchip hlater (hsmall _ hstatus)
  exact ⟨hquiet, hmemory, hothers, howner, hanswer ▸ hstatus⟩

/-- Settles O12: every check of a command of the inspection refuses, and the first that fails answers (R472). -/
theorem refusedInspectionRequestsChangeNothing : Obligations.RefusedInspectionRequestsChangeNothing := by
  unfold Obligations.RefusedInspectionRequestsChangeNothing
  refine ⟨.of_checked exec_encConfigure, .of_checked exec_encGetState, .of_checked exec_trigConfigure, .of_checked exec_trigSetPitch, ?_⟩
  refine ⟨.of_checked exec_webSetGeometry, .of_checked exec_portDiscover, .of_checked exec_portConfigure, .of_checked exec_portReadCameraReg, ?_⟩
  refine ⟨.of_checked exec_portWriteCameraReg, fun seen => .of_checked fun t mb => exec_portGetLinkQuality t mb seen, ?_⟩
  refine ⟨.of_checked exec_laneMap, .of_checked exec_laneGetStatus, .of_checked exec_vcamConfigure, .of_checked exec_calFlatField, ?_⟩
  refine ⟨.of_checked exec_calGeometry, fun error => .withArea fun t mb => exec_calGetResult t mb error, .of_checked exec_pipeSetCorrection fun _ _ _ => (by simp; split <;> rfl), ?_⟩
  refine ⟨.of_checked exec_pipeSetStitch, .of_checked exec_pipeSetReference, .of_checked exec_pipeSetDetection fun _ _ _ => (by simp; split <;> rfl), ?_⟩
  refine ⟨.of_checked exec_pipeSetFilters, .of_checked exec_pipeSetLabelling, .of_checked exec_pipeSetTiles, .of_checked exec_pipeSetRecurrence fun _ _ _ => (by simp; split <;> rfl), ?_⟩
  refine ⟨.of_checked exec_outSetRecordRing, .of_checked exec_outSetTileRing, .of_checked exec_outGetStats, .of_checked exec_lookbackConfigure, ?_⟩
  refine ⟨.of_checked exec_lookbackRetrieve, .of_checked exec_lookbackReplay, .of_checked exec_lookbackPin, .of_checked exec_lookbackStatus, ?_⟩
  refine ⟨.of_checked exec_viewConfigure, .of_checked exec_viewStreamStart, .of_checked exec_viewStreamStop, .of_checked exec_zipSubmit, ?_⟩
  refine ⟨.of_checked exec_zipStatus, .of_checked exec_zipCancel, .of_checked exec_ledgerOpen, .of_checked exec_ledgerAbort, ?_⟩
  refine ⟨.of_checked exec_ledgerStatus, .of_checked exec_axisConfigure, .of_checked exec_axisHome, .of_checked exec_axisStop, ?_⟩
  refine ⟨.of_checked exec_axisStatus, .of_checked exec_markConfigure, .of_checked exec_timeGet, .of_checked exec_timeSet, ?_⟩
  refine ⟨.of_checked exec_ptpStatus, .of_checked exec_servoConfigure, .of_checked exec_pulseCancel, .of_checked exec_captureConfigure, ?_⟩
  exact ⟨.of_checked exec_auxToneConfigure, .of_checked exec_auxRead⟩

/-- Settles O13: every check of a command of the system refuses, and the first that fails answers (R472). -/
theorem refusedRequestsOfTheSystemChangeNothing : Obligations.RefusedRequestsOfTheSystemChangeNothing := by
  unfold Obligations.RefusedRequestsOfTheSystemChangeNothing
  refine ⟨.of_checked exec_calAux, .of_checked exec_calLinks, .of_checked exec_gangConfigure fun _ _ _ => rfl, .of_checked exec_gangStatus, ?_⟩
  refine ⟨.of_checked exec_dramStatus, .of_checked exec_sysSetEventRing, .of_checked exec_sysSetEventMask, .of_checked exec_healthStatus, ?_⟩
  refine ⟨.of_checked exec_thermalConfigure, .of_checked exec_thermalAckRequest, .of_checked exec_lifeRead, .of_checked exec_lifeSetCalendar, ?_⟩
  refine ⟨.of_checked exec_secSessionOpen, .of_checked exec_secSessionClose, .of_checked exec_secFuseRead, .of_checked exec_secFuseWrite, ?_⟩
  refine ⟨.of_checked exec_secKeyLoad fun _ _ _ => rfl, .of_checked exec_secTamperConfigure, .of_checked exec_secUnlock, ?_⟩
  refine ⟨.of_checked exec_sysGetInfo, .of_checked exec_sysGetCaps, .of_checked exec_sysGetMode, .of_checked exec_sysResetSubsystem, ?_⟩
  exact ⟨.of_checked exec_sysFwActivate, fun error => .withArea fun t mb => exec_sysExportConfig t mb error, .of_checked exec_sysImportConfig⟩

end Sys2Proof

/-! SUPPORT. What a command or an event leaves alone: the blocks of the device it does not own, both memories and the mailboxes of the
others. -/
namespace Sys2Proof.Machine

-- One proof after another: many at once need a stack each, and together more memory than the check has.
set_option Elab.async false

/-! ### Keeping to a block -/

/-- A choice of blocks: the first device with these blocks of the second. -/
structure Blocks (T : Chip → Chip → Chip) : Prop where
  self : ∀ c, T c c = c
  trans : ∀ c d e, T (T c d) e = T c e

/-- From c to d the device keeps all but the blocks T takes from d; nothing written to a memory, no mailbox touched. -/
structure Keeps (T : Chip → Chip → Chip) (c d : Chip) : Prop where
  quiet : d.quiet = T c.quiet d.quiet
  spares : d.spares = c.spares
  mb : d.mbx.mb = c.mbx.mb

section
variable {T U : Chip → Chip → Chip} {c d e : Chip}

/-- An effect on what the quiet part of the device leaves out keeps every block. -/
theorem Keeps.of_eq (hT : Blocks T) (hq : d.quiet = c.quiet) (hs : d.spares = c.spares) (hm : d.mbx.mb = c.mbx.mb) : Keeps T c d :=
  ⟨by rw [hq, hT.self], hs, hm⟩

theorem Keeps.refl (hT : Blocks T) (c : Chip) : Keeps T c c := .of_eq hT rfl rfl rfl

/-- With the blocks overwritten both devices read alike. -/
theorem Keeps.view (hT : Blocks T) (h : Keeps T c d) (e : Chip) : T d.quiet e = T c.quiet e :=
  (congrArg (T · e) h.quiet).trans (hT.trans _ _ _)

theorem Keeps.trans (hT : Blocks T) (h : Keeps T c d) (h' : Keeps T d e) : Keeps T c e :=
  ⟨h'.quiet.trans (h.view hT _), h'.spares.trans h.spares, h'.mb.trans h.mb⟩

/-- What keeps to fewer blocks keeps to more. -/
theorem Keeps.mono (h : Keeps T c d) (hTU : ∀ c d, U c (T c d) = T c d) : Keeps U c d :=
  ⟨by rw [h.quiet, hTU], h.spares, h.mb⟩

/-- An effect on fewer blocks that comes after one on these. -/
theorem Keeps.after (h' : Keeps U d e) (h : Keeps T c d) (hU : ∀ c d, T c (U c d) = U c d := by intros; rfl)
    (hT : Blocks T := by exact ⟨fun _ => rfl, fun _ _ _ => rfl⟩) : Keeps T c e :=
  h.trans hT (h'.mono hU)

theorem Keeps.ite {b : Prop} [Decidable b] (h : Keeps T c d) (h' : Keeps T c e) : Keeps T c (if b then d else e) := by
  split
  · exact h
  · exact h'

/-- An effect that may follow. -/
theorem Keeps.maybe {b : Prop} [Decidable b] (h' : Keeps U d e) (h : Keeps T c d) (hU : ∀ c d, T c (U c d) = U c d := by intros; rfl)
    (hT : Blocks T := by exact ⟨fun _ => rfl, fun _ _ _ => rfl⟩) : Keeps T c (if b then e else d) :=
  .ite (h'.after h hU hT) h

/-- An effect that may be left out. -/
theorem Keeps.unless {b : Prop} [Decidable b] (h' : Keeps U d e) (h : Keeps T c d) (hU : ∀ c d, T c (U c d) = U c d := by intros; rfl)
    (hT : Blocks T := by exact ⟨fun _ => rfl, fun _ _ _ => rfl⟩) : Keeps T c (if b then d else e) :=
  .ite h (h'.after h hU hT)

theorem Keeps.foldl {α : Type} (hT : Blocks T) {f : Chip → α → Chip} (hf : ∀ c x, Keeps T c (f c x)) (xs : List α) (c : Chip) :
    Keeps T c (xs.foldl f c) := by
  induction xs generalizing c with
  | nil => exact .refl hT c
  | cons x xs ih => exact (hf c x).trans hT (ih _)

theorem Keeps.checked {ks : List Check} {r : Reply} (h : Keeps T c r.chip) (hT : Blocks T := by exact ⟨fun _ => rfl, fun _ _ _ => rfl⟩) :
    Keeps T c (Machine.checked ks c r).chip := by
  simp only [Machine.checked]
  split
  · exact .refl hT c
  · exact h

/-! ### The shared operations -/

theorem Keeps.then_same (h : Keeps T c d) (hq : e.quiet = d.quiet) (hs : e.spares = d.spares) (hm : e.mbx.mb = d.mbx.mb) : Keeps T c e :=
  ⟨by rw [hq]; exact h.quiet, hs.trans h.spares, hm.trans h.mb⟩

theorem Keeps.emit {o : Output} (h : Keeps T c d) (ho : o.sparesMemory = true) : Keeps T c (Machine.emit o d) :=
  h.then_same rfl (by simp [ho]) rfl
theorem Keeps.freeNat (h : Keeps T c d) : Keeps T c (Machine.freeNat d).2 := h.then_same rfl rfl rfl
theorem Keeps.raise {code sev src : Nat} {p : List Byte} (h : Keeps T c d) : Keeps T c (Machine.raise code sev src p d) :=
  h.then_same (by simp) (by simp) (by simp)
theorem Keeps.raiseLimited {code sev src inst off len n : Nat} {p : List Byte} {l : Bool} (h : Keeps T c d) :
    Keeps T c (Machine.raiseLimited code sev src inst p off len l n d) :=
  h.then_same (by simp) (by simp) (by simp)
theorem Keeps.satAdd {k o i w a n : Nat} (h : Keeps T c d) : Keeps T c (Machine.satAdd k o i w a n d).2 :=
  h.then_same (by simp) (by simp) (by simp)
theorem Keeps.noteSaturated {k o i w v : Nat} (h : Keeps T c d) : Keeps T c (Machine.noteSaturated k o i w v d) :=
  h.then_same (by simp) (by simp) (by simp)
theorem Keeps.signalVector {v : Nat} (h : Keeps T c d) : Keeps T c (Machine.signalVector v d) :=
  h.then_same (by simp) (by simp) (by simp)

/-! ### Rows -/

/-- A command whose own effect keeps to its blocks answers, and keeps to them. -/
theorem Answers.of_command {row : Nat → Fin 8 → Instr} {code : Nat} {f : Env → Job → Chip → Reply} (hT : Blocks T)
    (hrow : ∀ t mb s, exec (row t mb) s = .next (s.command code t mb f)) (hf : ∀ env j c, Keeps T c (f env j c).chip) : Answers row T := by
  intro t mb s
  refine ⟨_, hrow t mb s, ?_⟩
  rw [State.command, State.run_eq_put]
  refine ⟨?_, State.put_keepsMemory ?_, fun k hk => ?_⟩
  · have hview (e : Chip) := runJob_quiet (fun d => T d e) (test := fun j => j.code == code && j.rawCode == code) (mb := mb)
      (f := fun who => f ⟨who, s.bulk⟩) (c := s.tick t) fun who j => (hf _ j _).view hT e
    exact (hT.self _).symm.trans (hview _)
  · exact (runJob_spares fun who j => (hf _ j _).spares).trans (State.tick_spares s t)
  · rw [State.put_chip, runJob_mb_ne mb.isLt hk fun who j => by rw [(hf _ j _).mb], State.tick_mbx]

/-- An event whose effect on each device keeps to its blocks is confined to them. -/
theorem Confined.of_put {row : Nat → Instr} (h : ∀ t s, ∃ c, exec (row t) s = .next (s.put c) ∧ Keeps T (s.tick t) c) : Confined row T := by
  intro t s
  obtain ⟨c, hrow, hc⟩ := h t s
  exact ⟨_, hrow, hc.quiet, State.put_keepsMemory (hc.spares.trans (State.tick_spares s t)), fun k => congrArg (vget · k) hc.mb⟩

/-- An event whose effect keeps to its blocks is confined to them. -/
theorem Confined.of_keeps {row : Nat → Instr} {f : Chip → Chip} (hrow : ∀ t s, exec (row t) s = .next (s.put (f (s.tick t))))
    (hf : ∀ c, Keeps T c (f c)) : Confined row T :=
  .of_put fun t s => ⟨_, hrow t s, hf _⟩

/-- A command that changes nothing itself. -/
theorem Answers.of_reading {row : Nat → Fin 8 → Instr} {code : Nat} {ks : Env → Job → Chip → List Check} {f : Env → Job → Chip → Reply}
    (hrow : ∀ t mb s, exec (row t mb) s = .next (s.command code t mb fun env j c => checked (ks env j c) c (f env j c)))
    (hf : ∀ env j c, (f env j c).chip = c) : Answers row (fun c _ => c) :=
  .of_command ⟨fun _ => rfl, fun _ _ _ => rfl⟩ hrow fun env j c =>
    .checked (by rw [hf]; exact .refl ⟨fun _ => rfl, fun _ _ _ => rfl⟩ c)

/-- A command whose whole function keeps to its blocks. -/
theorem Answers.of_keeps {row : Nat → Fin 8 → Instr} {code : Nat} {f : Env → Job → Chip → Reply}
    (hrow : ∀ t mb s, exec (row t mb) s = .next (s.command code t mb f)) (hf : ∀ env j c, Keeps T c (f env j c).chip)
    (hT : Blocks T := by exact ⟨fun _ => rfl, fun _ _ _ => rfl⟩) : Answers row T :=
  .of_command hT hrow hf

/-- A command that is its checks and then an effect on its own blocks. -/
theorem Answers.of_checked {row : Nat → Fin 8 → Instr} {code : Nat} {ks : Env → Job → Chip → List Check} {f : Env → Job → Chip → Reply}
    (hrow : ∀ t mb s, exec (row t mb) s = .next (s.command code t mb fun env j c => checked (ks env j c) c (f env j c)))
    (hf : ∀ env j c, Keeps T c (f env j c).chip) (hT : Blocks T := by exact ⟨fun _ => rfl, fun _ _ _ => rfl⟩) : Answers row T :=
  .of_command hT hrow fun env j c => .checked (hf env j c) hT

end

/-! ### The Ledger (R297, R302) -/

/-- The Ledger alone. -/
def takeLedger (c d : Chip) : Chip := { c with ledger := d.ledger }

/-- A command that stages an entry changes the Ledger alone. -/
theorem Answers.of_stage {row : Nat → Fin 8 → Instr} {code entry : Nat} {ks : Env → Job → Chip → List Check}
    (hrow : ∀ t mb s, exec (row t mb) s = .next (s.command code t mb fun env j c => stage entry (ks env j c) j c)) :
    Answers row takeLedger :=
  .of_checked hrow fun _ _ _ => ⟨rfl, rfl, rfl⟩

end Sys2Proof.Machine

namespace Sys2Proof
open Sys2Proof.Machine

set_option Elab.async false

/-- Settles O14: what a reading command's effect is, and that a staged entry joins the Ledger. -/
theorem readingAndStagingTouchNoSetting : Obligations.ReadingAndStagingTouchNoSetting := by
  unfold Obligations.ReadingAndStagingTouchNoSetting
  refine ⟨.of_reading exec_zipStatus fun _ _ _ => by (split <;> rfl), .of_reading exec_ledgerStatus fun _ _ _ => by (split <;> rfl),
    .of_reading exec_auxRead fun _ _ _ => rfl, .of_reading exec_gangStatus fun _ _ _ => rfl,
    .of_reading exec_lifeRead fun _ _ _ => by (split <;> rfl), .of_reading exec_secFuseRead fun _ _ _ => rfl,
    .of_reading exec_sysGetInfo fun _ _ _ => rfl, .of_reading exec_sysGetCaps fun _ _ _ => rfl,
    .of_reading exec_sysGetMode fun _ _ _ => rfl, ?_⟩
  refine ⟨.of_stage exec_trigSetPitch, .of_stage exec_webSetGeometry, .of_checked exec_pipeSetCorrection fun _ _ _ => ⟨rfl, rfl, rfl⟩,
    .of_stage exec_pipeSetStitch, .of_stage exec_pipeSetReference, .of_stage exec_pipeSetDetection, .of_stage exec_pipeSetFilters,
    .of_stage exec_pipeSetLabelling, .of_stage exec_pipeSetTiles, .of_stage exec_pipeSetRecurrence, ?_⟩
  exact ⟨.of_checked exec_ledgerOpen fun _ _ _ => ⟨rfl, rfl, rfl⟩, .of_checked exec_ledgerAbort fun _ _ _ => by (split <;> exact ⟨rfl, rfl, rfl⟩),
    .of_stage exec_markConfigure⟩

end Sys2Proof

/-! SUPPORT. The blocks the commands of each chapter change. -/
namespace Sys2Proof.Machine

-- One proof after another: many at once need a stack each, and together more memory than the check has.
set_option Elab.async false

section
variable {T : Chip → Chip → Chip} {c d : Chip}

/-! ### Helpers that draw free values -/

theorem Keeps.unsampled {a : AxisCfg} {from_ now : Nat} {moved : Bool} {target : Int} {w : Winding} (h : Keeps T c d) :
    Keeps T c (w.unsampled a from_ now moved target d).2 := by
  simp only [Winding.unsampled, apply_ite Prod.snd, ite_self]
  exact h.then_same rfl rfl rfl

theorem Keeps.arpRequest {v : ViewCfg} (h : Keeps T c d) : Keeps T c (Machine.arpRequest v d) := by
  simp only [Machine.arpRequest]
  split
  · exact h
  · exact h.emit rfl

end

/-! ### Blocks of one helper -/

theorem sampledAxis_keeps (k : Nat) (c : Chip) : Keeps (fun c d => { c with axis := d.axis }) c (sampledAxis k c) := by
  have hT : Blocks fun c d => { c with axis := d.axis } := ⟨fun _ => rfl, fun _ _ _ => rfl⟩
  simp only [sampledAxis]
  split
  · exact .refl hT c
  · exact (Keeps.unsampled (.unsampled (.refl hT c))).trans hT ⟨rfl, rfl, rfl⟩

theorem ringChannel_keeps (old : Ring) (enable : Bool) (new : Ring) (fn : Nat) (c : Chip) :
    Keeps (fun c d => { c with pcie := d.pcie }) c (ringChannel old enable new fn c) := by
  simp only [ringChannel]
  repeat' split
  all_goals exact ⟨rfl, rfl, rfl⟩

theorem modPort_keeps (n : Nat) (f : Port → Port) (c : Chip) : Keeps (fun c d => { c with port := d.port }) c (modPort n f c) :=
  ⟨rfl, rfl, rfl⟩

theorem calLinkSeen_keeps (n link : Nat) (f : LinkCal → LinkCal) (c : Chip) :
    Keeps (fun c d => { c with cal := d.cal }) c (calLinkSeen n link f c) := by
  simp only [calLinkSeen]
  repeat' split
  all_goals exact ⟨rfl, rfl, rfl⟩

theorem takeErrors_keeps (n link new errors : Nat) (c : Chip) :
    Keeps (fun c d => { c with cal := d.cal, port := d.port }) c (takeErrors n link new errors c) :=
  (calLinkSeen_keeps _ _ _ _).after ((modPort_keeps _ _ _).after (.satAdd ⟨rfl, rfl, rfl⟩))

theorem suspendView_keeps (k : Nat) (c : Chip) : Keeps (fun c d => { c with view := d.view }) c (suspendView k c) := by
  simp only [suspendView]
  split
  · exact ⟨rfl, rfl, rfl⟩
  · exact .raise ⟨rfl, rfl, rfl⟩

theorem tellJoin_keeps (c : Chip) : Keeps (fun c _ => c) c (tellJoin c) := by
  have hT : Blocks fun c _ => c := ⟨fun _ => rfl, fun _ _ _ => rfl⟩
  simp only [tellJoin]
  split
  · exact .foldl hT (fun c l => .emit (.refl hT c) rfl) _ c
  · exact .refl hT c

/-! ### Reads of the DRAM (R431) -/

/-- The DRAM's own record and the life totals that count its errors. -/
def takeDram (c d : Chip) : Chip := { c with dram := d.dram, life := d.life }

/-- What a damaged read leaves behind. -/
def takeDamage (c d : Chip) : Chip := { c with dram := d.dram, life := d.life, orangery := d.orangery }

theorem takeDram_blocks : Blocks takeDram := ⟨fun _ => rfl, fun _ _ _ => rfl⟩
theorem takeDamage_blocks : Blocks takeDamage := ⟨fun _ => rfl, fun _ _ _ => rfl⟩

theorem modCh_keeps (n : Nat) (f : DramChannel → DramChannel) (c : Chip) : Keeps takeDram c (modCh n f c) := ⟨rfl, rfl, rfl⟩

theorem dramLog_keeps (ch kind device reader extent : Nat) (c : Chip) : Keeps takeDram c (dramLog ch kind device reader extent c) :=
  ⟨rfl, rfl, rfl⟩

theorem withLife_keeps (x : Life) (c : Chip) : Keeps takeDram c { c with life := x } := ⟨rfl, rfl, rfl⟩

theorem correctOne_keeps (k device : Nat) (c : Chip) : Keeps takeDram c (correctOne k device c) := by
  have hT := takeDram_blocks
  have hstart : Keeps takeDram c c := .refl hT c
  simp only [correctOne]
  exact .ite ((dramLog_keeps _ _ _ _ _ _).after ((modCh_keeps _ _ _).after ((withLife_keeps _ _).after hstart.satAdd.satAdd)))
    ((modCh_keeps _ _ _).after ((withLife_keeps _ _).after hstart.satAdd.satAdd))

theorem strike_keeps (h : DramHit) (c : Chip) : Keeps takeDamage c (strike h c) := by
  have hT := takeDamage_blocks
  cases h with
  | block l n => exact (Keeps.satAdd (.refl hT c)).trans hT ⟨rfl, rfl, rfl⟩
  | entry n => exact ⟨rfl, rfl, rfl⟩
  | rows => exact .refl hT c
  | model => exact .refl hT c
  | area => exact .refl hT c

theorem uncorrectable_keeps (patrol : Bool) (extent : Nat) (e : ReadError) (c : Chip) : Keeps takeDamage c (uncorrectable patrol extent e c) := by
  have hT := takeDamage_blocks
  have hstart : Keeps takeDamage c c := .refl hT c
  simp only [uncorrectable]
  exact .raise ((strike_keeps _ _).after ((dramLog_keeps _ _ _ _ _ _).after ((withLife_keeps _ _).after
    (((modCh_keeps _ _ _).after hstart.satAdd).satAdd))))

theorem takeRead_keeps (patrol : Bool) (extent : Nat) (e : ReadError) (c : Chip) : Keeps takeDamage c (takeRead patrol extent e c) := by
  simp only [takeRead]
  split
  · exact .refl takeDamage_blocks c
  · exact .raiseLimited ((correctOne_keeps _ _ c).mono fun _ _ => rfl)
  · exact uncorrectable_keeps _ _ _ c

/-! ### Commands with branches of their own -/

section
variable (env : Env) (j : Job) (c : Chip)

theorem encConfigure_keeps : Keeps (fun c d => { c with enc := d.enc, trig := d.trig }) c (encConfigure env j c).chip := by
  refine .checked ?_
  cases (rd j.payload 0 1 == c.trig.mainChannel && c.trig.anchored)
  all_goals
    simp only [Bool.false_eq_true, if_false, if_true, reply]
    exact ⟨rfl, rfl, rfl⟩

theorem portQuality_keeps (seen : List (Nat × Nat)) :
    Keeps (fun c d => { c with cal := d.cal, port := d.port }) c (portQuality seen env j c).chip := by
  have hT : Blocks fun c d => { c with cal := d.cal, port := d.port } := ⟨fun _ => rfl, fun _ _ _ => rfl⟩
  refine .checked ?_
  have herrors (n : Nat) (ms : List Nat) : Keeps (fun c d => { c with cal := d.cal, port := d.port }) c
      (ms.foldl (fun c m => match seen[m]? with
        | some (new, errors) => takeErrors n m new errors c
        | none => c) c) := by
    refine .foldl hT (fun c m => ?_) ms c
    cases seen[m]? with
    | none => exact .refl hT c
    | some x => exact takeErrors_keeps _ _ _ _ c
  exact .ite ((modPort_keeps _ _ _).after (herrors _ _)) (herrors _ _)

theorem calFlatField_keeps : Keeps (fun c d => { c with cal := d.cal }) c (calFlatField env j c).chip := by
  refine .checked ?_
  cases (flatCfgOf j.payload).bright
  all_goals
    simp only [Bool.false_eq_true, if_false, if_true]
    exact ⟨rfl, rfl, rfl⟩

theorem calGetResult_keeps : Keeps (fun c d => { c with cal := d.cal }) c (calGetResult env j c).chip := by
  refine .checked ?_
  split
  · exact ⟨rfl, rfl, rfl⟩
  · exact ⟨rfl, rfl, rfl⟩
  · exact .ite ⟨rfl, rfl, rfl⟩ ⟨rfl, rfl, rfl⟩

theorem readResult_keeps (error : Option ReadError) :
    Keeps (fun c d => { c with cal := d.cal, dram := d.dram, life := d.life, orangery := d.orangery }) c
      (withArea error calGetResult env j c).chip := by
  have hresult (c : Chip) : Keeps (fun c d => { c with cal := d.cal, dram := d.dram, life := d.life, orangery := d.orangery }) c
    (calGetResult env j c).chip := (calGetResult_keeps env j c).mono fun _ _ => rfl
  cases error with
  | none => exact hresult c
  | some e =>
    simp only [withArea]
    repeat' split
    · exact hresult c
    · exact (takeRead_keeps _ _ _ c).mono fun _ _ => rfl
    · exact ((takeRead_keeps _ _ _ c).mono fun _ _ => rfl).trans ⟨fun _ => rfl, fun _ _ _ => rfl⟩ (hresult _)

theorem lookbackPin_keeps : Keeps (fun c d => { c with orangery := d.orangery }) c (lookbackPin env j c).chip := by
  refine .checked ?_
  split
  · simp only [pinRegion]
    split
    · exact ⟨rfl, rfl, rfl⟩
    · simp only [apply_ite Prod.snd]
      exact .ite ⟨rfl, rfl, rfl⟩ ⟨rfl, rfl, rfl⟩
  · exact ⟨rfl, rfl, rfl⟩

theorem viewStart_keeps : Keeps (fun c d => { c with view := d.view, pcie := d.pcie }) c (viewStart env j c).chip := by
  refine .checked ?_
  cases h : (vget c.view (rd j.payload 0 1)).cfg.delivery with
  | zero => exact .ite ((suspendView_keeps _ _).after ⟨rfl, rfl, rfl⟩) (.arpRequest ⟨rfl, rfl, rfl⟩)
  | succ n => exact .ite ((suspendView_keeps _ _).after ⟨rfl, rfl, rfl⟩) (.arpRequest ⟨rfl, rfl, rfl⟩)

theorem viewStop_keeps : Keeps (fun c d => { c with view := d.view, pcie := d.pcie }) c (viewStop env j c).chip := by
  refine .checked ?_
  split
  · exact ⟨rfl, rfl, rfl⟩
  · exact ⟨rfl, rfl, rfl⟩

theorem healthStatus_keeps : Keeps (fun c d => { c with life := d.life, pcie := d.pcie }) c (healthStatus env j c).chip := by
  refine .checked ?_
  split
  · exact (ringChannel_keeps _ _ _ _ _).after ⟨rfl, rfl, rfl⟩
  · exact ⟨rfl, rfl, rfl⟩

theorem keyLoad_keeps : Keeps (fun c d => { c with sec := d.sec }) c (keyLoad env j c).chip := by
  refine .checked ?_
  cases (rd j.payload 1 1 == 0) <;> exact ⟨rfl, rfl, rfl⟩

end

end Sys2Proof.Machine

namespace Sys2Proof
open Sys2Proof.Machine

set_option Elab.async false

/-- Settles O15: the blocks each command's effect changes, branch by branch. -/
theorem commandsKeepToTheirBlock : Obligations.CommandsKeepToTheirBlock := by
  unfold Obligations.CommandsKeepToTheirBlock
  refine ⟨.of_keeps exec_encConfigure encConfigure_keeps,
    .of_checked exec_encGetState fun _ _ _ => .ite ⟨rfl, rfl, rfl⟩ ⟨rfl, rfl, rfl⟩,
    .of_checked exec_portDiscover fun _ _ _ => .ite ⟨rfl, rfl, rfl⟩ ⟨rfl, rfl, rfl⟩,
    fun seen => .of_keeps (fun t mb => exec_portGetLinkQuality t mb seen) fun env j c => portQuality_keeps env j c seen,
    .of_checked exec_laneGetStatus fun _ _ _ => ⟨rfl, rfl, rfl⟩, .of_keeps exec_calFlatField calFlatField_keeps,
    .of_checked exec_calGeometry fun _ _ _ => ⟨rfl, rfl, rfl⟩, fun error => .of_keeps (fun t mb => exec_calGetResult t mb error) fun env j c => readResult_keeps env j c error,
    .of_checked exec_calAux fun _ _ _ => ⟨rfl, rfl, rfl⟩, .of_checked exec_calLinks fun _ _ _ => by (split <;> exact ⟨rfl, rfl, rfl⟩), ?_⟩
  refine ⟨.of_checked exec_outSetRecordRing fun _ _ _ => (ringChannel_keeps _ _ _ _ _).after ⟨rfl, rfl, rfl⟩,
    .of_checked exec_outSetTileRing fun _ _ _ => (ringChannel_keeps _ _ _ _ _).after ⟨rfl, rfl, rfl⟩,
    .of_keeps exec_lookbackPin lookbackPin_keeps, .of_checked exec_viewConfigure fun _ _ _ => ⟨rfl, rfl, rfl⟩,
    .of_keeps exec_viewStreamStart viewStart_keeps, .of_keeps exec_viewStreamStop viewStop_keeps,
    .of_checked exec_zipSubmit fun _ _ _ => ⟨rfl, rfl, rfl⟩,
    .of_checked exec_axisConfigure fun _ _ c => (sampledAxis_keeps _ c).trans ⟨fun _ => rfl, fun _ _ _ => rfl⟩ ⟨rfl, rfl, rfl⟩,
    .of_checked exec_axisHome fun _ _ _ => ⟨rfl, rfl, rfl⟩, ?_⟩
  exact ⟨.of_checked exec_ptpStatus fun _ _ _ => ⟨rfl, rfl, rfl⟩, .of_checked exec_pulseCancel fun _ _ _ => ⟨rfl, rfl, rfl⟩,
    .of_checked exec_captureConfigure fun _ _ _ => (ringChannel_keeps _ _ _ _ _).after ⟨rfl, rfl, rfl⟩,
    .of_checked exec_auxToneConfigure fun _ _ _ => ⟨rfl, rfl, rfl⟩,
    .of_checked exec_gangConfigure fun _ _ _ => .ite ⟨rfl, rfl, rfl⟩ ((tellJoin_keeps _).after ⟨rfl, rfl, rfl⟩),
    .of_checked exec_sysSetEventRing fun _ _ _ => ⟨rfl, rfl, rfl⟩, .of_checked exec_sysSetEventMask fun _ _ _ => ⟨rfl, rfl, rfl⟩,
    .of_checked exec_thermalConfigure fun _ _ _ => ⟨rfl, rfl, rfl⟩, .of_keeps exec_healthStatus healthStatus_keeps,
    .of_keeps exec_secKeyLoad keyLoad_keeps⟩

end Sys2Proof

/-! SUPPORT. The blocks the events of each chapter change. -/
namespace Sys2Proof.Machine

-- One proof after another: many at once need a stack each, and together more memory than the check has.
set_option Elab.async false

/-! ### Encoders (R28, R34, R38) -/

/-- The encoders and the line trigger. -/
def takeWeb (c d : Chip) : Chip := { c with enc := d.enc, trig := d.trig }

theorem takeWeb_blocks : Blocks takeWeb := ⟨fun _ => rfl, fun _ _ _ => rfl⟩

theorem withEnc_keeps (x : Vector Enc 8) (c : Chip) : Keeps takeWeb c { c with enc := x } := ⟨rfl, rfl, rfl⟩
theorem withTrig_keeps (x : Trig) (c : Chip) : Keeps takeWeb c { c with trig := x } := ⟨rfl, rfl, rfl⟩

theorem illegalTransition_keeps (ch : Nat) (c : Chip) : Keeps takeWeb c (illegalTransition ch c) :=
  .raiseLimited ((withEnc_keeps _ _).after (.satAdd (.refl takeWeb_blocks c)))

theorem holdInstant_keeps (c : Chip) : Keeps takeWeb c (holdInstant c) := .ite (.refl takeWeb_blocks c) (withTrig_keeps _ _)

theorem mdFollow_keeps (before : Nat) (c : Chip) : Keeps takeWeb c (mdFollow before c) :=
  .ite (.refl takeWeb_blocks c) (.noteSaturated (withTrig_keeps _ c))

theorem directionEvent_keeps (ch : Nat) (c : Chip) : Keeps takeWeb c (directionEvent ch c) :=
  have hstart : Keeps takeWeb c c := .refl takeWeb_blocks c
  .ite hstart.raise.signalVector hstart.raise

/-- What a count changes: the web's blocks, and the axes whose encoder it is. -/
def takeCounted (c d : Chip) : Chip := { c with axis := d.axis, enc := d.enc, trig := d.trig }

theorem noteDeviations_keeps (ch : Nat) (before after : Chip) : Keeps takeCounted after (noteDeviations ch before after) := ⟨rfl, rfl, rfl⟩

theorem takeCount_keeps (ch : Nat) (fwd : Bool) (c : Chip) : Keeps takeCounted c (takeCount ch fwd c) :=
  (directionEvent_keeps _ _).unless ((noteDeviations_keeps _ _ _).after ((withTrig_keeps _ _).maybe ((mdFollow_keeps _ _).maybe
    ((withEnc_keeps _ _).after ((holdInstant_keeps c).maybe ⟨rfl, rfl, rfl⟩)))))

theorem takeIndex_keeps (ch : Nat) (c : Chip) : Keeps takeWeb c (takeIndex ch c) := by
  simp only [takeIndex]
  exact .ite (withEnc_keeps _ _) (.ite (withEnc_keeps _ _) (.raise (.ite ⟨rfl, rfl, rfl⟩ (withEnc_keeps _ _))))

theorem encoderLevels_keeps (ch : Nat) (a b : Bool) (heldA heldB : Nat) (c : Chip) : Keeps takeCounted c (encoderLevels ch a b heldA heldB c) := by
  simp only [encoderLevels]
  split
  · exact ⟨rfl, rfl, rfl⟩
  · split
    · exact (illegalTransition_keeps _ _).after ⟨rfl, rfl, rfl⟩
    · exact .ite ((takeCount_keeps _ _ _).after ⟨rfl, rfl, rfl⟩) ((takeCount_keeps _ _ _).maybe ⟨rfl, rfl, rfl⟩)

theorem indexLevel_keeps (ch : Nat) (z : Bool) (held : Nat) (c : Chip) : Keeps takeWeb c (indexLevel ch z held c) :=
  (takeIndex_keeps _ _).maybe (withEnc_keeps _ _)

theorem zeroSpeed_keeps (ch : Nat) (c : Chip) : Keeps takeWeb c (zeroSpeed ch c) := by
  have hstart : Keeps takeWeb c c := .refl takeWeb_blocks c
  exact .ite hstart (.raise ((withEnc_keeps _ _).after (.ite ((withTrig_keeps _ _).after (holdInstant_keeps c)) hstart)))

/-! ### Virtual cameras (R71, R81) -/

/-- The ports and the virtual cameras. -/
def takeCameras (c d : Chip) : Chip := { c with port := d.port, vcam := d.vcam }

theorem takeCameras_blocks : Blocks takeCameras := ⟨fun _ => rfl, fun _ _ _ => rfl⟩

theorem withVcam_keeps (x : Vector Vcam 4) (c : Chip) : Keeps takeCameras c { c with vcam := x } := ⟨rfl, rfl, rfl⟩

theorem vcamStop_keeps (k : Nat) (c : Chip) : Keeps takeCameras c (vcamStop k c) := .raise (withVcam_keeps _ c)

theorem vcamTake_keeps (k : Nat) (c : Chip) : Keeps takeCameras c (vcamTake k c) := by
  have hstart : Keeps takeCameras c c := .refl takeCameras_blocks c
  simp only [vcamTake]
  split
  · exact hstart
  · exact .ite hstart ((vcamStop_keeps _ _).unless ((withVcam_keeps _ _).after (.ite hstart ⟨rfl, rfl, rfl⟩)))

theorem vcamControl_keeps (k : Nat) (op : VcamOp) (c : Chip) : Keeps takeCameras c (vcamControl k op c) := by
  have hstart : Keeps takeCameras c c := .refl takeCameras_blocks c
  simp only [vcamControl]
  split
  · exact hstart
  · cases op with
    | discovery => exact hstart.emit rfl
    | read r => exact hstart.emit rfl
    | readXml offset length => exact hstart.emit rfl
    | writeReadOnly r => exact hstart.emit rfl
    | connectionConfig links speed => exact hstart.emit rfl
    | acquisitionStart => exact (withVcam_keeps _ c).emit rfl
    | acquisitionStop => exact ((vcamTake_keeps _ _).after (withVcam_keeps _ c)).emit rfl
    | writeUserId x => exact (withVcam_keeps _ c).emit rfl

/-! ### The Orangery and the DRAM behind it (R244, R247, R254) -/

/-- The Orangery and the DRAM channels. -/
def takeHistory (c d : Chip) : Chip := { c with dram := d.dram, orangery := d.orangery }

theorem takeHistory_blocks : Blocks takeHistory := ⟨fun _ => rfl, fun _ _ _ => rfl⟩

theorem modOrangery_keeps (f : Orangery → Orangery) (c : Chip) : Keeps takeHistory c (modOrangery f c) := ⟨rfl, rfl, rfl⟩

theorem notePanic_keeps (k : Nat) (w b : Bool) (c : Chip) : Keeps takeHistory c (notePanic k w b c) := by
  have hstart : Keeps takeHistory c c := .refl takeHistory_blocks c
  have hset (f : DramChannel → DramChannel) (d : Chip) : Keeps takeHistory d (modCh k f d) := ⟨rfl, rfl, rfl⟩
  exact (hset _ _).after hstart.satAdd.satAdd

theorem writerFill_keeps (used : Nat) (c : Chip) : Keeps takeHistory c (writerFill used c) :=
  .foldl takeHistory_blocks (fun _ _ => notePanic_keeps _ _ _ _) _ c

theorem dropBlock_keeps (b : Block) (c : Chip) : Keeps takeHistory c (dropBlock b c) := by
  simp only [dropBlock]
  exact (modOrangery_keeps _ _).after (.satAdd (.refl takeHistory_blocks c))

theorem pinPlaced_keeps (b : Block) (es : List Nat) (c : Chip) : Keeps takeHistory c (pinPlaced b es c) := ⟨rfl, rfl, rfl⟩

theorem jobsReadOn_keeps (c : Chip) : Keeps takeHistory c (jobsReadOn c) :=
  .foldl takeHistory_blocks (fun c _ => (modOrangery_keeps _ _).after (.freeNat (.refl takeHistory_blocks c))) _ c

/-- A round of laying bytes down. The size of an extent and the choice of the next one are made opaque: they would be evaluated here. -/
theorem placeBytes_succ (k n : Nat) (es : List Nat) (c : Chip) : placeBytes (k + 1) n es c =
    let room := extentBytes - c.orangery.used
    let es := if room = 0 then es else es ++ [c.orangery.extent]
    if n ≤ room then some (es, modOrangery (fun o => { o with used := o.used + n }) c)
    else match nextExtent (jobsReadOn c) with
      | none => none
      | some e => placeBytes k (n - room) es (modOrangery (fun o => { overwriteExtent e o with extent := e, used := 0 }) (jobsReadOn c)) := by
  delta placeBytes placeBytes._f
  generalize extentBytes = size
  generalize nextExtent = next
  rfl

theorem placeBytes_keeps (k : Nat) : ∀ (n : Nat) (es : List Nat) (c : Chip) (out : List Nat × Chip),
    placeBytes k n es c = some out → Keeps takeHistory c out.2 := by
  induction k with
  | zero => exact fun _ _ _ _ h => nomatch h
  | succ k ih =>
    intro n es c out h
    rw [placeBytes_succ] at h
    dsimp only at h
    split at h
    · obtain rfl := Option.some.inj h
      exact ⟨rfl, rfl, rfl⟩
    · split at h
      · exact nomatch h
      · exact (ih _ _ _ _ h).after ((modOrangery_keeps _ _).after (jobsReadOn_keeps c))

theorem blockWrite_keeps (staged : Bool) (c : Chip) : Keeps takeHistory c (blockWrite staged c) := by
  simp only [blockWrite]
  split
  · exact .refl takeHistory_blocks c
  · have htaken (f : Orangery → Orangery) (used : Nat) : Keeps takeHistory c (writerFill used (modOrangery f c)) :=
      (writerFill_keeps _ _).after (modOrangery_keeps _ c)
    refine .ite ((dropBlock_keeps _ _).after (htaken _ _)) ?_
    split
    · exact (dropBlock_keeps _ _).after (htaken _ _)
    · next hplace =>
      exact (pinPlaced_keeps _ _ _).after ((modOrangery_keeps _ _).after ((placeBytes_keeps _ _ _ _ _ hplace).after (htaken _ _)))

theorem makeRoom_keeps (n : Nat) (c : Chip) : Keeps takeHistory c (makeRoom n c) :=
  .foldl takeHistory_blocks (fun c _ => .ite (blockWrite_keeps true c) (.refl takeHistory_blocks c)) _ c

theorem stageBlock_keeps (b : Block) (c : Chip) : Keeps takeHistory c (stageBlock b c) :=
  .ite ((dropBlock_keeps _ _).after (makeRoom_keeps _ c))
    ((writerFill_keeps _ _).after ((modOrangery_keeps _ _).after (makeRoom_keeps _ c)))

theorem flushLanes_keeps (ls : List Nat) (c : Chip) : Keeps takeHistory c (flushLanes ls c) := by
  refine .foldl takeHistory_blocks (fun c l => ?_) ls c
  cases blockInProgress c.orangery l with
  | none => exact .refl takeHistory_blocks c
  | some b => exact (stageBlock_keeps _ _).after (modOrangery_keeps _ c)

/-- What the start of a look-back job may take: its channel, and the engine of the shadow. -/
def takeJob (c d : Chip) : Chip := { c with dram := d.dram, engines := d.engines, orangery := d.orangery, pcie := d.pcie }

theorem interruptShadow_keeps (c : Chip) : Keeps takeJob c (interruptShadow c) := by
  simp only [interruptShadow]
  split <;> exact ⟨rfl, rfl, rfl⟩

theorem startReplay_keeps (j : LbJob) (c : Chip) : Keeps takeHistory c (startReplay j c) := ⟨rfl, rfl, rfl⟩

theorem takeChannel_keeps (ch fn : Nat) (c : Chip) : Keeps (fun c d => { c with pcie := d.pcie }) c (takeChannel ch fn c) := ⟨rfl, rfl, rfl⟩

theorem jobStart_keeps (c : Chip) : Keeps takeJob c (jobStart c) := by
  have hstart : Keeps takeJob c c := ⟨rfl, rfl, rfl⟩
  simp only [jobStart]
  refine .ite hstart ?_
  split
  · exact hstart
  · next j _ =>
    have hflushed : Keeps takeJob c (flushFor j c) := (flushLanes_keeps _ c).after hstart
    refine .ite ((startReplay_keeps _ _).after ((interruptShadow_keeps _).after hflushed)) ?_
    split
    · exact (modOrangery_keeps _ _).after ((takeChannel_keeps _ _ _).after hflushed)
    · exact hflushed

theorem shadowStart_keeps (c : Chip) : Keeps (fun c d => { c with engines := d.engines, lane := d.lane }) c (shadowStart c) := by
  simp only [shadowStart]
  refine .ite ⟨rfl, rfl, rfl⟩ ?_
  split <;> exact ⟨rfl, rfl, rfl⟩

theorem rotundaSweep_keeps (roll : Nat) (c : Chip) : Keeps (fun c d => { c with rotunda := d.rotunda }) c (rotundaSweep roll c) := by
  simp only [rotundaSweep]
  repeat' split
  all_goals exact ⟨rfl, rfl, rfl⟩

theorem zipStart_keeps (c : Chip) : Keeps (fun c d => { c with pcie := d.pcie, zip := d.zip }) c (zipStart c) := by
  simp only [zipStart]
  repeat' split
  all_goals exact ⟨rfl, rfl, rfl⟩

theorem senderReport_keeps (k : Nat) (c : Chip) : Keeps (fun c _ => c) c (senderReport k c) :=
  .ite ⟨rfl, rfl, rfl⟩ (.emit ⟨rfl, rfl, rfl⟩ rfl)

/-! ### Axes and the marks queued on them (R319, R325, R328) -/

/-- The axes and the marking heads. -/
def takeMotion (c d : Chip) : Chip := { c with axis := d.axis, mark := d.mark }

theorem takeMotion_blocks : Blocks takeMotion := ⟨fun _ => rfl, fun _ _ _ => rfl⟩

theorem modAxis_keeps (k : Nat) (f : Axis → Axis) (c : Chip) : Keeps (fun c d => { c with axis := d.axis }) c (modAxis k f c) :=
  ⟨rfl, rfl, rfl⟩
theorem modHead_keeps (h : Nat) (f : Head → Head) (c : Chip) : Keeps takeMotion c (modHead h f c) := ⟨rfl, rfl, rfl⟩
theorem withMark_keeps (x : Marking) (c : Chip) : Keeps takeMotion c { c with mark := x } := ⟨rfl, rfl, rfl⟩

theorem homeDone_keeps (k result : Nat) (c : Chip) : Keeps (fun c d => { c with axis := d.axis }) c (homeDone k result c) :=
  .raise ⟨rfl, rfl, rfl⟩
theorem homeFails_keeps (k result : Nat) (c : Chip) : Keeps (fun c d => { c with axis := d.axis }) c (homeFails k result c) :=
  (homeDone_keeps _ _ _).after (modAxis_keeps _ _ c)

theorem homeBackoffDone_keeps (k : Nat) (c : Chip) : Keeps (fun c d => { c with axis := d.axis }) c (homeBackoffDone k c) :=
  .ite ⟨rfl, rfl, rfl⟩ ((homeDone_keeps _ _ _).after (modAxis_keeps _ _ c))

theorem homeMaxTravel_keeps (k : Nat) (c : Chip) : Keeps (fun c d => { c with axis := d.axis }) c (homeMaxTravel k c) := by
  simp only [homeMaxTravel]
  split
  · exact .ite (homeFails_keeps _ _ c) ⟨rfl, rfl, rfl⟩
  · exact ⟨rfl, rfl, rfl⟩

theorem homeReference_keeps (k : Nat) (c : Chip) : Keeps (fun c d => { c with axis := d.axis }) c (homeReference k c) := by
  simp only [homeReference]
  split
  · exact ⟨rfl, rfl, rfl⟩
  · exact .ite ⟨rfl, rfl, rfl⟩ (modAxis_keeps _ _ c)

theorem missMark_keeps (h cause shortfall : Nat) (m : Mark) (c : Chip) : Keeps takeMotion c (missMark h cause shortfall m c) :=
  .raise (.ite ((modAxis_keeps _ _ _).after (.satAdd (withMark_keeps _ c))) (withMark_keeps _ c))

theorem missAxis_keeps (k : Nat) (c : Chip) : Keeps takeMotion c (missAxis k c) := by
  simp only [missAxis, missQueue]
  split
  · exact (Keeps.foldl takeMotion_blocks (fun c m => missMark_keeps _ _ _ m c) _ _).after (modHead_keeps _ _ c)
  · exact .refl takeMotion_blocks c

theorem axisFault_keeps (k cause : Nat) (keeps : Bool) (c : Chip) : Keeps takeMotion c (axisFault k cause keeps c) :=
  (missAxis_keeps _ _).after ((modAxis_keeps _ _ c).mono fun _ _ => rfl)

theorem switchAsserted_keeps (k : Nat) (positive : Bool) (c : Chip) : Keeps takeMotion c (switchAsserted k positive c) := by
  have hset (f : Axis → Axis) : Keeps takeMotion c (modAxis k f c) := ⟨rfl, rfl, rfl⟩
  simp only [switchAsserted]
  refine .ite (.refl takeMotion_blocks c) ?_
  split
  · exact .ite ((homeReference_keeps _ _).after (hset _)) ((homeFails_keeps _ _ _).after (hset _).raise)
  · exact .ite ((axisFault_keeps _ _ _ _).after (.raise ((modAxis_keeps _ _ _).after (hset _)))) (hset _)

theorem homeFound_keeps (k : Nat) (c : Chip) : Keeps takeMotion c (homeFound k c) := by
  simp only [homeFound]
  split
  · exact .refl takeMotion_blocks c
  · exact .ite (.ite ((homeReference_keeps k c).mono fun _ _ => rfl) (.refl takeMotion_blocks c)) (switchAsserted_keeps _ _ c)

/-! ### Time and network (R344, R357, R362, R365) -/

/-- The Sundial and what hangs on it. -/
def takeTime (c d : Chip) : Chip := { c with time := d.time }

theorem modTime_keeps (f : Time → Time) (c : Chip) : Keeps takeTime c (modTime f c) := ⟨rfl, rfl, rfl⟩
theorem modPulse_keeps (o : Nat) (f : Pulse → Pulse) (c : Chip) : Keeps takeTime c (modPulse o f c) := ⟨rfl, rfl, rfl⟩

theorem ethReceive_keeps (k : Nat) (f : EthFrame) (c : Chip) : Keeps takeTime c (ethReceive k f c) := by
  have hstart : Keeps takeTime c c := ⟨rfl, rfl, rfl⟩
  simp only [ethReceive]
  refine .ite hstart ?_
  cases f with
  | arpRequest target ip mac => exact .ite (hstart.emit rfl) hstart
  | icmpEcho target ip mac data => exact .ite (hstart.emit rfl) hstart
  | arpReply ip mac => exact modTime_keeps _ c
  | rtcp x => exact hstart
  | other => exact hstart

theorem refLost_keeps (c : Chip) : Keeps takeTime c (refLost c) := .ite ⟨rfl, rfl, rfl⟩ (.raise (modTime_keeps _ c))

theorem ppsOut_keeps (c : Chip) : Keeps takeTime c (ppsOut c) := .ite (.emit (modTime_keeps _ c) rfl) ⟨rfl, rfl, rfl⟩

theorem firePulse_keeps (o : Nat) (c : Chip) : Keeps takeTime c (firePulse o c) := .emit (modPulse_keeps _ _ c) rfl

theorem pulseBoundary_keeps (o : Nat) (c : Chip) : Keeps takeTime c (pulseBoundary o c) :=
  have hstart : Keeps takeTime c c := ⟨rfl, rfl, rfl⟩
  .ite hstart (.ite (.ite hstart ((modPulse_keeps _ _ _).after (firePulse_keeps o c)))
    (.ite hstart ((modPulse_keeps _ _ _).after ((firePulse_keeps o c).unless hstart))))

/-! ### The auxiliary inputs (R378, R389) -/

/-- The auxiliary inputs. -/
def takeAux (c d : Chip) : Chip := { c with aux := d.aux }

theorem auxWatch_keeps (k : Nat) (samples : List Bool) (c : Chip) : Keeps takeAux c (auxWatch k samples c) := by
  simp only [auxWatch]
  split
  · exact .ite ⟨rfl, rfl, rfl⟩ ⟨rfl, rfl, rfl⟩
  · exact ⟨rfl, rfl, rfl⟩

theorem modAux_keeps (k : Nat) (f : Aux → Aux) (c : Chip) : Keeps takeAux c (modAux k f c) := ⟨rfl, rfl, rfl⟩

theorem auxOverload_keeps (k : Nat) (samples : List Bool) (c : Chip) : Keeps takeAux c (auxOverload k samples c) :=
  .ite ⟨rfl, rfl, rfl⟩ ((modAux_keeps _ _ _).after (auxWatch_keeps _ _ c))

theorem toneBlock_keeps (d : Nat) (c : Chip) : Keeps takeAux c (toneBlock d c) :=
  .ite ⟨rfl, rfl, rfl⟩ (.ite ⟨rfl, rfl, rfl⟩ (.raise ⟨rfl, rfl, rfl⟩))

/-! ### The gang (R394, R402, R407) -/

/-- The gang. -/
def takeGang (c d : Chip) : Chip := { c with gang := d.gang }

theorem modSeam_keeps (k : Nat) (f : Seam → Seam) (c : Chip) : Keeps (fun c d => { c with gang := d.gang, seam := d.seam }) c (modSeam k f c) :=
  .ite ⟨rfl, rfl, rfl⟩ ⟨rfl, rfl, rfl⟩

theorem modGang_keeps (f : Gang → Gang) (c : Chip) : Keeps takeGang c (modGang f c) := ⟨rfl, rfl, rfl⟩

theorem sendSarec_keeps (ports : List Nat) (kind : Nat) (data : List Byte) (c : Chip) : Keeps takeGang c (sendSarec ports kind data c) :=
  have hT : Blocks takeGang := ⟨fun _ => rfl, fun _ _ _ => rfl⟩
  .foldl hT (fun c _ => .emit (.refl hT c) rfl) ports c

theorem tagReceived_keeps (tag : Tag) (pitch : Option (Nat × Nat)) (c : Chip) : Keeps takeGang c (tagReceived tag pitch c) :=
  .ite ⟨rfl, rfl, rfl⟩ ((sendSarec_keeps _ _ _ _).after (modGang_keeps _ c))

theorem gangSplit_keeps (cause : Nat) (c : Chip) : Keeps takeGang c (gangSplit cause c) := .raise ⟨rfl, rfl, rfl⟩

theorem gangForm_keeps (nodes : List Nat) (encoders : Nat) (overlaps : List Nat) (c : Chip) :
    Keeps (fun c d => { c with gang := d.gang, trig := d.trig }) c (gangForm nodes encoders overlaps c) :=
  .ite ⟨rfl, rfl, rfl⟩ (.ite ((gangSplit_keeps _ _).after ⟨rfl, rfl, rfl⟩) ⟨rfl, rfl, rfl⟩)

theorem exchangeReceived_keeps (x : GangExchange) (c : Chip) : Keeps takeGang c (exchangeReceived x c) := by
  have hstart : Keeps takeGang c c := ⟨rfl, rfl, rfl⟩
  simp only [exchangeReceived]
  refine .ite hstart ?_
  cases x with
  | samples line pixels column0 pitch => exact modGang_keeps _ c
  | runs line blobs => exact modGang_keeps _ c
  | lowerGrid line column0 pitch count => exact modGang_keeps _ c
  | viewOffset position offset => exact (sendSarec_keeps _ _ _ _).after (modGang_keeps _ c)
  | join md => exact .ite ((tellJoin_keeps _).after (modGang_keeps _ c)) hstart

/-! ### A channel that reads its last next pointer again (R447) -/

/-- A device whose DMA channel 0 has come to the end of its chain. -/
def channelAtItsEnd : State := { chip := { pcie := { dma := vset (Vector.replicate 32 {}) 0 { startedSinceReset := true } } } }

/-- A next pointer that is not aligned is written back as an error into the descriptor it stood in. -/
theorem channelAtItsEnd_writes_host :
    (channelAtItsEnd.put (dmaDoorbell 0 1 (channelAtItsEnd.tick 0))).host.read 56 = 1 := by decide

end Sys2Proof.Machine

namespace Sys2Proof
open Sys2Proof.Machine

set_option Elab.async false

/-- Settles O16: the blocks each event's effect changes, branch by branch. -/
theorem machineEventsKeepToTheirBlock : Obligations.MachineEventsKeepToTheirBlock := by
  unfold Obligations.MachineEventsKeepToTheirBlock
  refine ⟨fun ch a b heldA heldB => .of_keeps (fun t => exec_encoderCount t ch a b heldA heldB) (encoderLevels_keeps ch a b heldA heldB),
    fun ch z held => .of_keeps (fun t => exec_indexPulse t ch z held) (indexLevel_keeps ch z held),
    fun ch => .of_keeps (fun t => exec_zeroSpeedTimeout t ch) (zeroSpeed_keeps ch),
    fun k op => .of_keeps (fun t => exec_vcamControlPacket t k op) (vcamControl_keeps k op),
    fun port => .of_put fun t s => ⟨_, exec_recoveryAttempt t port s, .ite ⟨rfl, rfl, rfl⟩ ⟨rfl, rfl, rfl⟩⟩,
    fun seam => .of_put fun t s => ⟨_, exec_seamPositionApply t seam s, modSeam_keeps _ _ _⟩,
    fun roll => .of_keeps (fun t => exec_rotundaSweep t roll) (rotundaSweep_keeps roll), ?_⟩
  refine ⟨.of_keeps exec_shadowPeriodStart shadowStart_keeps,
    .of_put fun t s => ⟨_, exec_orangeryFlushTimeout t s, .ite (flushLanes_keeps _ _) ⟨rfl, rfl, rfl⟩⟩,
    .of_keeps exec_lookbackJobStart jobStart_keeps, .of_keeps exec_zipJobStart zipStart_keeps,
    fun stream => .of_keeps (fun t => exec_rtcpSenderReport t stream) (senderReport_keeps stream), ?_⟩
  refine ⟨fun axis => .of_put fun t s => ⟨_, exec_axisHoldDelay t axis s, rfl, rfl, rfl⟩,
    fun axis => .of_keeps (fun t => exec_homeReference t axis) (homeFound_keeps axis),
    fun axis => .of_keeps (fun t => exec_homeBackoffDone t axis) (homeBackoffDone_keeps axis),
    fun axis => .of_keeps (fun t => exec_homeMaxTravel t axis) (homeMaxTravel_keeps axis), ?_⟩
  refine ⟨fun port frame => .of_keeps (fun t => exec_ethFrameReceived t port frame) (ethReceive_keeps port frame),
    .of_keeps exec_ref10mLoss refLost_keeps, .of_keeps exec_ppsOutEdge ppsOut_keeps,
    fun output => .of_keeps (fun t => exec_pulseBoundary t output) (pulseBoundary_keeps output),
    fun ch samples => .of_keeps (fun t => exec_auxOverloadChange t ch samples) (auxOverload_keeps ch samples),
    fun d => .of_keeps (fun t => exec_toneBlockEnd t d) (toneBlock_keeps d), ?_⟩
  exact ⟨fun tag pitch => .of_keeps (fun t => exec_sarecTagReceived t tag pitch) (tagReceived_keeps tag pitch),
    fun nodes encoders overlaps => .of_keeps (fun t => exec_gangForm t nodes encoders overlaps) (gangForm_keeps nodes encoders overlaps),
    fun x => .of_keeps (fun t => exec_gangExchangeReceived t x) (exchangeReceived_keeps x),
    fun ch => .of_put fun t s => ⟨_, exec_dramRefreshWindowEnd t ch s, rfl, rfl, rfl⟩,
    .of_keeps exec_dramZqCalibration fun _ => ⟨rfl, rfl, rfl⟩⟩

/-- Refutes O17: a doorbell of a DMA channel at the end of its chain reads the next pointer again, and where that is not aligned the
device writes the descriptor's status into host memory, which the statement says stays (R447). -/
theorem not_systemEventsKeepToTheirBlock : ¬ Obligations.SystemEventsKeepToTheirBlock := by
  unfold Obligations.SystemEventsKeepToTheirBlock
  rintro ⟨-, -, -, -, -, -, -, -, -, -, -, -, -, -, -, -, hdoorbell⟩
  obtain ⟨u, hrow, -, ⟨hhost, -⟩, -⟩ := hdoorbell 0 1 0 channelAtItsEnd
  have hput : channelAtItsEnd.put (dmaDoorbell 0 1 (channelAtItsEnd.tick 0)) = u := by simpa [exec_dmaDoorbell] using hrow
  have hread := channelAtItsEnd_writes_host
  rw [hput, hhost] at hread
  exact absurd hread (by decide)

end Sys2Proof

/-! SUPPORT. Chapter 17: what raising an event does to the queue, what a ring entry writes, and what a held vector sends; chapter 22: the
saturating counters. -/
namespace Sys2Proof.Machine

-- One proof after another: many at once need a stack each, and together more memory than the check has.
set_option Elab.async false

/-! ### The event queue (R459, R461, R462) -/

section
variable {c : Chip} {e : Event}

@[simp] theorem journalEvent_evq (e : Event) (c : Chip) : (journalEvent e c).evq = c.evq := by
  simp only [journalEvent]
  by_cases h : c.life.day = utcDay c <;> simp only [h, if_true, if_false] <;> split <;> rfl

/-- Neither the ring nor the FIFO takes one more. -/
def EventQueue.crowded (q : EventQueue) : Prop := (q.ring.enabled = true ∧ q.ring.full = true) ∨ 256 ≤ q.fifo.length

theorem enqueueEvent_of_crowded (h : c.evq.crowded) : (enqueueEvent e c).evq =
    { c.evq with
      lostTotal := satU 32 (c.evq.lostTotal + 1), lostPending := satU 32 (c.evq.lostPending + 1)
      firstLost := if c.evq.lostPending = 0 then e.sequence else c.evq.firstLost } := by
  have hfull : ((c.evq.ring.enabled && c.evq.ring.full) || decide (256 ≤ c.evq.fifo.length)) = true := by simpa [EventQueue.crowded] using h
  simp only [enqueueEvent, hfull, if_true]

theorem enqueueEvent_of_room (h : ¬ c.evq.crowded) : (enqueueEvent e c).evq = { c.evq with fifo := c.evq.fifo ++ [e] } := by
  have hroom : ((c.evq.ring.enabled && c.evq.ring.full) || decide (256 ≤ c.evq.fifo.length)) = false := by
    simpa [EventQueue.crowded] using h
  simp only [enqueueEvent, hroom, Bool.false_eq_true, if_false]

theorem enqueueEvent_nextSequence (e : Event) (c : Chip) : (enqueueEvent e c).evq.nextSequence = c.evq.nextSequence := by
  by_cases h : c.evq.crowded
  · rw [enqueueEvent_of_crowded h]
  · rw [enqueueEvent_of_room h]

theorem enqueueEvent_fifo_le (e : Event) {c : Chip} (h : c.evq.fifo.length ≤ 256) : (enqueueEvent e c).evq.fifo.length ≤ 256 := by
  by_cases hcrowded : c.evq.crowded
  · rw [enqueueEvent_of_crowded hcrowded]
    exact h
  · rw [enqueueEvent_of_room hcrowded]
    simp only [EventQueue.crowded, not_or] at hcrowded
    simp only [List.length_append, List.length_singleton]
    omega

theorem carryEvent_nextSequence (e : Event) (c : Chip) : (carryEvent e c).evq.nextSequence = c.evq.nextSequence := by
  simp only [carryEvent]
  split
  · rfl
  · exact enqueueEvent_nextSequence e c

theorem carryEvent_fifo_le (e : Event) {c : Chip} (h : c.evq.fifo.length ≤ 256) : (carryEvent e c).evq.fifo.length ≤ 256 := by
  simp only [carryEvent]
  split
  · exact h
  · exact enqueueEvent_fifo_le e h

theorem carryEvent_of_open (h : c.modes.lockdown = false) (e : Event) : carryEvent e c = enqueueEvent e c := by
  simp [carryEvent, h]

/-- The device as an event finds the queue: its sequence taken, its journal entry made. -/
def Chip.beforeCarry (c : Chip) (journal : Bool) (e : Event) : Chip := if journal then journalEvent e c.sequenceTaken else c.sequenceTaken

theorem beforeCarry_evq (journal : Bool) (c : Chip) (e : Event) : (c.beforeCarry journal e).evq = c.sequenceTaken.evq := by
  cases journal
  · rfl
  · exact journalEvent_evq e _

theorem beforeCarry_modes (journal : Bool) (c : Chip) (e : Event) : (c.beforeCarry journal e).modes = c.modes := by
  cases journal
  · rfl
  · exact journalEvent_modes e _

/-- An enabled event of the native personality is carried, once the device raises events (R464, R541). -/
theorem raiseNow_of_enabled {code sev : Nat} (hboot : c.modes.boot = .done) (henabled : eventEnabled c code sev = true)
    (hnative : c.modes.personality = 0) (journal : Bool) (source : Nat) (payload : List Byte) :
    raiseNow journal code sev source payload c =
      carryEvent (c.nextEvent code sev source payload) (c.beforeCarry journal (c.nextEvent code sev source payload)) := by
  rw [raiseNow_eq, if_neg (by simp [raisesEvents, hboot, henabled, hnative])]
  rfl

theorem raiseNow_of_masked {code sev : Nat} (h : eventEnabled c code sev = false) (journal : Bool) (source : Nat) (payload : List Byte) :
    raiseNow journal code sev source payload c = c := by
  rw [raiseNow_eq, if_pos (by simp [h])]

theorem raiseNow_fifo_le (journal : Bool) (code sev source : Nat) (payload : List Byte) (h : c.evq.fifo.length ≤ 256) :
    (raiseNow journal code sev source payload c).evq.fifo.length ≤ 256 := by
  rw [raiseNow_eq]
  split
  · exact h
  · refine carryEvent_fifo_le _ (c := c.beforeCarry journal _) ?_
    rw [beforeCarry_evq]
    exact h

end

/-! ### Saturating counters (R549) -/

theorem noteSaturated_of_less {command offset inst width value : Nat} {c : Chip} (h : value ≠ 2 ^ width - 1) :
    noteSaturated command offset inst width value c = c := if_neg fun hc => h hc.1

theorem noteSaturated_of_marked {command offset inst width value : Nat} {c : Chip} (h : (command, offset, inst) ∈ c.saturated) :
    noteSaturated command offset inst width value c = c := if_neg fun hc => by simp [h] at hc

theorem noteSaturated_of_new {command offset inst width : Nat} {c : Chip} (h : (command, offset, inst) ∉ c.saturated) :
    noteSaturated command offset inst width (2 ^ width - 1) c =
      raiseWith false 0x0D09 1 0x7F (le 2 command ++ le 2 offset ++ le 1 inst ++ zeros 7)
        { c with saturated := c.saturated ++ [(command, offset, inst)] } :=
  if_pos ⟨rfl, by simpa using h⟩

@[simp] theorem signalGroup_saturated (code : Nat) (c : Chip) : (signalGroup code c).saturated = c.saturated := by
  simp only [signalGroup, signalVector]
  repeat' split
  all_goals rfl

@[simp] theorem journalEvent_saturated (e : Event) (c : Chip) : (journalEvent e c).saturated = c.saturated := by
  simp only [journalEvent]
  by_cases h : c.life.day = utcDay c <;> simp only [h, if_true, if_false] <;> split <;> rfl

@[simp] theorem enqueueEvent_saturated (e : Event) (c : Chip) : (enqueueEvent e c).saturated = c.saturated := by
  have hsignalled : (if c.evq.ring.enabled then c else signalGroup e.code c).saturated = c.saturated := by split <;> simp
  simp only [enqueueEvent]
  split
  · exact hsignalled
  · exact hsignalled

theorem carryEvent_saturated (e : Event) (c : Chip) : (carryEvent e c).saturated = c.saturated := by
  simp only [carryEvent]
  split
  · rfl
  · exact enqueueEvent_saturated e c

theorem beforeCarry_saturated (journal : Bool) (c : Chip) (e : Event) : (c.beforeCarry journal e).saturated = c.saturated := by
  cases journal
  · rfl
  · exact journalEvent_saturated e _

theorem raiseNow_saturated (journal : Bool) (code sev source : Nat) (payload : List Byte) (c : Chip) :
    (raiseNow journal code sev source payload c).saturated = c.saturated := by
  rw [raiseNow_eq]
  split
  · rfl
  · exact (carryEvent_saturated _ (c.beforeCarry journal _)).trans (beforeCarry_saturated journal c _)

theorem raiseWith_saturated (journal : Bool) (code sev source : Nat) (payload : List Byte) (c : Chip) :
    (raiseWith journal code sev source payload c).saturated = c.saturated := by
  simp only [raiseWith]
  split
  · rfl
  · exact raiseNow_saturated _ _ _ _ _ c

theorem raiseWith_nextSequence {c : Chip} {code sev : Nat} {payload : List Byte}
    (hunheld : lodgeRestarts c = true → raisedByFirmware code payload = false) (hboot : c.modes.boot = .done)
    (henabled : eventEnabled c code sev = true) (hnative : c.modes.personality = 0) (journal : Bool) (source : Nat) :
    (raiseWith journal code sev source payload c).evq.nextSequence = (c.evq.nextSequence + 1) % 2 ^ 32 := by
  rw [raiseWith_of_unheld hunheld, raiseNow_of_enabled hboot henabled hnative, carryEvent_nextSequence, beforeCarry_evq]
  rfl

/-- A counter at all ones is marked. -/
theorem noteSaturated_marks {command offset inst width : Nat} (c : Chip) :
    (command, offset, inst) ∈ (noteSaturated command offset inst width (2 ^ width - 1) c).saturated := by
  by_cases h : (command, offset, inst) ∈ c.saturated
  · rw [noteSaturated_of_marked h]
    exact h
  · rw [noteSaturated_of_new h, raiseWith_saturated]
    exact List.mem_append_right _ (List.mem_singleton_self _)

/-! ### Held vectors (R437, R439) -/

/-- A vector whose message is held back: masked, or the function is in D3hot. -/
def Chip.holds (c : Chip) (v : Nat) : Prop := (vget c.pcie.msix v).mask = true ∨ c.pcie.d3hot = true

section
variable {c : Chip} {v : Nat}

theorem signalVector_of_holds (h : c.holds v) :
    signalVector v c = { c with pcie := { c.pcie with msix := vset c.pcie.msix v { vget c.pcie.msix v with pending := true } } } := by
  have hheld : ((vget c.pcie.msix v).mask || c.pcie.d3hot) = true := by simpa [Chip.holds] using h
  simp only [signalVector, hheld, if_true]

theorem holds_signalVector (hv : v < 64) (h : c.holds v) : (signalVector v c).holds v := by
  rw [signalVector_of_holds h]
  simpa only [Chip.holds, vget_vset_self _ hv] using h

/-- However often a held vector is signalled, it is sent no time and stays pending. -/
theorem repeat_signalVector_of_holds (hv : v < 64) (h : c.holds v) (n : Nat) :
    let d := Nat.repeat (signalVector v) n c
    d.holds v ∧ d.out = c.out ∧ (0 < n → (vget d.pcie.msix v).pending = true) := by
  induction n with
  | zero => exact ⟨h, rfl, fun hn => absurd hn (Nat.lt_irrefl 0)⟩
  | succ n ih =>
    obtain ⟨hheld, hout, -⟩ := ih
    refine ⟨holds_signalVector hv hheld, ?_, fun _ => ?_⟩
    · rw [Nat.repeat, signalVector_of_holds hheld]
      exact hout
    · rw [Nat.repeat, signalVector_of_holds hheld]
      exact congrArg MsixEntry.pending (vget_vset_self _ hv _)

/-- Unmasking an entry, as the write of its control word does. -/
def Chip.unmasked (c : Chip) (v : Nat) : Chip :=
  { c with pcie := { c.pcie with msix := vmod c.pcie.msix v fun e => { e with mask := false } } }

theorem msixWrite_unmasks (v : Nat) (c : Chip) : msixWrite v 3 0 c = releaseVector v (c.unmasked v) := rfl

theorem vget_unmasked (hv : v < 64) : vget (c.unmasked v).pcie.msix v = { vget c.pcie.msix v with mask := false } := vget_vmod_self _ hv _

theorem releaseVector_of_pending (hp : (vget c.pcie.msix v).pending = true) (hm : (vget c.pcie.msix v).mask = false)
    (hd : c.pcie.d3hot = false) :
    let e := vget c.pcie.msix v
    releaseVector v c = emit (.msix v (e.addrHi * 2 ^ 32 + e.addrLo) e.data)
      { c with pcie := { c.pcie with msix := vset c.pcie.msix v { e with pending := false } } } := by
  simp only [releaseVector, hp, hm, hd]
  rfl

theorem releaseVector_of_clear (h : (vget c.pcie.msix v).pending = false) : releaseVector v c = c := by
  simp only [releaseVector, h]
  rfl

end

/-! ### Ring entries and head blocks (R203) -/

theorem Mem.readBytes_writeBytes_self {m : Mem} (a : Nat) (bs : List Byte) (hm : m.wf = true) :
    (m.writeBytes a bs).readBytes a bs.length = bs := by
  refine List.ext_getElem (by simp [Mem.readBytes]) fun i _ hi => ?_
  simp only [Mem.readBytes, List.getElem_map, List.getElem_range, Mem.read_writeBytes_inside a hm hi]
  exact (List.getElem_eq_getD 0).symm

theorem Mem.readBytes_writeBytes_outside {m : Mem} {a b n : Nat} {bs : List Byte} (h : b + n ≤ a ∨ a + bs.length ≤ b) :
    (m.writeBytes a bs).readBytes b n = m.readBytes b n := by
  refine List.map_congr_left fun i hi => Mem.read_writeBytes_outside m ?_
  rw [List.mem_range] at hi
  omega

/-- The head block of a ring: its head after the entry, then two totals. -/
def Ring.headBlock (head depth total : Nat) : List Byte := le 4 head ++ le 4 depth ++ le 4 total ++ zeros 20

theorem Ring.headBlock_length (head depth total : Nat) : (Ring.headBlock head depth total).length = 32 := by simp [Ring.headBlock]

section
variable {r : Ring} {data : List Byte} {depth total : Nat} {c : Chip}

theorem ringSignal_head (vector : Nat) (force : Bool) (r : Ring) (c : Chip) : (ringSignal vector force r c).1.head = r.head := by
  simp only [ringSignal]; split <;> rfl

theorem ringPut_head : (ringPut r data depth total c).1.head = (r.head + 1) % 2 ^ 32 := by
  simp only [ringPut, ringEntry, ringSignal_head]
  rfl

/-- An output that is no write to host memory. -/
theorem hostAfter_msix (v a d : Nat) (m : Mem) : hostAfter [.msix v a d] m = m := rfl

theorem hostAfter_append (os ps : List Output) (m : Mem) : hostAfter (os ++ ps) m = hostAfter ps (hostAfter os m) := by
  induction os generalizing m with
  | nil => rfl
  | cons o os ih => cases o <;> exact ih _

theorem hostAfter_signalVector (v : Nat) (c : Chip) (m : Mem) : hostAfter (signalVector v c).out.reverse m = hostAfter c.out.reverse m := by
  simp only [signalVector]
  split
  · rfl
  · simp only [emit, List.reverse_cons, hostAfter_append]
    rfl

theorem hostAfter_ringSignal (vector : Nat) (force : Bool) (r : Ring) (c : Chip) (m : Mem) :
    hostAfter (ringSignal vector force r c).2.out.reverse m = hostAfter c.out.reverse m := by
  simp only [ringSignal]
  split
  · exact hostAfter_signalVector _ c m
  · rfl

/-- What a ring entry leaves in host memory: the entry, then the head block. -/
theorem hostAfter_ringPut (hout : c.out = []) (m : Mem) : hostAfter (ringPut r data depth total c).2.out.reverse m =
    (m.writeBytes (r.base + r.entrySize * (r.head % r.entryCount)) data).writeBytes r.headAddr
      (Ring.headBlock ((r.head + 1) % 2 ^ 32) depth total) := by
  simp only [ringPut, hostAfter_ringSignal, ringEntry, emit, hout]
  rfl

end

/-- Where the slots of a ring end. -/
theorem Ring.slot_le (r : Ring) (h : 0 < r.entryCount) :
    r.base + r.entrySize * (r.head % r.entryCount) + r.entrySize ≤ r.base + r.entrySize * r.entryCount := by
  have hslot : r.head % r.entryCount + 1 ≤ r.entryCount := Nat.mod_lt _ h
  calc r.base + r.entrySize * (r.head % r.entryCount) + r.entrySize
      = r.base + r.entrySize * (r.head % r.entryCount + 1) := by ring
    _ ≤ r.base + r.entrySize * r.entryCount := Nat.add_le_add_left (Nat.mul_le_mul_left _ hslot) _

end Sys2Proof.Machine

namespace Sys2Proof
open Sys2Proof.Machine

set_option Elab.async false

/-- Settles O18: an event that is not held takes its sequence, and the queue takes it or counts it (R459, R461, R462, R464). -/
theorem raisedEventsTakeTheNextSequence : Obligations.RaisedEventsTakeTheNextSequence := by
  intro journal code sev source payload c u full
  refine ⟨fun hfifo => ?_, fun hrestart hfirmware => ?_, fun hunheld => ?_⟩
  · simp only [u, raiseWith]
    split
    · exact hfifo
    · exact raiseNow_fifo_le _ _ _ _ _ hfifo
  · simp only [u, raiseWith, hrestart, hfirmware, Bool.and_self, if_true]
  · have hnow : u = raiseNow journal code sev source payload c := raiseWith_of_unheld hunheld journal sev source
    refine ⟨fun hsev hcode hmask => ?_, fun hboot henabled hnative => ?_⟩
    · rw [hnow, raiseNow_of_masked]
      simpa [eventEnabled, hsev, hcode] using hmask
    · rw [hnow, raiseNow_of_enabled hboot henabled hnative]
      have hevq := beforeCarry_evq journal c (c.nextEvent code sev source payload)
      have hmodes := beforeCarry_modes journal c (c.nextEvent code sev source payload)
      have hcarry (hopen : c.modes.lockdown = false) := carryEvent_of_open (hmodes ▸ hopen) (c.nextEvent code sev source payload)
      refine ⟨by rw [carryEvent_nextSequence, hevq]; rfl, fun hopen hfull => ?_, fun hopen hroom => ?_⟩
      · rw [hcarry hopen, enqueueEvent_of_crowded (hevq ▸ hfull), hevq]
        exact ⟨rfl, rfl, rfl⟩
      · rw [hcarry hopen, enqueueEvent_of_room (hevq ▸ hroom), hevq]
        refine ⟨rfl, _, rfl, rfl, rfl, ?_, rfl, rfl, rfl⟩
        simp [Chip.nextEvent]

/-- Settles O23: the counter is added with saturation; its report is made where it reaches all ones unmarked (R549). -/
theorem saturatingCountersStopAndReportOnce : Obligations.SaturatingCountersStopAndReportOnce := by
  intro command offset inst width old n c _ hold
  have hvalue : (satAdd command offset inst width old n c).1 = min (old + n) (2 ^ width - 1) := rfl
  have hdevice : (satAdd command offset inst width old n c).2 = noteSaturated command offset inst width (min (old + n) (2 ^ width - 1)) c := rfl
  have hmark (h : 2 ^ width - 1 ≤ old + n) :
      (command, offset, inst) ∈ (noteSaturated command offset inst width (min (old + n) (2 ^ width - 1)) c).saturated := by
    rw [Nat.min_eq_right h]
    exact noteSaturated_marks c
  simp only [hvalue, hdevice]
  refine ⟨trivial, Nat.min_le_right _ _, by omega, fun h => noteSaturated_of_less (by omega), hmark,
    fun h hnew hboot hnative hrestart henabled => ?_, noteSaturated_of_marked, ?_⟩
  · rw [Nat.min_eq_right h, noteSaturated_of_new hnew]
    exact raiseWith_nextSequence (c := { c with saturated := c.saturated ++ [(command, offset, inst)] }) (fun hr => absurd (hrestart.symm.trans hr) (by decide)) hboot henabled hnative _ _
  · by_cases h : 2 ^ width - 1 ≤ old + n
    · exact noteSaturated_of_marked (hmark h)
    · exact noteSaturated_of_less (by rw [satU]; omega)

/-- Settles O22: a held vector only sets its pending bit, and unmasking releases it once (R437, R439). -/
theorem heldVectorsAreSentOnce : Obligations.HeldVectorsAreSentOnce := by
  refine ⟨fun c v n hv hn hheld => ?_, ?unmask⟩
  · obtain ⟨-, hout, hpending⟩ := repeat_signalVector_of_holds hv (c := c) hheld n
    exact ⟨hout, hpending hn⟩
  case unmask =>
    intro s t v e hmask hpending hd3
    have hentry := vget_unmasked (c := s.tick t) v.isLt
    have hrelease := releaseVector_of_pending (c := (s.tick t).unmasked v) (v := v) (by rw [hentry]; exact hpending) (by rw [hentry]) hd3
    rw [hentry] at hrelease
    have hsent : vget (releaseVector v ((s.tick t).unmasked v)).pcie.msix v = { e with mask := false, pending := false } := by
      rw [hrelease]
      exact vget_vset_self _ v.isLt _
    refine ⟨_, exec_msixEntryWrite t v 3 0 s, ?_, ?_, ?_, _, exec_msixEntryWrite t v 3 0 _, ?_⟩
    · rw [State.put_chip]
      exact congrArg Chip.out hrelease
    · rw [State.put_chip]
      exact congrArg MsixEntry.pending hsent
    · rw [State.put_chip]
      exact congrArg MsixEntry.mask hsent
    · have hagain (u : State) (hu : (vget u.chip.pcie.msix v).pending = false) : (msixWrite v 3 0 (u.tick t)).out = [] :=
        congrArg Chip.out (releaseVector_of_clear (c := (u.tick t).unmasked v) (by rw [vget_unmasked v.isLt]; exact hu))
      exact hagain _ (congrArg MsixEntry.pending hsent)

/-- Settles O21: the entry and its head block are the two writes of an entry, and lie apart (R203). -/
theorem ringEntriesAndHeadBlocksLand : Obligations.RingEntriesAndHeadBlocksLand := by
  refine ⟨fun r data depth total c m hm hout hdata hcount hdepth htotal hapart => ?_, fun r hhead htail hcount => ⟨fun hroom => ?_, fun tail htail' => ?_⟩⟩
  · intro slot after
    have hend := r.slot_le hcount
    have hafter : after = _ := hostAfter_ringPut hout m
    have hlength := Ring.headBlock_length ((r.head + 1) % 2 ^ 32) depth total
    refine ⟨ringPut_head, ?_, ?_, ?_, fun a hslot hblock => ?_⟩
    · rw [hafter]
      exact Mem.writeBytes_wf _ _ (Mem.writeBytes_wf _ _ hm)
    · rw [hafter, Mem.readBytes_writeBytes_outside (by omega)]
      exact Mem.readBytes_writeBytes_self _ data hm
    · rw [hafter]
      conv => enter [1, 3]; rw [← hlength]
      exact Mem.readBytes_writeBytes_self _ _ (Mem.writeBytes_wf _ _ hm)
    · rw [hafter, Mem.read_writeBytes_outside _ (by omega), Mem.read_writeBytes_outside _ (by omega)]
  · have hused : r.used < r.entryCount := by simpa [Ring.full] using hroom
    simp only [Ring.used, wrapU] at hused ⊢
    omega
  · simp only [Ring.accepts, Ring.used, decide_eq_true_eq]

end Sys2Proof

/-! SUPPORT. Chapters 2 to 6: counting, MD and its high-water mark, the low-pass filters, and the hold of a seam. -/
namespace Sys2Proof.Machine

-- One proof after another: many at once need a stack each, and together more memory than the check has.
set_option Elab.async false

/-! ### Counts in one direction (R36) -/

section
variable {e : Enc} {fwd : Bool}

/-- The step of a count in a direction. -/
def countDelta (fwd : Bool) : Int := if fwd then 1 else -1

theorem count1_count (e : Enc) (fwd : Bool) (t : Nat) : (e.count1 fwd t).count = wrapS 64 (e.count + countDelta fwd) := rfl

theorem count1_directionHysteresis (e : Enc) (fwd : Bool) (t : Nat) : (e.count1 fwd t).directionHysteresis = e.directionHysteresis := rfl

/-- A count against the direction state adds up, and at the hysteresis turns it. -/
theorem count1_against (h : e.forward ≠ fwd) (t : Nat) :
    (e.against + 1 < e.hysteresis → (e.count1 fwd t).forward = e.forward ∧ (e.count1 fwd t).against = e.against + 1) ∧
    (e.hysteresis ≤ e.against + 1 → (e.count1 fwd t).forward = fwd) := by
  simp only [Enc.count1, if_neg (Ne.symm h)]
  refine ⟨fun hless => ?_, fun hmore => ?_⟩
  · simp [Nat.not_le.2 hless]
  · simp [hmore, Ne.symm h]

/-- n counts move the count by n. -/
theorem repeat_count1_count (e : Enc) (fwd : Bool) (t n : Nat) :
    (Nat.repeat (fun x : Enc => x.count1 fwd t) (n + 1) e).count = wrapS 64 (e.count + (n + 1) * countDelta fwd) := by
  induction n with
  | zero => simp [Nat.repeat, count1_count]
  | succ n ih =>
    rw [Nat.repeat, count1_count, ih, wrapS, wrapS, wrapS, Int.bmod_add_bmod]
    congr 1
    push_cast
    ring

/-- Fewer counts than the hysteresis leave the direction state, and are counted against it. -/
theorem repeat_count1_before (hagainst : e.against = 0) (h : e.forward ≠ fwd) (t : Nat) {n : Nat} (hn : n < e.hysteresis) :
    let u := Nat.repeat (fun x : Enc => x.count1 fwd t) n e
    u.forward = e.forward ∧ u.against = n ∧ u.hysteresis = e.hysteresis := by
  induction n with
  | zero => exact ⟨rfl, hagainst, rfl⟩
  | succ n ih =>
    obtain ⟨hforward, hcount, hhysteresis⟩ := ih (by omega)
    have hstep := (count1_against (hforward ▸ h) t).1 (by rw [hcount, hhysteresis]; exact hn)
    exact ⟨hstep.1.trans hforward, hstep.2.trans (congrArg (· + 1) hcount), hhysteresis⟩

end

/-! ### MD from the main count (R40, R44) -/

@[simp] theorem noteSaturated_trig (k o i w v : Nat) (c : Chip) : (noteSaturated k o i w v c).trig = c.trig :=
  (congrArg Chip.trig (noteSaturated_quiet k o i w v c) : (noteSaturated k o i w v c).quiet.trig = c.quiet.trig)

/-- What the main count makes of MD, where this member counts it. -/
theorem mdFollow_trig {c : Chip} (hanchored : c.trig.anchored = true) (hcounts : mdCounts c = true) (before : Nat) :
    let x := mdOfCount c (mainEnc c).count
    let md := (clampI 0 (2 ^ 64 - 1) x).toNat
    (mdFollow before c).trig = { c.trig with
      mdCount := md, mdPrev := before, hwm := max (max c.trig.hwm before) md
      saturatePending := c.trig.saturatePending || decide (x ≠ md) || md == 2 ^ 64 - 1 } := by
  simp only [mdFollow, hanchored, hcounts, Bool.not_true, Bool.or_self, Bool.false_eq_true, if_false, noteSaturated_trig]

/-- An MD held to 64 bits is the count within its range, and an end of the range outside it. -/
theorem clamp64_cases (x : Int) :
    let md := (clampI 0 (2 ^ 64 - 1) x).toNat
    (x < 0 → md = 0 ∧ x ≠ md) ∧ ((2 ^ 64 : Int) ≤ x → md = 2 ^ 64 - 1 ∧ x ≠ md) ∧
      (0 ≤ x → x < (2 ^ 64 - 1 : Int) → (md : Int) = x ∧ md ≠ 2 ^ 64 - 1) := by
  simp only [clampI]; omega

/-! ### Low-pass filters (R89, R158) -/

/-- A shift right with halves rounded up ends between 0 and what is shifted. -/
theorem asr_half_between (d : Int) (k : Nat) : min 0 d ≤ asr (d + half k) k ∧ asr (d + half k) k ≤ max 0 d := by
  cases k with
  | zero => simp [half, asr]
  | succ k =>
    have hpos : (0 : Int) < 2 ^ k := by positivity
    have hhalf : half (k + 1) = 2 ^ k := rfl
    have hpow : (2 : Int) ^ (k + 1) = 2 * 2 ^ k := by ring
    rw [hhalf, asr, hpow]
    refine ⟨Int.le_ediv_of_mul_le (by omega) ?_, Int.le_of_lt_add_one (Int.ediv_lt_of_lt_mul (by omega) ?_)⟩
    · rcases le_total d 0 with h | h
      · rw [min_eq_right h]; nlinarith
      · rw [min_eq_left h]; nlinarith
    · rcases le_total d 0 with h | h
      · rw [max_eq_left h]; nlinarith
      · rw [max_eq_right h]; nlinarith

theorem lowPass_between (k : Nat) (old new : Int) :
    min old new ≤ old + asr (new - old + half k) k ∧ old + asr (new - old + half k) k ≤ max old new := by
  have h := asr_half_between (new - old) k
  omega

theorem deltaStep_eq (k : Nat) (delta m : Int) : deltaStep k delta m = delta + asr (m - delta + half k) k := by
  cases k with
  | zero => simp [deltaStep, half, asr]
  | succ k => rfl

theorem clampI_between {lo hi : Int} (h : lo ≤ hi) (x : Int) : lo ≤ clampI lo hi x ∧ clampI lo hi x ≤ hi := by
  simp only [clampI]; omega

/-- The root grows bit by bit, and stays the floor of the root as far as it has come. -/
theorem isqrtFrom_bounds (x k : Nat) : ∀ r : Nat, r * r ≤ x → x < (r + 2 ^ k) * (r + 2 ^ k) →
    isqrtFrom x k r * isqrtFrom x k r ≤ x ∧ x < (isqrtFrom x k r + 1) * (isqrtFrom x k r + 1) := by
  induction k with
  | zero => exact fun r hlow hhigh => ⟨hlow, by simpa [isqrtFrom] using hhigh⟩
  | succ k ih =>
    intro r hlow hhigh
    have hsum : r + 2 ^ (k + 1) = r + 2 ^ k + 2 ^ k := by ring
    rw [isqrtFrom]
    split
    case isTrue hbit => exact ih _ hbit (hsum ▸ hhigh)
    case isFalse hbit => exact ih _ hlow (Nat.lt_of_not_le hbit)

theorem isqrt_bounds {x : Nat} (h : x < 2 ^ 256) : isqrt x * isqrt x ≤ x ∧ x < (isqrt x + 1) * (isqrt x + 1) :=
  isqrtFrom_bounds x 128 0 (Nat.zero_le x) (by simpa using h)

/-! ### The hold of a seam (R129, R132) -/

section
variable {c : Chip} {k : Nat}

theorem getSeam_modSeam (hk : k < 15) (f : Seam → Seam) (c : Chip) : getSeam (modSeam k f c) k = f (getSeam c k) := by
  have hne : k ≠ 15 := by omega
  simp only [getSeam, modSeam, if_neg hne]
  exact vget_vmod_self _ hk f

@[simp] theorem getSeam_raise (code sev src : Nat) (p : List Byte) (c : Chip) (k : Nat) : getSeam (raise code sev src p c) k = getSeam c k := by
  simp [getSeam]
@[simp] theorem getSeam_satAdd (o1 o2 i w a n : Nat) (c : Chip) (k : Nat) : getSeam (satAdd o1 o2 i w a n c).2 k = getSeam c k := by
  simp [getSeam]
@[simp] theorem getSeam_seamLost (j state nm : Nat) (c : Chip) (k : Nat) : getSeam (seamLost j state nm c) k = getSeam c k :=
  getSeam_raise _ _ _ _ _ _

/-- A weak measurement counts, and the sixteenth in a row holds the seam; it moves nothing. -/
theorem getSeam_weakMeasurement (hk : k < 15) (nm conf : Nat) (c : Chip) :
    let s := getSeam c k
    let z := getSeam (weakMeasurement k nm conf c) k
    z.dc = s.dc ∧ z.dm = s.dm ∧ z.next = s.next ∧ z.weakCount = satU 8 (s.weakCount + 1) ∧
      z.held = (s.held || (decide (15 ≤ s.weakCount) && !s.held)) := by
  simp only [weakMeasurement]
  split <;> simp only [getSeam_seamLost, getSeam_modSeam hk, getSeam_satAdd] <;> exact ⟨trivial, trivial, trivial, trivial, trivial⟩

theorem getSeam_repeat_weakMeasurement (hk : k < 15) (hcount : (getSeam c k).weakCount = 0) (hheld : (getSeam c k).held = false)
    (nm conf n : Nat) :
    let z := getSeam (Nat.repeat (weakMeasurement k nm conf) n c) k
    z.dc = (getSeam c k).dc ∧ z.dm = (getSeam c k).dm ∧ z.next = (getSeam c k).next ∧ z.weakCount = satU 8 n ∧
      z.held = decide (16 ≤ n) := by
  induction n with
  | zero => exact ⟨rfl, rfl, rfl, hcount, hheld⟩
  | succ n ih =>
    obtain ⟨hdc, hdm, hnext, hweak, hhold⟩ := ih
    obtain ⟨hdc', hdm', hnext', hweak', hhold'⟩ := getSeam_weakMeasurement hk nm conf (Nat.repeat (weakMeasurement k nm conf) n c)
    refine ⟨hdc'.trans hdc, hdm'.trans hdm, hnext'.trans hnext, hweak'.trans ?_, hhold'.trans ?_⟩
    · rw [hweak]; simp only [satU]; omega
    · rw [hweak, hhold, Bool.eq_iff_iff]
      simp only [Bool.or_eq_true, Bool.and_eq_true, Bool.not_eq_true', decide_eq_true_eq, decide_eq_false_iff_not]
      simp only [satU]
      omega

/-- A good measurement moves a seam by a step of limited size, and releases it. -/
theorem getSeam_goodMeasurement (hk : k < 15) (nm conf : Nat) (pc pm dc dm : Int) (z : Seam) (c : Chip) :
    let v := getSeam (goodMeasurement k nm conf pc pm dc dm z c) k
    v.held = false ∧ v.weakCount = 0 ∧
      v.next = (getSeam c k).next ++ [(dc + clampI (-(z.maxStepCd : Int)) z.maxStepCd (pc - dc),
        dm + clampI (-(z.maxStepMd : Int)) z.maxStepMd (pm - dm), nm + 64, true)] := by
  simp only [goodMeasurement]
  split <;> simp only [getSeam_seamLost, getSeam_modSeam hk] <;> exact ⟨trivial, trivial, trivial⟩

/-- A clamp at two ends of one size cuts the size, and changes nothing within it. -/
theorem clampI_natAbs (lim : Nat) (x : Int) :
    (clampI (-(lim : Int)) lim x).natAbs ≤ lim ∧ (clampI (-(lim : Int)) lim x = x ∨ (clampI (-(lim : Int)) lim x).natAbs = lim) := by
  simp only [clampI]; omega

end
end Sys2Proof.Machine

namespace Sys2Proof
open Sys2Proof.Machine

set_option Elab.async false

/-- Settles O24: the table by its sixteen cases, the counts by induction (R28, R31, R36). -/
theorem countsFollowTheAcceptedLevels : Obligations.CountsFollowTheAcceptedLevels := by
  refine ⟨?table, rfl, rfl, rfl, rfl, fun e fwd t n hagainst hagainst_dir hhysteresis => ?counts⟩
  case table =>
    have hboth : ∀ a0 b0 a1 b1 : Bool, countStep .quadrature a0 b0 a1 b1 = none ↔ (a0 ≠ a1 ∧ b0 ≠ b1) := by decide
    have hback : ∀ a0 b0 a1 b1 : Bool,
      countStep .quadrature a1 b1 a0 b0 = (countStep .quadrature a0 b0 a1 b1).map fun n => -n := by decide
    exact fun a0 b0 a1 b1 => ⟨hboth a0 b0 a1 b1, fun n hn => by rw [hback, hn]; rfl, rfl⟩
  case counts =>
    have hsame : e.hysteresis = e.directionHysteresis := Nat.max_eq_right hhysteresis
    refine ⟨?_, fun hn => (repeat_count1_before hagainst hagainst_dir t (hsame ▸ hn)).1, fun hn => ?_⟩
    · cases n with
      | zero => rfl
      | succ n =>
        rw [repeat_count1_count, if_neg (Nat.succ_ne_zero n), countDelta]
        cases fwd <;> simp
    · subst hn
      obtain ⟨n, hn⟩ := Nat.exists_eq_succ_of_ne_zero hhysteresis.ne'
      rw [hn]
      obtain ⟨hforward, hcount, hkept⟩ := repeat_count1_before (n := n) hagainst hagainst_dir t (by omega)
      exact (count1_against (hforward ▸ hagainst_dir) t).2 (by rw [hcount, hkept]; omega)

/-- Settles O27: MD is the scaled count clamped to 64 bits, and the mark follows both (R40, R44, R550). -/
theorem mdSaturatesAndTheMarkNeverFalls : Obligations.MdSaturatesAndTheMarkNeverFalls := by
  intro before c hanchored hcounts x u
  have htrig : u.trig = _ := mdFollow_trig hanchored hcounts before
  obtain ⟨hlow, hhigh, hwithin⟩ := clamp64_cases x
  simp only [htrig]
  refine ⟨fun h => ?_, fun h => ?_, fun h0 h1 => ?_, le_trans (Nat.le_max_left _ _) (Nat.le_max_left _ _), Nat.le_max_right _ _⟩
  · exact ⟨(hlow h).1, by rw [decide_eq_true (hlow h).2, Bool.or_true, Bool.true_or]⟩
  · exact ⟨(hhigh h).1, by rw [decide_eq_true (hhigh h).2, Bool.or_true, Bool.true_or]⟩
  · obtain ⟨hmd, htop⟩ := hwithin h0 h1
    refine ⟨hmd, ?_⟩
    rw [decide_eq_false (not_not.2 hmd.symm), beq_eq_false_iff_ne.2 htop, Bool.or_false, Bool.or_false]

/-- Settles O29: both filters add a rounded part of the distance to the input (R89, R156, R158). -/
theorem theFiltersStayBetweenTheirInputs : Obligations.TheFiltersStayBetweenTheirInputs := by
  refine ⟨fun k delta m => ?_, fun e r x d hn hmax => ?_, fun x hx => isqrt_bounds hx⟩
  · rw [deltaStep_eq]
    exact lowPass_between k delta m
  · simp only [ModelEntry.update, if_neg hn]
    have hmean (ke : Nat) := lowPass_between ke e.mean (4096 * x)
    have hvar (y : Int) := clampI_between (show (0 : Int) ≤ 2 ^ 24 - 1 by decide) y
    generalize (if e.n = 65535 then r.tauLog2 else min r.tauLog2 (log2Nat (e.n + 1))) = ke
    have hmean' := hmean ke
    have hvar' := hvar (e.var + asr (d * d / 16 - e.var + half ke) ke)
    omega

/-- Settles O30: the weak measurements by induction on their number; the good one by what it sets (R129, R130, R132). -/
theorem sixteenWeakMeasurementsHoldASeam : Obligations.SixteenWeakMeasurementsHoldASeam := by
  intro c k nm conf n pc pm dc dm z hk hcount hheld u
  obtain ⟨hdc, hdm, hnext, -, hhold⟩ := getSeam_repeat_weakMeasurement hk hcount hheld nm conf n
  obtain ⟨hreleased, hzero, hdue⟩ := getSeam_goodMeasurement hk nm conf pc pm dc dm z u
  obtain ⟨hcd, hcdFull⟩ := clampI_natAbs z.maxStepCd (pc - dc)
  obtain ⟨hmd, hmdFull⟩ := clampI_natAbs z.maxStepMd (pm - dm)
  refine ⟨hdc, hdm, hnext, fun hn => hhold.trans (by simpa using hn), fun hn => hhold.trans (by simpa using hn), hreleased, hzero,
    _, _, hdue.trans (by rw [hnext]), hcd, hmd, hcdFull, hmdFull⟩

end Sys2Proof

/-! SUPPORT. Chapter 23: the forerunner's commands run their native ones (R559, R560). -/
namespace Sys2Proof.Machine
-- One proof after another: many at once need a stack each, and together more memory than the check has.
set_option Elab.async false

/-! ### A legacy request its mailbox holds -/

/-- What a mailbox that holds a legacy request says: the hypotheses under which the request runs. -/
theorem State.runJob_of_holdsLegacy {s : State} {mb : Fin 8} {setting : Bool} {j : Job} (h : s.holdsLegacy mb setting j = true)
    {test : Job → Bool} (htest : j.rawCode ≠ j.code → legacySetting j.rawCode = setting → test j = true) (t : Nat)
    (f : Nat → Job → Chip → Reply) : runJob test mb f (s.tick t) = finish mb (f mb j (s.tick t)) := by
  simp only [State.holdsLegacy, Bool.and_eq_true, beq_iff_eq, Bool.not_eq_true', bne_iff_ne] at h
  obtain ⟨⟨⟨⟨⟨⟨⟨hjob, hraw⟩, hsetting⟩, hwaiting⟩, hturn⟩, hlodge⟩, hmode⟩, hheader⟩ := h
  exact runJob_of_job (c := s.tick t) hjob (htest hraw hsetting) hwaiting hturn hlodge hmode hheader

theorem exec_legacyCommand_of_holds {s : State} {mb : Fin 8} {j : Job} (h : s.holdsLegacy mb false j = true) (t : Nat) :
    exec (.legacyCommand t mb) s = .next (s.put (finish mb (legacyCommand ⟨mb, s.bulk⟩ j (s.tick t)))) := by
  rw [exec_legacyCommand]
  beta_reduce
  rw [State.runJob_of_holdsLegacy h (fun hraw hset => by simp [hraw, hset])]

/-- Further rules that hold leave the native command alone. -/
theorem underRules_of_passes {ks : List Check} (h : passes ks = true) (f : Env → Job → Chip → Reply) (env : Env) (j : Job) (c : Chip) :
    underRules ks f env j c = f env j c := by
  simp only [underRules, firstFail_of_passes h]

theorem passes_portRule {p : List Byte} (h : rd p 0 1 ≤ 11) : passes [portRule p] = true := by
  simp [passes, portRule, inRange, param, h]

theorem passes_portRule_speed {p : List Byte} (h : rd p 0 1 ≤ 11) (hs : rd p 2 1 ≤ 6) :
    passes [portRule p, param 2 (decide (rd p 2 1 ≤ 6))] = true := by
  simp [passes, portRule, inRange, param, h, hs]

theorem passes_maskRule {p : List Byte} {off : Nat} (h : rd p off 2 < 4096) : passes [maskRule p off] = true := by
  simp [passes, maskRule, param, h]

theorem passes_param {off : Nat} {ok : Bool} (h : ok = true) : passes [param off ok] = true := by simp [passes, param, h]

theorem passes_lenIs {n : Nat} {j : Job} (h : j.payload.length = n) : passes [lenIs n j] = true := by
  simp [passes, lenIs, h]

/-! ### A setting command in its own transaction (R560) -/

theorem exec_legacySettingCommand_of_holds {s : State} {mb : Fin 8} {j : Job} (h : s.holdsLegacy mb true j = true) (t : Nat)
    (harmed : (s.tick t).ledger.armed.any (·.internal) = false) (hmodel : modelHeld (s.tick t) mb = false)
    (hfirst : firstSetting (s.tick t) mb = true) :
    exec (.legacySettingCommand t mb) s = .next (s.put (finish mb (legacySettingRun ⟨mb, s.bulk⟩ j (s.tick t)))) := by
  rw [exec_legacySettingCommand]
  simp only [legacySettingStep, harmed, hmodel, hfirst, Bool.not_true, Bool.or_self, Bool.false_eq_true, if_false]
  rw [State.runJob_of_holdsLegacy h (fun hraw hset => by simp [hraw, hset])]

/-- A staged setting whose transaction applies is answered as the staging command, on the device after the commit. -/
theorem commitSetting_of_applied {j : Job} {id : Nat} {r : Reply} {x : Tx} (hopen : openTx r.chip id = some x)
    (happlied : (commitTx x 0 0 0 0 r.chip).status = stOk) :
    commitSetting j id r = { r with chip := (commitTx x 0 0 0 0 r.chip).chip } := by
  simp only [commitSetting, hopen, happlied, if_true]

theorem settingAlone_of_staged {env : Env} {j : Job} {c : Chip}
    (hlimits : passes (settingLimits j.code (settingRequest j (newTx false 0 true c).1).payload) = true)
    (hstaged : (settingCommand j.code env (settingRequest j (newTx false 0 true c).1) (newTx false 0 true c).2).status = stOk) :
    settingAlone env j c = commitSetting (settingRequest j (newTx false 0 true c).1) (newTx false 0 true c).1
      (settingCommand j.code env (settingRequest j (newTx false 0 true c).1) (newTx false 0 true c).2) := by
  simp only [settingAlone, underRules_of_passes hlimits, hstaged, if_true]

/-- An answer of status ST_OK is passed on as it is. -/
theorem legacyAnswer_of_ok {r : Reply} (h : r.status = stOk) (code : Nat) : legacyAnswer code r = r := by
  have hparam : ¬ (r.status = stBadParam ∧ 4 ≤ r.detail ∧ r.detail ≠ 0xFFFF) := by simp [h, stOk, stBadParam]
  have hlen : ¬ (r.status = stBadLen ∧ r.detail ≠ 0) := by simp [h, stOk, stBadLen]
  simp only [legacyAnswer, if_neg hparam, if_neg hlen]

end Sys2Proof.Machine

namespace Sys2Proof
open Sys2Proof.Machine
set_option Elab.async false

/-- Settles O45: the row runs `legacyCommand` or, for a setting, the staging command in a transaction of its own; the further rules hold by
hypothesis. -/
theorem legacyCommandsRun : Obligations.LegacyCommandsRun := by
  refine ⟨fun s t mb j h => ?_, fun s t mb j x => ?_⟩
  · intro c env runs
    have native (f : Env → Job → Chip → Reply) (hf : legacyCommand env j c = f env j c) : runs f :=
      (exec_legacyCommand_of_holds h t).trans (congrArg (fun r => Host.Outcome.next (s.put (finish mb r))) hf)
    clear_value runs
    refine ⟨fun hc => native _ ?_, fun hc => native _ ?_, fun hc => native _ ?_, fun hc => native _ ?_, fun hc => native _ ?_, fun hc => native _ ?_,
      fun hc => native _ ?_, fun hc => native _ ?_, fun hc => native _ ?_, fun hc => native _ ?_, fun hc => native _ ?_, fun hc => native _ ?_,
      fun hc => native _ ?_, fun hc hp => native _ ?_, fun hc hp => native _ ?_, fun hc hp => native _ ?_, fun hc hp hs => native _ ?_,
      fun hc hp => native _ ?_, fun hc hp => native _ ?_, fun hc hp => native _ ?_, fun hc hp hq => native _ ?_, fun hc hp => native _ ?_,
      fun hc hp => native _ ?_, fun hc hp => native _ ?_, fun hc hp => native _ ?_, fun hc hp => native _ ?_, fun hc hp => native _ ?_,
      fun hc => native _ ?_⟩
    all_goals simp only [legacyCommand, hc]
    · rw [legacyId, checked_of_passes (passes_lenIs (by simp [hp]))]
    · rw [legacyClear, checked_of_passes (passes_lenIs (by simp [hp]))]
    · exact underRules_of_passes (passes_param (by simpa [Base.code] using hp)) ..
    · exact underRules_of_passes (passes_portRule_speed hp hs) ..
    · exact underRules_of_passes (passes_portRule hp) ..
    · exact underRules_of_passes (passes_portRule hp) ..
    · exact underRules_of_passes (passes_portRule hp) ..
    · exact underRules_of_passes (by rw [passes, List.all_cons, Bool.and_eq_true]; exact ⟨by simp [maskRule, param, hp], passes_maskRule hq⟩) ..
    · rw [legacyArchive, checked_of_passes (passes_param (by simp [hp]))]
    · exact underRules_of_passes (passes_param (by simp [hp])) ..
    · exact underRules_of_passes (passes_param (by simpa using hp)) ..
    · exact underRules_of_passes (passes_maskRule hp) ..
    · exact underRules_of_passes (passes_maskRule hp) ..
    · rw [legacyLaneMap, checked_of_passes (passes_lenIs hp)]
      rfl
    · rw [legacyLaneStatus]
  · intro c env opened k staged applied h harmed hmodel hfirst hcode hlimits hok hopen happlied
    have halone : settingAlone env j c = { staged with chip := applied.chip } :=
      (settingAlone_of_staged hlimits hok).trans (commitSetting_of_applied hopen happlied)
    have hrun : legacySettingRun env j c = { staged with chip := applied.chip } := by
      rw [legacySettingRun, if_neg hcode, halone]
      exact legacyAnswer_of_ok (r := { staged with chip := applied.chip }) hok _
    rw [exec_legacySettingCommand_of_holds h t harmed hmodel hfirst]
    exact congrArg (fun r => Host.Outcome.next (s.put (finish mb r))) hrun

end Sys2Proof

/-! SUPPORT. Chapter 2: the events of the encoders and of the line trigger. -/
namespace Sys2Proof.Machine

-- One proof after another: many at once need a stack each, and together more memory than the check has.
set_option Elab.async false

/-- Two devices that are equal answer the same next state. -/
theorem State.next_put {s : State} {c d : Chip} (h : c = d) :
    (Host.Outcome.next (s.put c) : Host.Outcome State Fault Refusal) = .next (s.put d) := h ▸ rfl

/-! ### Levels of an encoder (R28, R34) -/

section
variable {c : Chip} {ch : Nat}

/-- What an encoder does with a step between accepted levels. -/
def takeStep (ch : Nat) (configured : Bool) (step : Option Int) (c : Chip) : Chip :=
  if configured then
    match step with
    | none => illegalTransition ch c
    | some n => if n = 1 then takeCount ch true c else if n = -1 then takeCount ch false c else c
  else c

theorem takeStep_same {configured : Bool} {step : Option Int} (h : configured = false ∨ step = some 0) : takeStep ch configured step c = c := by
  obtain rfl | rfl := h
  · rfl
  · cases configured <;> rfl

/-- Levels that hold for the glitch filter's time are accepted, and a configured encoder counts the step between the accepted levels. -/
theorem encoderLevels_eq (ch : Nat) (a b : Bool) (heldA heldB : Nat) (c : Chip) :
    let e := vget c.enc ch
    let pinA := if e.glitchSamples ≤ heldA then a else e.pinA
    let pinB := if e.glitchSamples ≤ heldB then b else e.pinB
    let moved := { c with enc := vset c.enc ch { e with rawA := a, rawB := b, pinA, pinB } }
    let step := countStep e.form (e.seen e.pinA e.pinB).1 (e.seen e.pinA e.pinB).2 (e.seen pinA pinB).1 (e.seen pinA pinB).2
    encoderLevels ch a b heldA heldB c = takeStep ch e.configured step moved := by
  simp only [encoderLevels, Enc.accepts, decide_eq_true_eq]
  cases hc : (vget c.enc ch).configured
  · rfl
  · simp only [takeStep]
    rfl

/-- An accepted index level moves the count at its active edge alone. -/
theorem indexLevel_eq (ch : Nat) (z : Bool) (held : Nat) (c : Chip) :
    let e := vget c.enc ch
    let pinZ := if e.glitchSamples ≤ held then z else e.pinZ
    let moved := { c with enc := vset c.enc ch { e with rawZ := z, pinZ } }
    let active := if e.forward then (xor e.pinZ e.invertZ = false ∧ xor pinZ e.invertZ = true) else (xor e.pinZ e.invertZ = true ∧ xor pinZ e.invertZ = false)
    indexLevel ch z held c = if e.configured = true ∧ e.indexEnable = true ∧ e.countsPerRev ≠ 0 ∧ active then takeIndex ch moved else moved := by
  simp only [indexLevel, Enc.accepts, decide_eq_true_eq]
  refine if_congr ?_ rfl rfl
  cases (vget c.enc ch).forward <;> simp [and_assoc]

/-- A configured encoder that does not stand still, and has not counted for its time, stops (R34). -/
theorem zeroSpeed_of_timedOut (hconfigured : (vget c.enc ch).configured = true) (hstopped : (vget c.enc ch).stopped = false)
    (htime : (vget c.enc ch).times.headD 0 + (vget c.enc ch).zeroSpeedTimeout * 1000000 ≤ c.now) :
    let e := vget c.enc ch
    let kept := if ch = c.trig.mainChannel then { holdInstant c with trig := { (holdInstant c).trig with hwm := hwmNow c } } else c
    zeroSpeed ch c = raise 0x0303 1 ch (le 1 ch ++ zeros 3 ++ leS 8 e.count)
      { kept with enc := vset kept.enc ch { e with stopped := true, times := [] } } := by
  simp only [zeroSpeed, hconfigured, hstopped, Enc.timedOut, htime, decide_true, Bool.not_true, Bool.or_self, Bool.false_eq_true, if_false]

/-! ### The line trigger (R47) -/

/-- A trigger is due on a running generator, a minimum period after the last, once its instant has come. -/
theorem triggerDue_of_reached (hruns : generatorRuns c = true)
    (hperiod : ∀ last, c.trig.lastTrigger = some last → last + c.trig.minPeriod ≤ tickNow c)
    (hknown : ∀ known, knownInstant c = some known → known ≤ tickNow c)
    (hgoal : knownInstant c = none → triggerGoal c ≤ mdAt c (tickNow c)) : triggerDue c = true := by
  have hlast : ((c.trig.lastTrigger.map fun t => decide (t + c.trig.minPeriod ≤ tickNow c)).getD true) = true := by
    cases hl : c.trig.lastTrigger with
    | none => rfl
    | some last => simp [hperiod last hl]
  simp only [triggerDue, hruns, hlast, Bool.true_and]
  split
  next known hk => simpa using hknown known hk
  next hk => simpa using hgoal hk

theorem triggerDue_of_before {known : Nat} (h : generatorRuns c = false ∨ (knownInstant c = some known ∧ tickNow c < known) ∨
    (knownInstant c = none ∧ mdAt c (tickNow c) < triggerGoal c)) : triggerDue c = false := by
  obtain h | ⟨hk, hlt⟩ | ⟨hk, hlt⟩ := h
  · simp [triggerDue, h]
  · simp [triggerDue, hk, hlt]
  · simp [triggerDue, hk, hlt]

/-- A trigger that is due is issued with its tag; what falls due on its line applies before the gang hears of it. -/
theorem lineTrigger_of_due {tag : Tag} (hdue : triggerDue c = true) (htag : (issueTrigger c).trig.tags.head? = some tag) :
    lineTrigger c =
      let based := moveBase (targetMd c (c.trig.j + skippedTargets c)) (applyDue true tag (issueTrigger c))
      let joined := if joinDue based tag.md then gangJoin tag.number based else based
      afterTrigger tag.number (sendTag joined) := by
  simp only [lineTrigger, hdue, htag, Bool.not_true, Bool.false_eq_true, if_false]

theorem lineTrigger_of_not_due (hdue : triggerDue c = false) : lineTrigger c = c := by
  simp only [lineTrigger, hdue, Bool.not_false, if_true]

end

end Sys2Proof.Machine

namespace Sys2Proof
open Sys2Proof.Machine
set_option Elab.async false

/-- Settles O46, case by case of the levels' step, of the index edge and of the instant of the next line. -/
theorem encoderAndTriggerEvents : Obligations.EncoderAndTriggerEvents := by
  refine ⟨fun s t ch a b heldA heldB => ?_, fun s t ch z held => ?_, fun s t ch => ?_, fun s t tag => ?_, fun s t known => ?_⟩
  · rw [exec_encoderCount, encoderLevels_eq]
    intro c e pinA pinB moved step
    refine ⟨fun h => State.next_put (takeStep_same h), fun hc h => ?_, fun hc h => ?_, fun hc h => ?_⟩
    all_goals
      rw [show takeStep ch e.configured step moved = takeStep ch true _ moved from congrArg₂ (takeStep ch · · moved) hc h]
      rfl
  · rw [exec_indexPulse, indexLevel_eq]
    intro c e pinZ moved active
    exact ⟨fun hc hi hr ha => State.next_put (if_pos ⟨hc, hi, hr, ha⟩), fun ha => State.next_put (if_neg fun h => ha h.2.2.2)⟩
  · intro c e kept hconfigured hstopped htime
    rw [exec_zeroSpeedTimeout]
    exact State.next_put (zeroSpeed_of_timedOut hconfigured hstopped htime)
  · intro c issued hruns hperiod hknown hgoal htag
    rw [exec_lineTrigger]
    exact State.next_put (lineTrigger_of_due (triggerDue_of_reached hruns hperiod hknown hgoal) htag)
  · intro c h
    rw [exec_lineTrigger]
    exact State.next_put (lineTrigger_of_not_due (triggerDue_of_before h))

end Sys2Proof

/-! SUPPORT. Chapter 3: the events of the camera ports, their links and the virtual cameras. -/
namespace Sys2Proof.Machine

-- One proof after another: many at once need a stack each, and together more memory than the check has.
set_option Elab.async false

section
variable {c : Chip} {n : Nat}

/-! ### Discovery (R60, R65) -/

/-- A camera that answers and is accepted, and that locks healthily at a speed, becomes ready. -/
theorem discoveryComplete_of_locks {d : Discovery} {i : CameraInfo} {speed : Nat}
    (hd : (vget c.port n).discovery = some d) (hq : d.queued = false) (haccepted : cameraAccepted i = true) :
    let links := if d.links = 0 then i.defaultLinks else d.links
    let asked := if d.speed = 0 then i.defaultSpeed else d.speed
    let first := if c.modes.personality = 1 then min asked 6 else asked
    let limit := (vget c.port n).codeErrorLimit
    let told := bootstrapTraffic n links (speedsTried d first limit links i) d c
    let eye := (shownAt speed i.scans).getD []
    let errors := (shownAt speed i.errors).getD []
    let trained := modPort n (fun x => { x with
      state := if (laneOf c n).isSome && triggering c then .streaming else .ready
      discovery := none, links, speed, pixelFormat := i.pixelFormat, width := i.width
      camMinPeriodNs := if d.minPeriodAddr = 0 then 0 else i.minPeriodNs
      cxpRevision := i.revision, modelName := i.model, serial := i.serial, packetData := i.packetData
      link := trainedLinks links eye errors told.now x.link }) told
    let ready := if (laneOf trained n).isSome then refreshPeriod trained else trained
    (speedsToTry d first).find? (locksHealthy i limit links) = some speed →
    discoveryComplete n (some i) c = respond d.mb stOk 0 (discoverBody (vget ready.port n) links speed) ready := by
  intro links asked first limit told eye errors trained ready hspeed
  have hopen : (vget c.port n).discovery.filter (!·.queued) = some d := by simp [hd, hq]
  simp only [discoveryComplete, hopen, haccepted, Bool.not_true, Bool.false_eq_true, if_false]
  rw [show List.find? _ _ = some speed from hspeed]

theorem discoveryComplete_none {d : Discovery} (hd : (vget c.port n).discovery = some d) (hq : d.queued = false) :
    discoveryComplete n none c = discoveryFails n stTimeout 0 0 0 d c := by
  have hopen : (vget c.port n).discovery.filter (!·.queued) = some d := by simp [hd, hq]
  simp only [discoveryComplete, hopen]

/-! ### Control packets (R66, R68) -/

section
variable {a : Access} {rest : List Access} (hx : (vget c.port n).accesses = a :: rest)
include hx

theorem endAccess_cons (status ack : Nat) : endAccess n status ack c =
    nextTransaction n (respond a.mb status 0 (le 2 a.done ++ le 2 ack ++ (if a.write then [] else zeros 4 ++ a.data))
      (modPort n (fun x => { x with accesses := rest }) c)) := by
  simp only [endAccess, hx]

theorem retryPacket_cons (ack : Nat) : retryPacket n ack c =
    if a.retries < 3 then sendPacket n (modAccess n (fun a => { a with retries := a.retries + 1 }) c) else endAccess n stTimeout ack c := by
  simp only [retryPacket, hx]

theorem controlAck_good (code : Nat) (data : List Byte) : controlAck n true false code data c =
    let k := packetBytes (vget c.port n) a
    let taken := modAccess n (fun a => { a with done := a.done + k, retries := 0, data := if a.write then a.data else a.data ++ fit k data }) c
    if a.length ≤ a.done + k then endAccess n stOk code taken else sendPacket n taken := by
  simp only [controlAck, hx, Bool.not_true, Bool.false_eq_true, if_false]

theorem controlAck_error (code : Nat) (data : List Byte) : controlAck n true true code data c = endAccess n stAborted code c := by
  simp only [controlAck, hx, Bool.not_true, Bool.false_eq_true, if_false, if_true]

theorem controlAck_corrupt (error : Bool) (code : Nat) (data : List Byte) : controlAck n false error code data c = retryPacket n code c := by
  simp only [controlAck, hx, Bool.not_false, if_true]

end

/-! ### Virtual cameras (R81) -/

/-- An enabled virtual camera serves a control packet by its kind. -/
theorem vcamControl_enabled {k : Nat} (h : (vget c.vcam k).enabled = true) (op : VcamOp) : vcamControl k op c =
    let v := vget c.vcam k
    let put (v : Vcam) : Chip := { c with vcam := vset c.vcam k v }
    match op with
    | .discovery => emit (.vcamAck k 0 []) c
    | .read r => emit (.vcamAck k 0 (vcamRegister c k r)) c
    | .readXml offset length => emit (.vcamAck k 0 (sliceB Config.genicamFile offset length)) c
    | .writeReadOnly _ => emit (.vcamAck k 1 []) c
    | .connectionConfig links speed => emit (.vcamAck k (if links = v.cfg.links ∧ speed = v.cfg.speed then 0 else 1) []) c
    | .acquisitionStart => emit (.vcamAck k 0 []) (put { v with acquiring := true, imageLine := 0 })
    | .acquisitionStop => emit (.vcamAck k 0 []) (vcamTake k (put { v with acquiring := false, imageLine := 0 }))
    | .writeUserId x => emit (.vcamAck k 0 []) (put { v with userId := x }) := by
  unfold vcamControl
  cases op <;> exact if_neg (by simp [h])

/-! ### Lines and their loss (R69, R70, R71) -/

section
variable {first l : Nat} {packets crcErrors : List Nat} {stream : List Byte} {o : Outstanding} {past rest : List Outstanding}

/-- A complete line of a port that streams, or relocks, and is mapped to a lane: it is taken unless it comes late or was damaged. -/
theorem lineReceived_matched (hstate : (vget c.port n).state = .streaming ∨ (vget c.port n).relocked = true)
    (hwidth : (vget c.port n).width ≤ ((vget c.port n).linePixels stream).length)
    (hlane : laneOf (countPackets n packets crcErrors c) n = some l) (hmatch : matchLine (vget c.port n) first = some (o, past, rest)) :
    let x := vget c.port n
    let matched := losePast n past (modPort n (fun x => { x with
      outstanding := rest, timedOut := x.timedOut.filter fun y => decide (o.number < y.1.number) }) (countPackets n packets crcErrors c))
    let buffered := bufferLine l o.number (x.linePixels stream) matched
    lineReceived n first packets crcErrors stream c =
      if ∃ y ∈ x.timedOut, y.1.number = o.number then matched
      else if ∃ k ∈ crcErrors, k ≠ 0 then lineLost n o.number matched
      else if x.relocked then linkUp n o.number (modPort n (fun x => { x with state := .streaming, relocked := false }) buffered) else buffered := by
  have hserved : (((vget c.port n).state != .streaming && !(vget c.port n).relocked) ||
      decide (((vget c.port n).linePixels stream).length < (vget c.port n).width)) = false := by
    obtain h | h := hstate <;> simp [h, hwidth]
  simp only [lineReceived, hserved, hmatch, hlane, Bool.false_eq_true, if_false]
  refine if_congr (by simp) rfl (if_congr (by simp) rfl rfl)

end

theorem lineTimeout_cons {o : Outstanding} {rest : List Outstanding} (h : (vget c.port n).outstanding = o :: rest) :
    lineTimeout n c = if c.now < o.at_ + (vget c.port n).lineTimeoutUs * 1000 then c else
      lineLost n o.number (modPort n (fun x => { x with
        outstanding := rest, timedOut := ((x.timedOut ++ [(o, c.now)]).reverse.take 64).reverse }) c) := by
  simp only [lineTimeout, h]

/-! ### Links and power (R71, R73, R74) -/

theorem linkGone_eq (n link : Nat) (c : Chip) :
    let lost := calLinkSeen n link (fun x => { x with verdict := setBit x.verdict 4 true }) (linkLost n link c)
    linkGone n link c = if (vget c.port n).state ≠ .down ∧ (vget lost.port n).state = .down ∧ (laneOf lost n).isSome then calStop lost else lost := by
  refine if_congr ?_ rfl rfl
  simp [and_assoc]

theorem powerFault_of_powered (hpower : (vget c.port n).power = true)
    (htime : (vget c.port n).powerAt + (vget c.port n).pocBlankMs * 1000000 ≤ c.now) (hd : (vget c.port n).discovery = none) :
    powerFault n c = loseOutstanding n (linkDown n 0xFF 1 (firstLostLine c n)
      (modPort n (fun x => { x.idleLinks with state := .fault, power := false, discovery := none, relocked := false }) c)) := by
  have hserved : ¬ ((!(vget c.port n).power) = true ∨ c.now < (vget c.port n).powerAt + (vget c.port n).pocBlankMs * 1000000) := by
    simp [hpower, htime]
  simp only [powerFault, if_neg hserved, hd]

/-- A link is healthy when its eye is as wide as the speed asks and its errors stay below the limit. -/
theorem linkHealth_beq_one (speed limit : Nat) (k : Link) :
    (linkHealth speed limit k == 1) = (decide (eyeThreshold speed ≤ k.eyeWidth) && decide (k.errorsLastS < limit)) := by
  unfold linkHealth
  split
  next h => simp [h]
  next h => simpa using fun hw => Nat.not_lt.1 fun he => h ⟨hw, he⟩

section
variable {link : Nat} (hlink : link < (vget c.port n).links) (hlost : (vget (vget c.port n).link link).state ≠ 3)
  (hidle : (vget (vget c.port n).link link).state ≠ 0)
include hlink hlost hidle

/-- A first unhealthy scan of a link in use is noted, and no more. -/
theorem eyeScan_noted {width new errors : Nat} :
    let x := vget c.port n
    let healthy := decide (eyeThreshold x.speed ≤ width) && decide (errors < x.codeErrorLimit)
    (healthy = true ∨ (vget x.link link).unhealthyOnce = false) →
    eyeScan n link width new errors c = calLinkSeen n link (fun y => { y with
        speed := x.speed, eyeMin := if y.eyeMax = 0 then width else min y.eyeMin width, eyeMax := max y.eyeMax width })
      (modPort n (fun x => { x with link := vmod x.link link fun y => { y with
        eyeWidth := width, lastScan := (takeErrors n link new errors c).now, state := if healthy then 1 else 2
        unhealthyOnce := !healthy, qualityRaised := y.qualityRaised && !healthy } }) (takeErrors n link new errors c)) := by
  intro x healthy h
  have hserved : ¬ ((vget c.port n).links ≤ link ∨ (vget (vget c.port n).link link).state = 3 ∨ (vget (vget c.port n).link link).state = 0) := by
    simp [hlink, hlost, hidle]
  have hquiet : (!(healthy) && (vget x.link link).unhealthyOnce) = false := by
    obtain h | h := h <;> simp [h]
  simp only [eyeScan, ge_iff_le, if_neg hserved, linkHealth_beq_one]
  rw [if_neg (by rw [show (!(_ && _) && _) = false from hquiet]; simp)]

theorem codeErrorLimit_reached {new errors : Nat} (h : (vget c.port n).codeErrorLimit ≤ errors) :
    codeErrorLimit n link new errors c = qualityLow n link
      (modPort n (fun x => { x with link := vmod x.link link fun y => { y with state := 2 } }) (takeErrors n link new errors c)) := by
  have hserved : ¬ ((vget c.port n).links ≤ link ∨ (vget (vget c.port n).link link).state = 3 ∨
      (vget (vget c.port n).link link).state = 0 ∨ errors < (vget c.port n).codeErrorLimit) := by
    simp [hlink, hlost, hidle, h]
  simp only [codeErrorLimit, ge_iff_le, if_neg hserved]

end

/-- A port that recovers reads two registers of the camera again, and comes up where they are as before. -/
theorem linkRelock_of_recovers (h : (vget c.port n).recovers = true) (width pixelFormat : Nat) :
    let x := vget c.port n
    let read := emit (.cxpBootstrap n .pixelFormat none) (emit (.cxpBootstrap n .width none) c)
    let up := modPort n (fun x => { x with link := vmapIdx (fun m y => if m < x.links then { y with state := if eyeThreshold x.speed ≤ y.eyeWidth ∧ y.errorsLastS < x.codeErrorLimit then 1 else 2 } else y) x.link }) read
    linkRelock n width pixelFormat c =
      if width ≠ x.width ∨ pixelFormat ≠ x.pixelFormat then linkDown n 0xFF 2 c.trig.number (modPort n (fun x => { x with mismatch := true }) read)
      else if (laneOf up n).isSome && triggering up then modPort n (fun x => { x with relocked := true, outstanding := [], timedOut := [] }) up
      else linkUp n c.trig.number (modPort n (fun x => { x with state := .ready }) up) := by
  simp only [linkRelock, h, if_true, Bool.not_true, Bool.false_eq_true, if_false]
  rfl

end

end Sys2Proof.Machine

namespace Sys2Proof
open Sys2Proof.Machine
set_option Elab.async false

/-- Settles O47, row by row: each event's function in the case the statement names. -/
theorem portEvents : Obligations.PortEvents := by
  refine ⟨fun s t port d i speed => ?_, fun s t port d hd hq => ?_, fun s t port code data a rest => ?_, fun s t k links speed offset length r id => ?_,
    fun s t port first l packets crcErrors stream o past rest => ?_, fun s t port o rest => ?_, fun s t port link => ?_, fun s t port => ?_,
    fun s t port link width new errors => ?_, fun s t port => ?_, fun s t port width pixelFormat => ?_⟩
  · intro c links asked first limit told eye errors trained ready hd hq haccepted hspeed
    rw [exec_discoveryComplete]
    exact State.next_put (discoveryComplete_of_locks hd hq haccepted hspeed)
  · rw [exec_discoveryComplete]
    exact State.next_put (discoveryComplete_none (c := s.tick t) hd hq)
  · intro c k taken hx
    rw [exec_controlAckReceived, exec_controlAckReceived, exec_controlAckReceived, exec_controlAckTimeout]
    refine ⟨State.next_put (controlAck_good hx code data), State.next_put (controlAck_error hx code data), State.next_put ?_, State.next_put ?_⟩
    · rw [controlAck_corrupt hx, retryPacket_cons hx]
    · rw [retryPacket_cons hx, endAccess_cons hx]
  · intro c v put h
    simp only [exec_vcamControlPacket]
    refine ⟨State.next_put (vcamControl_enabled h _), State.next_put (vcamControl_enabled h _), State.next_put (vcamControl_enabled h _),
      State.next_put (vcamControl_enabled h _), State.next_put (vcamControl_enabled h _), State.next_put (vcamControl_enabled h _),
      State.next_put (vcamControl_enabled h _), State.next_put (vcamControl_enabled h _), ?_⟩
    rw [exec_vcamTriggerPacket]
    exact State.next_put (if_pos h)
  · intro c x counted matched buffered hstate hwidth hlane hmatch
    rw [exec_cameraLineReceived]
    have hline := lineReceived_matched (c := c) hstate hwidth hlane hmatch
    refine ⟨fun hlate hcrc => State.next_put ?_, fun hlate => State.next_put ?_, fun hlate hcrc => State.next_put ?_⟩
    · rw [hline, if_neg (by simpa using hlate), if_neg (by simpa using hcrc)]
    · rw [hline, if_pos hlate]
    · rw [hline, if_neg (by simpa using hlate), if_pos hcrc]
  · intro c x hx
    rw [exec_lineTimeout, lineTimeout_cons hx]
    exact ⟨fun h => State.next_put (if_neg (Nat.not_lt.2 h)), fun h => State.next_put (if_pos h)⟩
  · intro c lost
    rw [exec_linkLost]
    exact State.next_put (linkGone_eq port link c)
  · intro c x hpower htime hd
    rw [exec_powerFault]
    exact State.next_put (powerFault_of_powered hpower htime hd)
  · intro c x k healthy hlink hlost hidle
    rw [exec_eyeScan, exec_codeErrorLimit]
    exact ⟨fun h => State.next_put (eyeScan_noted hlink hlost hidle h), fun h => State.next_put (codeErrorLimit_reached hlink hlost hidle h)⟩
  · intro c hrecovers htime
    rw [exec_recoveryAttempt]
    exact State.next_put (if_pos ⟨hrecovers, htime⟩)
  · intro c x read up hrecovers
    rw [exec_linkRelock, linkRelock_of_recovers (c := s.tick t) hrecovers]
    refine ⟨fun h => State.next_put (if_pos h), fun hw hp hlane htrig => State.next_put ?_, fun hw hp h => State.next_put ?_⟩
    · have hserves : ((laneOf up port).isSome && triggering up) = true := by simp [hlane, htrig]
      exact (if_neg (by simp [hw, hp, x, c])).trans (if_pos hserves)
    · have hrests : ¬ ((laneOf up port).isSome && triggering up) = true := by
        obtain h | h := h <;> simp [h]
      exact (if_neg (by simp [hw, hp, x, c])).trans (if_neg hrests)

end Sys2Proof

/-! SUPPORT. Chapters 4 to 8: the events of the imaging pipeline. -/
namespace Sys2Proof.Machine

-- One proof after another: many at once need a stack each, and together more memory than the check has.
set_option Elab.async false

section
variable {c : Chip}

/-! ### Lines through the Pergola (R103, R133, R135) -/

/-- A lane corrects a line it owes, once the camera line is there. -/
theorem laneCorrects_of_ready {l n : Nat} {line : CamLine} (hruns : pipelineRuns c = true) (hmapped : laneMapped c l = true)
    (hbound : (vget c.engines.binding l).isSome = true) (hwithheld : bit c.engines.withheld l = false) (hnew : contributed c l n = false)
    (hnext : c.perg.next ≤ n) (hissued : n < c.trig.number) (hline : cameraLine c (settingsAt c n) l n = some line) :
    laneCorrects l n c = correctLine l n (settingsAt c n) line c := by
  have hbound : (vget c.engines.binding l).isNone = false := by simpa using hbound
  simp [laneCorrects, hruns, hmapped, hbound, hwithheld, hnew, Nat.not_lt.2 hnext, Nat.not_le.2 hissued, hline]

theorem assembly_of_canAssemble {line : Stitched} {rest : List Stitched} (hcan : canAssemble c = true)
    (hmade : (assembleLine c).perg.recent = line :: rest) :
    let kept := rotundaLine (settingsAt c c.perg.next) c.perg.next (storeLine (settingsAt c c.perg.next) line.tag (assembleLine c))
    assembly c = if kept.modes.base = .relay then viewLine { line, mask := line.columns.map fun _ => 0 } kept else kept := by
  simp only [assembly, hcan, hmade, List.head?_cons, Bool.not_true, Bool.false_eq_true, if_false]

theorem waitExpires_of_due {l m : Nat} (hmapped : laneMapped c l = true)
    (hdue : ((List.range 5).map (c.perg.next + ·)).find? (fun m => decide (m < c.trig.number) && !settled c l m) = some m) :
    let counted := satAdd 0x0206 (32 * l + 16) l 32 (vget c.lane l).linesLost 1 c
    waitExpires l c = { modLane l (fun x => { x with linesLost := counted.1 }) counted.2 with
      perg := { counted.2.perg with expired := counted.2.perg.expired ++ [(l, m)] } } := by
  simp only [waitExpires, hdue, hmapped, Bool.not_true, Bool.false_eq_true, if_false]

/-! ### Seams (R127, R130) -/

/-- Two changes that agree on the seam as it stands are one change. -/
theorem modSeam_congr {k : Nat} {f g : Seam → Seam} (h : f (getSeam c k) = g (getSeam c k)) : modSeam k f c = modSeam k g c := by
  unfold modSeam
  unfold getSeam at h
  split
  next hk => rw [if_pos hk] at h; rw [h]
  next hk => rw [if_neg hk] at h; rw [vmod, h]; rfl

/-- No part of the measured stretch is tainted, and half of its lines at the least took part. -/
theorem seam_not_bad {x : Seam} {nm span : Nat} (hpossible : x.possible ≤ 2 * (x.sums.getD 76 {}).n)
    (htaints : ∀ m ∈ x.taints, nm < m ∨ m + span < nm + 1) :
    (decide (2 * (x.sums.getD 76 {}).n < x.possible) ||
      x.taints.any fun m => decide (nm + 1 ≤ m + span) && decide (m ≤ nm)) = false := by
  simp only [Bool.or_eq_false_iff, decide_eq_false_iff_not, Nat.not_lt, List.any_eq_false, Bool.and_eq_true, decide_eq_true_eq]
  refine ⟨hpossible, fun m hm => ?_⟩
  have := htaints m hm
  omega

/-- A stretch of 1024 lines that can be measured is: a weak measurement, or a good one. -/
theorem seamMeasure_of_measured {k : Nat} {pc pm : Int} {conf : Nat} :
    let x := getSeam c k
    let nm := c.perg.next / 1024 * 1024 - 1
    let at_ := x.positionAt nm
    let counted := satAdd 0x0705 (16 + 16 * k + 8) k 32 x.measurements 1 c
    let z := seamSettings c k nm
    let cleared := modSeam k (fun s => { s with
      sums := [], possible := 0, taints := s.taints.filter fun m => decide (nm < m), measurements := counted.1 }) counted.2
    x.sums ≠ [] → 1024 ≤ c.perg.next → (c.perg.next % 1024 = 0 ∨ z.inWindow c.perg.next = false) → z.track = true →
    x.possible ≤ 2 * (x.sums.getD 76 {}).n → (∀ m ∈ x.taints, nm < m ∨ m + 2 ^ z.corrLinesLog2 < nm + 1) →
    { x with textureMin := z.textureMin }.measure at_.1 at_.2 = (some (pc, pm), conf) →
    seamMeasure k c = if nm < x.appliedAt then modSeam k (fun s => { s with confidence := conf }) cleared
      else if conf < z.confThreshold ∨ pc.natAbs = 8 ∨ pm.natAbs = 4 then weakMeasurement k nm conf cleared
      else goodMeasurement k nm conf pc pm at_.1 at_.2 z cleared := by
  intro x nm at_ counted z cleared hsums hnext hwindow htrack hpossible htaints hmeasure
  have hmeasures : (x.sums.isEmpty || decide (c.perg.next < 1024) || (c.perg.next % 1024 != 0 && z.inWindow c.perg.next) || !z.track) = false := by
    obtain hw | hw := hwindow <;> simp [hsums, hnext, hw, htrack]
  have hbad := seam_not_bad hpossible htaints
  rw [seamMeasure]
  refine (if_neg (by rw [show (_ || _ || _ || _) = false from hmeasures]; simp)).trans ?_
  dsimp only [x, z, at_, nm] at hmeasure
  simp only [hmeasure]
  refine (if_neg (by rw [show (_ || _) = false from hbad]; simp)).trans ?_
  exact if_congr Iff.rfl rfl (if_congr (by simp [or_assoc, z, nm]) rfl rfl)

/-- With no entry due, the last of the positions due is taken. -/
theorem settle_of_due {x : Seam} {n m : Nat} {dc dm : Int} {measured : Bool} (happlies : x.applies.filter (decide <| · ≤ n) = [])
    (hdue : (x.next.filter fun y => decide (y.2.2.1 ≤ n)).getLast? = some (dc, dm, m, measured)) :
    x.settle n = { x with
      applies := x.applies.filter (fun m => decide (n < m)), dc, dm, next := x.next.filter fun y => !decide (y.2.2.1 ≤ n) } := by
  simp only [Seam.settle, happlies, List.foldl_nil, Seam.takePositions, hdue]

/-! ### Detection, labelling and classification (R169, R187, R220) -/

theorem detectLine_cons {line : Stitched} {rest : List Stitched} (hruns : pipelineRuns c = true) (hout : c.perg.out = line :: rest) :
    let taken := { c with perg := { c.perg with out := rest } }
    let x := settingsAt taken line.tag.number
    let found := takeDet (c.det.process x (c.modes.base == .inspect) true (c.health.level == 3) line) taken
    detectLine c = if c.modes.base = .relay then taken
      else if x.fd ≤ line.tag.number then deliverMask (line.tag.number - x.fd) found else found := by
  simp only [detectLine, hruns, hout, Bool.not_true, Bool.false_eq_true, if_false]

theorem labelLine_cons {m : MaskLine} {rest : List MaskLine} (hruns : pipelineRuns c = true) (hout : c.det.out = m :: rest)
    (hgang : gangAbove c m.line.tag.number = true → c.gang.exchange.any (fun e => e.1 == m.line.tag.number) = true) :
    labelLine c = pruneOlder (labelMask (settingsAt c m.line.tag.number) m { c with det := { c.det with out := rest } }) := by
  have hwaits : (gangAbove c m.line.tag.number && !c.gang.exchange.any fun e => e.1 == m.line.tag.number) = false := by
    cases hg : gangAbove c m.line.tag.number
    · rfl
    · rw [hgang hg]; rfl
  simp only [labelLine, hout, hruns, hwaits, Bool.not_true, Bool.or_self, Bool.false_eq_true, if_false]

theorem acceptBlob_of_closed {k : Closed} {rest : List Closed} (h : firstClosed c = some (k, rest)) :
    acceptBlob c = releaseModel (pruneOlder (emitRecord k { c with carry := { c.carry with closed := rest } })) := by
  simp only [acceptBlob, h]

theorem rotundaSweep_of_sample {roll n : Nat} {xs : List (Option RollSample)} {x : RollSample}
    (hline : c.rotunda.samples.find? (fun s => decide (s.1 < c.perg.next)) = some (n, xs)) (hsample : sampleOf c n roll = some x) :
    rotundaSweep roll c = { c with rotunda := { c.rotunda with cells := c.rotunda.cells.filter fun y =>
      !(y.roll == roll && decide (2 ≤ revsBehind x.rev16 y.last) && decide (revsBehind x.rev16 y.last < 32768)) } } := by
  simp only [rotundaSweep, hline, hsample, Bool.and_assoc]

end

end Sys2Proof.Machine

namespace Sys2Proof
open Sys2Proof.Machine
set_option Elab.async false

/-- Settles O48, row by row along the pipeline. -/
theorem imagingEvents : Obligations.ImagingEvents := by
  refine ⟨fun s t lane n line => ?_, fun s t line rest => ?_, fun s t lane m => ?_, fun s t seam pc pm conf => ?_, fun s t seam dc dm n measured => ?_,
    fun s t line rest => ?_, fun s t => ?_, fun s t m rest => ?_, fun s t k rest => ?_, fun s t roll n xs x => ?_⟩
  · intro c hruns hmapped hbound hwithheld hnew hnext hissued hline
    rw [exec_laneLineCorrection]
    exact State.next_put (laneCorrects_of_ready hruns hmapped hbound hwithheld hnew hnext hissued hline)
  · intro c made kept hcan hmade
    rw [exec_stitchedLineAssembly]
    exact State.next_put (assembly_of_canAssemble hcan hmade)
  · intro c counted hmapped hdue
    rw [exec_pergolaWaitExpiry]
    exact State.next_put (waitExpires_of_due hmapped hdue)
  · intro c x nm at_ counted z cleared hsums hnext hwindow htrack hpossible htaints hmeasure
    rw [exec_seamMeasurement]
    exact State.next_put (seamMeasure_of_measured hsums hnext hwindow htrack hpossible htaints hmeasure)
  · intro c happlies hdue
    rw [exec_seamPositionApply]
    exact State.next_put (modSeam_congr (settle_of_due happlies hdue))
  · intro c taken x found hruns hout
    rw [exec_detectionLine, detectLine_cons (c := s.tick t) hruns hout]
    exact ⟨fun h => State.next_put (if_pos h), fun h => State.next_put (if_neg h)⟩
  · intro c
    rw [exec_streakEvaluation, evaluateStreaks]
  · intro c hruns hout hgang
    rw [exec_labelLine]
    exact State.next_put (labelLine_cons hruns hout hgang)
  · intro c h
    rw [exec_blobClassify]
    exact State.next_put (acceptBlob_of_closed h)
  · intro c hline hsample
    rw [exec_rotundaSweep]
    exact State.next_put (rotundaSweep_of_sample hline hsample)

end Sys2Proof

/-! SUPPORT. Chapters 5 and 7: the events of the output rings and of the spare engine. -/
namespace Sys2Proof.Machine

-- One proof after another: many at once need a stack each, and together more memory than the check has.
set_option Elab.async false

section
variable {c : Chip}

/-! ### Records and tiles (R203, R209) -/

theorem recordRingWrite_cons {r : Rec} {rest : List Rec} (hqueue : c.records.queue = r :: rest) (henabled : c.records.ring.enabled = true)
    (hfull : c.records.ring.full = false) (hhost : hostWrites c = true) (hwaits : waitsForTile c r = false) :
    let taken := placeGap { c with records := { c.records with queue := rest } }
    let written := ringPut taken.records.ring r.data taken.records.queue.length taken.records.droppedTotal taken
    let after := { written.2 with records := { written.2.records with ring := written.1 } }
    recordRingWrite c = if r.gap = 0 then after else raise 0x0504 3 0x7F (le 4 r.gap ++ le 8 r.id) after := by
  simp only [recordRingWrite, hqueue, henabled, hfull, hhost, hwaits, Bool.not_true, Bool.or_self, Bool.false_eq_true, if_false]

theorem tileWrite_cons {j : TileJob} {rest : List TileJob} (hjobs : c.tiles.jobs = j :: rest) (hpast : j.fromLookback = false)
    (hopen : tileRingOpen c = true) (hengine : tileEngine c j = true) : tileWrite c = writeTile j true c := by
  simp only [tileWrite, hjobs, hpast, hopen, hengine, Bool.not_true, Bool.or_self, Bool.false_eq_true, if_false]

theorem readColumns_length (c : Chip) (n : Nat) (cols : List Int) : (readColumns c n cols).length = cols.length := by
  unfold readColumns
  split <;> exact List.length_map ..

/-- The rows of a tile, each with a pixel in each of its columns. -/
theorem tile_rows_length {α β : Type} (rows : List α) (f : α → List β) (k : Nat) (h : ∀ n ∈ rows, (f n).length = k) :
    (rows.flatMap f).length = rows.length * k := by
  rw [List.length_flatMap, List.map_congr_left h, List.map_const', List.sum_replicate, smul_eq_mul]

/-- Stitched line n is part of the history. -/
def inHistory (c : Chip) (n : Int) : Bool := decide (0 ≤ n) && decide (n < c.perg.next)

/-- The rows and the columns of a tile. -/
def tileRows (j : TileJob) : List Int := (List.range j.size).map fun (i : Nat) => j.n0 + i
def tileCols (j : TileJob) : List Int := (List.range j.size).map fun (i : Nat) => j.c0 + i

/-- The history holds every row of a tile, in time. -/
def lateFound (inTime : Bool) (j : TileJob) (c : Chip) : Bool :=
  inTime && (tileRows j).all fun n => inHistory c n && (lineCause c.orangery n.toNat (max 0 j.c0).toNat (j.c0 + j.size - 1).toNat).isNone

/-- The pixels the history gives for a tile. -/
def latePixels (j : TileJob) (c : Chip) : List (Option Nat) :=
  (tileRows j).flatMap fun n => if !inHistory c n then (tileCols j).map fun _ => none
    else (readColumns c n.toNat (tileCols j)).map fun x => if x.valid then some x.grey else none

/-- A tile as it is written late. -/
def lateJob (inTime : Bool) (j : TileJob) (c : Chip) : TileJob :=
  { j with
    pixels := latePixels j c, mdTop := ((indexOf c.orangery j.n0.toNat).map (·.tag.md)).getD j.mdTop
    reduced := lateFound inTime j c && ((allBlocks c.orangery).any fun b => b.depth8 &&
      (tileRows j).any fun n => inHistory c n && b.meets n.toNat (max 0 j.c0).toNat (j.c0 + j.size - 1).toNat) && j.format == 1 }

theorem latePixels_length (j : TileJob) (c : Chip) : (latePixels j c).length = j.size * j.size := by
  have hrow : ∀ n ∈ tileRows j, (if !inHistory c n then (tileCols j).map fun _ => none
      else (readColumns c n.toNat (tileCols j)).map fun x => if x.valid then some x.grey else none).length = j.size := by
    intro n _
    split <;> simp [readColumns_length, tileCols]
  rw [latePixels, tile_rows_length _ _ _ hrow, tileRows, List.length_map, List.length_range]

theorem lateTile_cons {inTime : Bool} {j : TileJob} {rest : List TileJob} (errors : List ReadError) (hjobs : c.tiles.jobs = j :: rest)
    (hpast : j.fromLookback = true) (hopen : tileRingOpen c = true) (hengine : inTime = true → tileEngine c j = true) :
    lateTile inTime errors c =
      writeTile (lateJob inTime j (takeReads errors c)) (lateFound inTime j (takeReads errors c)) (takeReads errors c) := by
  have hready : (inTime && !tileEngine c j) = false := by
    cases hin : inTime
    · rfl
    · simp [hengine hin]
  simp only [lateTile, hjobs, hpast, hopen, hready, Bool.not_true, Bool.or_self, Bool.false_eq_true, if_false,
    lateJob, lateFound, latePixels, inHistory, tileRows, tileCols]
  congr 2

/-! ### The interrupt hold-off (R209) -/

theorem irqHoldoffExpiry_events (hover : c.evq.ring.holdoffOver c.now = true) :
    irqHoldoffExpiry 32 c = { signalVector 1 c with
      evq := { (signalVector 1 c).evq with ring := { c.evq.ring with sinceIrq := 0, signalBy := none } } } := by
  simp only [irqHoldoffExpiry, hover, ringSignal, Bool.true_or, if_true]

theorem irqHoldoffExpiry_ring {channel : Nat} {r : Ring} (hne : channel ≠ 32) (hring : ringOf c channel = some r)
    (hover : r.holdoffOver c.now = true) :
    irqHoldoffExpiry channel c = signalVector (2 + channel) (modRing channel (fun r => { r with sinceIrq := 0, signalBy := none }) c) := by
  simp only [irqHoldoffExpiry, if_neg hne, hring, hover, if_true]

/-! ### The spare engine (R136, R137, R138, R144) -/

theorem shadowStart_of_idle {l sp : Nat} (hspare : c.engines.spare = some sp) (htrig : triggering c = true) (hreplay : replaying c = false)
    (hshadow : c.engines.shadow = none) (hinterrupted : c.engines.interrupted = none) (hlane : nextShadowLane c c.engines.lastLane = some l) :
    shadowStart c = { c with engines := { c.engines with
      shadow := some (l, 256 * ((firstOwed c l + 255) / 256)), lastLane := some l, interrupted := none, confirming := false, copy := none, blocks := [] } } := by
  simp [shadowStart, hspare, htrig, hreplay, hshadow, hinterrupted, hlane, modEngines]

section
variable {block upset working spare l first sp : Nat} (hshadow : c.engines.shadow = some (l, first)) (hspare : c.engines.spare = some sp)
  (halign : block % 256 = 0) (hfirst : first ≤ block) (hlast : block < first + 2 ^ 20) (hdone : blockProcessed c l block = true)
  (hsums : ((c.engines.blocks.find? fun b => b.1 == block).map (·.2)).getD (0xFFFFFFFF, 0xFFFFFFFF) = (working, spare))
include hshadow hspare halign hfirst hlast hdone hsums

/-- A processed block of the shadow period is compared: equal sums clear the mismatch, unequal sums hand the lane to the spare. -/
theorem blockCompare_of_processed :
    let taken := modEngines (fun e => { e with blocks := e.blocks.filter fun b => b.1 != block }) c
    blockCompare block upset c = if Nat.xor working (upset % 2 ^ 32) = spare then
        modEngines (fun e => { e with mismatched := setBit e.mismatched l false }) taken
      else
        let moved := takeover l (if c.engines.confirming then 2 else 1) c.perg.next taken
        modEngines (fun e => { e with
          mismatched := setBit e.mismatched l true
          testing := e.testing.map fun x => if x.lane = l ∧ bit c.engines.mismatched l then { x with cause := 2 } else x })
        (raise 0x0501 2 l (le 1 l ++ le 1 ((vget c.engines.binding l).getD 0xFF) ++ le 1 sp ++ [0] ++ le 8 block) moved) := by
  have hcompared : ¬ (block % 256 ≠ 0 ∨ block < first ∨ first + 2 ^ 20 ≤ block ∨ (!blockProcessed c l block) = true) := by
    simp only [hdone, Bool.not_true, Bool.false_eq_true, or_false]
    omega
  simp only [blockCompare, hshadow, hspare, hsums, if_neg hcompared]
  rfl

end

theorem engineFault_working {engine l : Nat} (hspare : c.engines.spare ≠ some engine) (hlane : engineLane c engine = some l)
    (hwithheld : bit c.engines.withheld l = false) : engineFault engine c = takeover l 0 (firstOwed c l) c := by
  simp only [engineFault, if_neg hspare, hlane, hwithheld, Bool.false_eq_true, if_false]

theorem engineFault_spare {engine : Nat} (hspare : c.engines.spare = some engine) :
    let out := modEngines (fun x => { x with spare := none, testing := x.testing ++ [{ engine, lane := 0xFF, cause := 3 }] }) (interruptShadow c)
    engineFault engine c = { out with orangery := { out.orangery with
      jobs := out.orangery.jobs.map fun x => if x.replay && x.running then { x with preempted := true } else x } } := by
  simp only [engineFault, if_pos hspare]

section
variable {engine : Nat} {x : UnderTest} (htest : c.engines.testing.find? (fun x => x.engine == engine) = some x)
include htest

/-- An engine that passes becomes the spare again, unless it is the second to mismatch. -/
theorem selfTestDone_passed (hfirst : x.cause ≠ 1) (hsecond : x.cause ≠ 2) :
    let ended := modEngines (fun y => { y with testing := y.testing.filter fun z => z.engine != engine }) c
    selfTestDone engine true c = newSpare engine (takeoverEvent x.lane engine 0xFF 4 ended.trig.number ended) := by
  simp only [selfTestDone, htest, hfirst, hsecond, ne_eq, not_false_eq_true, and_self, if_true, if_false]

theorem selfTestDone_retired {passed : Bool} (h : passed = false ∨ x.cause = 2) :
    let ended := modEngines (fun y => { y with testing := y.testing.filter fun z => z.engine != engine }) c
    selfTestDone engine passed c =
      takeoverEvent x.lane engine 0xFF 5 ended.trig.number (modEngines (fun y => { y with retired := setBit y.retired engine true }) ended) := by
  have hfails : ¬ (passed = true ∧ x.cause ≠ 2) := by
    obtain h | h := h <;> simp [h]
  simp only [selfTestDone, htest, if_neg hfails]

end

end

end Sys2Proof.Machine

namespace Sys2Proof
open Sys2Proof.Machine
set_option Elab.async false

/-- Settles O49, row by row: the rings first, then the spare engine. -/
theorem outputAndSpareEvents : Obligations.OutputAndSpareEvents := by
  refine ⟨fun s t r rest => ?_, fun s t j rest => ?_, fun s t inTime errors j rest => ?_, fun s t channel r => ?_, fun s t l sp => ?_,
    fun s t block upset working spare l first sp => ?_, fun s t engines => ?_, fun c engine l => engineFault_working,
    fun c engine => engineFault_spare, fun s t engine passed x => ?_⟩
  · intro c taken written after hqueue henabled hfull hhost hwaits
    rw [exec_recordRingWrite]
    exact State.next_put (recordRingWrite_cons hqueue henabled hfull hhost hwaits)
  · intro c hjobs hpast hopen hengine
    rw [exec_tileWrite]
    exact State.next_put (tileWrite_cons hjobs hpast hopen hengine)
  · intro c hjobs hpast hopen hengine
    rw [exec_lateTileDelivery]
    exact ⟨_, _, State.next_put (lateTile_cons errors hjobs hpast hopen hengine), fun h => (Bool.and_eq_true_iff.1 h).1, rfl, rfl, rfl,
      latePixels_length j _⟩
  · intro c hover
    rw [exec_irqHoldoffExpiry]
    refine ⟨?_, fun hne hring => State.next_put (irqHoldoffExpiry_ring (fun h => hne (Fin.ext h)) hring hover)⟩
    rintro rfl rfl sent rfl
    exact State.next_put (irqHoldoffExpiry_events hover)
  · intro c hspare htrig hreplay hshadow hinterrupted hlane
    rw [exec_shadowPeriodStart]
    exact State.next_put (shadowStart_of_idle hspare htrig hreplay hshadow hinterrupted hlane)
  · intro c taken hshadow hspare halign hfirst hlast hdone hsums
    rw [exec_shadowBlockCompare, blockCompare_of_processed (c := s.tick t) hshadow hspare halign hfirst hlast hdone hsums]
    exact ⟨fun h => State.next_put (if_pos h), fun h => State.next_put (if_neg h)⟩
  · rw [exec_engineFault]
    rfl
  · intro c ended htest
    rw [exec_engineSelfTestDone]
    refine ⟨?_, fun h => State.next_put (selfTestDone_retired htest h)⟩
    rintro rfl hfirst hsecond
    exact State.next_put (selfTestDone_passed htest hfirst hsecond)

end Sys2Proof

/-! SUPPORT. Chapters 9 and 10: the events of the Orangery, the views and the compression engines. -/
namespace Sys2Proof.Machine

-- One proof after another: many at once need a stack each, and together more memory than the check has.
set_option Elab.async false

section
variable {c : Chip}

/-! ### Blocks of the history (R246, R247) -/

/-- The first staged block has left the staging store. -/
def unstaged (rest : List Block) (c : Chip) : Chip :=
  writerFill (stagingUsed (modOrangery (fun o => { o with staging := rest }) c).orangery) (modOrangery (fun o => { o with staging := rest }) c)

theorem blockWrite_dropped {b : Block} {rest : List Block} (h : c.orangery.staging = b :: rest) :
    blockWrite false c = dropBlock b (unstaged rest c) := by
  simp only [blockWrite, h, unstaged, Bool.not_false, if_true]

theorem blockWrite_placed {b : Block} {rest : List Block} {es : List Nat} {placed : Chip} (h : c.orangery.staging = b :: rest)
    (hplaced : placeBytes (b.bytes / extentBytes + 2) b.bytes [] (unstaged rest c) = some (es, placed)) :
    blockWrite true c = pinPlaced b es (modOrangery (fun o => { o with
      blocks := { b with extents := es } :: o.blocks
      writtenLog := (placed.now, b.bytes, Block.rawBytes b) :: o.writtenLog.filter fun w => decide (placed.now < w.1 + 1000000000) }) placed) := by
  rw [unstaged] at hplaced
  simp only [blockWrite, h, hplaced, Bool.not_true, Bool.false_eq_true, if_false]

/-! ### Jobs on the history (R254, R255) -/

section
variable {j : LbJob} (hroom : (c.orangery.jobs.filter (·.running)).length < 4) (hmode : mode c ≠ 3) (hlodge : lodgeRestarts c = false)
  (hturn : jobInTurn c = some j)
include hroom hmode hlodge hturn

omit hturn in
theorem job_starts : ¬ (4 ≤ (c.orangery.jobs.filter (·.running)).length ∨ mode c = 3 ∨ lodgeRestarts c = true) := by
  simp [hroom, hmode, hlodge]

theorem jobStart_replay (hreplay : j.replay = true) : jobStart c = startReplay j (interruptShadow (flushFor j c)) := by
  simp only [jobStart, if_neg (job_starts hroom hmode hlodge), hturn, hreplay, if_true]

theorem jobStart_retrieval {ch : Nat} (hreplay : j.replay = false) (hchannel : jobChannel (flushFor j c) j = some ch) :
    jobStart c = modJob j.id (fun j => { j with running := true, channel := some ch }) (takeChannel ch 4 (flushFor j c)) := by
  simp only [jobStart, if_neg (job_starts hroom hmode hlodge), hturn, hreplay, hchannel, Bool.false_eq_true, if_false]

end

theorem jobDone_replay {job : Nat} {errors : List ReadError} {j : LbJob} (hjob : c.orangery.jobs.find? (fun j => j.id == job && j.running) = some j)
    (hreplay : j.replay = true) (h : c.health.level = 0 ∨ j.preempted = true) :
    jobDone job errors c = replayEnds j (errors.any fun e => e.hit == .model && readFails e) (takeReads errors c) := by
  have hends : ¬ (c.health.level ≠ 0 ∧ (!j.preempted) = true) := by
    obtain h | h := h <;> simp [h]
  simp only [jobDone, hjob, hreplay, if_true, if_neg hends]

theorem jobDone_retrieval {job : Nat} {errors : List ReadError} {j : LbJob} (hjob : c.orangery.jobs.find? (fun j => j.id == job && j.running) = some j)
    (hreplay : j.replay = false) (hhost : hostWrites c = true) : jobDone job errors c = retrieve j (takeReads errors c) := by
  simp only [jobDone, hjob, hreplay, hhost, Bool.false_eq_true, if_false, if_true]

/-! ### Frames of a view (R265, R267) -/

section
variable {k : Nat} (hstarted : (vget c.view k).started = true)
include hstarted

section
variable (hmodes : viewModes c = true) (hlevel : c.health.level = 0)
include hmodes hlevel

/-- A frame whose rows were not read is dropped. -/
theorem frameEmit_unread (room : Bool) : frameEmit k false room none c = dropFrame k 3 c := by
  simp [frameEmit, hstarted, hmodes, hlevel, takeReads]

theorem frameEmit_readError {e : ReadError} (h : readFails { e with hit := .rows } = true) (room : Bool) :
    frameEmit k true room (some e) c = dropFrame k 3 (takeRead false 0xFFFF { e with hit := .rows } c) := by
  have hfails : readFails e = true := h
  simp [frameEmit, hstarted, hmodes, hlevel, takeReads, hfails]

theorem frameEmit_ring (hdelivery : (vget c.view k).cfg.delivery = 0) (henabled : (vget c.view k).ring.enabled = true)
    (hfull : (vget c.view k).ring.full = false) (hhost : hostWrites c = true) :
    let v := vget c.view k
    let rows := v.rows.take v.cfg.frameHeight
    let header := frameHeader k v rows c
    let planes := planeBytes v.cfg (·.grey) rows.reverse ++ (if v.cfg.overlay then planeBytes v.cfg (·.overlay) rows.reverse else [])
    let written := ringPut v.ring (header.1 ++ planes) 0 v.dropped header.2
    frameEmit k true true none c = { written.2 with view := vset written.2.view k { v with
      ring := written.1, frameNumber := v.frameNumber + 1, lastRow := ((rows.head?).map (·.r)).or v.lastRow } } := by
  simp [frameEmit, hstarted, hmodes, hlevel, takeReads, hdelivery, henabled, hfull, hhost]

theorem frameEmit_ringClosed (hdelivery : (vget c.view k).cfg.delivery = 0)
    (h : (vget c.view k).ring.enabled = false ∨ (vget c.view k).ring.full = true ∨ hostWrites c = false) :
    frameEmit k true true none c = dropFrame k 0 c := by
  have hclosed : (!(vget c.view k).ring.enabled || (vget c.view k).ring.full || !hostWrites c) = true := by
    obtain h | h | h := h <;> simp [h]
  simp [frameEmit, hstarted, hmodes, hlevel, takeReads, hdelivery, hclosed]

theorem frameEmit_sent {mac : Nat} (hdelivery : (vget c.view k).cfg.delivery ≠ 0) (hmac : destMac c (vget c.view k).cfg = some mac) :
    let v := vget c.view k
    let rows := v.rows.take v.cfg.frameHeight
    let sent := sendPackets k (v.cfg.delivery - 1) mac (rtpTime c) (framePackets v.cfg rows.reverse) c
    frameEmit k true true none c = { sent with view := vmod sent.view k fun v => { v with
      frameNumber := v.frameNumber + 1, lastRow := ((rows.head?).map (·.r)).or v.lastRow } } := by
  simp [frameEmit, hstarted, hmodes, hlevel, takeReads, hdelivery, hmac]

theorem frameEmit_unresolved (hdelivery : (vget c.view k).cfg.delivery ≠ 0) (hmac : destMac c (vget c.view k).cfg = none) :
    frameEmit k true true none c = dropFrame k 1 (arpRequest (vget c.view k).cfg c) := by
  simp [frameEmit, hstarted, hmodes, hlevel, takeReads, hdelivery, hmac]

theorem frameEmit_noRoom {mac : Nat} (hdelivery : (vget c.view k).cfg.delivery ≠ 0) (hmac : destMac c (vget c.view k).cfg = some mac) :
    frameEmit k true false none c = dropFrame k 1 c := by
  simp [frameEmit, hstarted, hmodes, hlevel, takeReads, hdelivery, hmac]

end

theorem senderReport_started {mac : Nat} (hdelivery : (vget c.view k).cfg.delivery ≠ 0) (hmac : destMac c (vget c.view k).cfg = some mac) :
    let v := vget c.view k
    senderReport k c = emit
      (.eth (v.cfg.delivery - 1) 1 (ethTo c (v.cfg.delivery - 1) mac v.cfg.destIp (v.cfg.destPort + 1)) ([0x80, 200, 0, 6] ++ be 4 v.ssrc ++
        be 4 ((((sunNs c / 1000000000 : Nat) : Int) - c.life.totals.utcOffset + 2208988800) % 2 ^ 32).toNat ++
        be 4 (sunNs c % 1000000000 * 2 ^ 32 / 1000000000) ++ be 4 (rtpTime c) ++ be 4 v.packets ++ be 4 v.octets)) c := by
  have hdelivery : ((vget c.view k).cfg.delivery == 0) = false := by simpa using hdelivery
  simp only [senderReport, hstarted, hdelivery, hmac, Option.isNone_some, Option.getD_some, Bool.not_true, Bool.or_self,
    Bool.false_eq_true, if_false]

end

/-! ### Compression jobs (R292, R296) -/

/-- The jobs at the heads of their queues that an engine and a channel are free for. -/
def zipReady (c : Chip) : List ZipJob :=
  ([zipHead c false, zipHead c true].filterMap id).filter fun j => (zipEngine c j).isSome && (zipChannel c j).isSome

section
variable {e ch : Nat} (hlevel : c.health.level = 0) (hmode : mode c ≠ 3) (hlodge : lodgeRestarts c = false)
include hlevel hmode hlodge

/-- The ready job that was submitted first starts. -/
theorem zipStart_of_first {j : ZipJob} {js : List ZipJob}
    (hfirst : sortBy (fun a b => decide (c.zip.jobs.idxOf a ≤ c.zip.jobs.idxOf b)) (zipReady c) = j :: js)
    (hengine : zipEngine c j = some e) (hchannel : zipChannel c j = some ch) :
    zipStart c = modZip j.id (fun j => { j with state := 1, engine := e, channel := ch }) (takeChannel ch 5 c) := by
  have hstarts : ¬ (c.health.level ≠ 0 ∨ mode c = 3 ∨ lodgeRestarts c = true) := by simp [hlevel, hmode, hlodge]
  rw [zipReady] at hfirst
  simp only [zipStart, if_neg hstarts, hfirst, hengine, hchannel]

end

/-- Of two jobs that are ready, the one earlier in the queue is first. -/
theorem sortBy_zipReady {a b : ZipJob} (ha : zipHead c false = some a) (hb : zipHead c true = some b)
    (hae : (zipEngine c a).isSome = true) (hac : (zipChannel c a).isSome = true) (hbe : (zipEngine c b).isSome = true)
    (hbc : (zipChannel c b).isSome = true) :
    ∃ js, sortBy (fun a b => decide (c.zip.jobs.idxOf a ≤ c.zip.jobs.idxOf b)) (zipReady c) =
      (if c.zip.jobs.idxOf a ≤ c.zip.jobs.idxOf b then a else b) :: js := by
  have hready : zipReady c = [a, b] := by simp [zipReady, ha, hb, hae, hac, hbe, hbc]
  rw [hready]
  simp only [sortBy, insertBy, decide_eq_true_eq]
  split <;> exact ⟨_, rfl⟩

theorem zipDone_finished {job n : Nat} {source : List Byte} {hwFault : Bool} {j : ZipJob}
    (hjob : c.zip.jobs.find? (fun j => j.id == job && j.state == 1) = some j) (hhost : hostWrites c = true)
    (hfault : hwFault = false ∨ j.coder = true) :
    let e := runZip j (sliceB source 0 j.sourceLength)
    e.junk = false → e.consumed = some n →
    zipDone job source hwFault c = zipFinish { j with
      status := e.status, error := e.error, consumed := n, output := e.output.length, errorBit := e.errorBit }
        (writeData j.dest e.output (emit (.hostRead j.source (32 * ceilDiv j.sourceLength 32)) c)) := by
  intro e hjunk hconsumed
  have hworks : (hwFault && !j.coder) = false := by
    obtain h | h := hfault <;> simp [h]
  dsimp only [e] at hjunk hconsumed
  simp only [zipDone, hjob, hhost, hworks, hjunk, hconsumed, Bool.not_true, Bool.false_eq_true, if_false]
  rfl

end

end Sys2Proof.Machine

namespace Sys2Proof
open Sys2Proof.Machine
set_option Elab.async false

/-- Settles O50, row by row: the history, the views, the compression jobs. -/
theorem historyViewAndCompressionEvents : Obligations.HistoryViewAndCompressionEvents := by
  refine ⟨fun s t b rest => ?_, fun s t => ?_, fun s t j => ?_, fun s t job errors j => ?_, fun s t stream => ?_, fun s t j e ch => ?_,
    fun s t a b e ch => ?_, fun s t job n source hwFault j => ?_⟩
  · intro c gone taken hstaging
    rw [exec_orangeryBlockWrite, exec_orangeryBlockWrite]
    exact ⟨State.next_put (blockWrite_dropped hstaging), fun es placed hplaced => State.next_put (blockWrite_placed hstaging hplaced)⟩
  · intro c hquiet
    rw [exec_orangeryFlushTimeout]
    exact State.next_put (if_pos hquiet)
  · intro c flushed hroom hmode hlodge hturn
    rw [exec_lookbackJobStart]
    exact ⟨fun hreplay => State.next_put (jobStart_replay hroom hmode hlodge hturn hreplay),
      fun ch hreplay hchannel => State.next_put (jobStart_retrieval hroom hmode hlodge hturn hreplay hchannel)⟩
  · intro c told hjob
    rw [exec_lookbackJobDone]
    exact ⟨fun hreplay h => State.next_put (jobDone_replay hjob hreplay h), fun hreplay hhost => State.next_put (jobDone_retrieval hjob hreplay hhost)⟩
  · intro c v rows hstarted hmodes hlevel
    simp only [exec_frameEmit, exec_rtcpSenderReport]
    refine ⟨fun hd he hf hh => State.next_put (frameEmit_ring hstarted hmodes hlevel hd he hf hh),
      fun hd h => State.next_put (frameEmit_ringClosed hstarted hmodes hlevel hd h),
      fun mac hd hmac => State.next_put (frameEmit_sent hstarted hmodes hlevel hd hmac),
      fun hd hmac => State.next_put (frameEmit_unresolved hstarted hmodes hlevel hd hmac), fun hd hmac => ?_,
      State.next_put (frameEmit_unread hstarted hmodes hlevel _), fun e he => State.next_put (frameEmit_readError hstarted hmodes hlevel he _),
      fun mac hd hmac => State.next_put (senderReport_started hstarted hd hmac)⟩
    obtain ⟨mac, hmac⟩ := Option.isSome_iff_exists.1 hmac
    exact State.next_put (frameEmit_noRoom hstarted hmodes hlevel hd hmac)
  · intro c heads hlevel hmode hlodge hheads hengine hchannel
    rw [exec_zipJobStart]
    exact State.next_put (zipStart_of_first hlevel hmode hlodge (congrArg (sortBy _) hheads) hengine hchannel)
  · intro c first hlevel hmode hlodge ha hb hae hac hbe hbc hengine hchannel
    rw [exec_zipJobStart]
    obtain ⟨js, hfirst⟩ := sortBy_zipReady ha hb hae hac hbe hbc
    exact State.next_put (zipStart_of_first hlevel hmode hlodge hfirst hengine hchannel)
  · intro c e hjob hhost hfault hjunk hconsumed
    rw [exec_zipJobDone]
    exact State.next_put (zipDone_finished hjob hhost hfault hjunk hconsumed)

end Sys2Proof

/-! SUPPORT. Chapter 12: the events of the marking heads and the axes, and the chopper of a winding. -/
namespace Sys2Proof.Machine

-- One proof after another: many at once need a stack each, and together more memory than the check has.
set_option Elab.async false

/-! ### The chopper (R321) -/

section
variable {w : Winding} {a : AxisCfg} {target : Int} {sensed now : Nat}

@[simp] theorem Winding.switch_drive (w : Winding) (a : AxisCfg) (now : Nat) (drive positive : Bool) : (w.switch a now drive positive).drive = drive := by
  simp only [Winding.switch]; split <;> rfl

@[simp] theorem Winding.switch_positive (w : Winding) (a : AxisCfg) (now : Nat) (drive positive : Bool) :
    (w.switch a now drive positive).positive = positive := by
  simp only [Winding.switch]; split <;> rfl

@[simp] theorem Winding.switch_edgeAt (w : Winding) (a : AxisCfg) (now : Nat) (drive positive : Bool) : (w.switch a now drive positive).edgeAt = now := by
  simp only [Winding.switch]; split <;> rfl

/-- A switching edge is a reversal at its own instant or at none. -/
theorem Winding.switch_reversedAt (h : w.reversedAt ≤ now) (drive positive : Bool) : (w.switch a now drive positive).reversedAt ≤ now := by
  simp only [Winding.switch]
  split
  · exact Nat.le_refl now
  · exact h

/-- With target 0 the bridge is in decay. -/
theorem Winding.sample_zero (w : Winding) (a : AxisCfg) (sensed now : Nat) :
    w.sample a 0 sensed now = if w.drive then { w.switch a now false w.positive with ton := none } else w := by
  simp [Winding.sample]

/-- With a target of the winding's direction the sensed current is held between the thresholds, but for the blanking time. -/
theorem Winding.sample_of_sign (htarget : target ≠ 0) (hsign : w.positive = decide (0 < target)) :
    w.sample a target sensed now =
      if now < w.edgeAt + a.blankNs then w
      else if w.drive && decide (w.upper a target ≤ sensed) then { w.switch a now false w.positive with ton := some (now - w.edgeAt) }
      else if !w.drive && decide ((sensed : Int) ≤ w.lower a target) then
        { w.switch a now true w.positive with off := (w.ton.map fun ton => w.adapted a ton (now - w.edgeAt)).getD w.off, ton := none }
      else w := by
  simp [Winding.sample, htarget, hsign]

/-- Forty nanoseconds after the last reversal a bridge with a direction drives its outputs. -/
theorem Winding.pins_after {d : Bool} (hdirection : w.direction a = some d) (h : w.reversedAt ≤ now) : w.pins a (now + 40) = (d, !d) := by
  have hlate : ¬ now + 40 < w.reversedAt + 40 := by omega
  simp only [Winding.pins, hdirection, if_neg hlate]

/-- The pins of a driving bridge are those of the target's sign. -/
theorem sign_pins (htarget : target ≠ 0) : ((decide (0 < target), !decide (0 < target)) : Bool × Bool) = (decide (0 < target), decide (target < 0)) := by
  have : (¬ 0 < target) ↔ target < 0 := by omega
  simp only [← decide_not, this]

section
variable (htarget : target ≠ 0) (hsign : w.positive = decide (0 < target)) (hblank : w.edgeAt + a.blankNs ≤ now)
include htarget hsign hblank

theorem Winding.sample_above (hdrive : w.drive = true) (h : w.upper a target ≤ (sensed : Int)) :
    w.sample a target sensed now = { w.switch a now false w.positive with ton := some (now - w.edgeAt) } := by
  rw [Winding.sample_of_sign htarget hsign, if_neg (Nat.not_lt.2 hblank), if_pos (by simp [hdrive, h])]

theorem Winding.sample_below (hdrive : w.drive = false) (h : (sensed : Int) ≤ w.lower a target) :
    w.sample a target sensed now =
      { w.switch a now true w.positive with off := (w.ton.map fun ton => w.adapted a ton (now - w.edgeAt)).getD w.off, ton := none } := by
  rw [Winding.sample_of_sign htarget hsign, if_neg (Nat.not_lt.2 hblank), if_neg (by simp [hdrive]), if_pos (by simp [hdrive, h])]

/-- Between the thresholds nothing switches. -/
theorem Winding.sample_between (h : (w.drive = true ∧ (sensed : Int) < w.upper a target) ∨ (w.drive = false ∧ w.lower a target < (sensed : Int))) :
    w.sample a target sensed now = w := by
  rw [Winding.sample_of_sign htarget hsign, if_neg (Nat.not_lt.2 hblank)]
  obtain ⟨hdrive, h⟩ | ⟨hdrive, h⟩ := h
  · rw [if_neg (by simp [h]), if_neg (by simp [hdrive])]
  · rw [if_neg (by simp [hdrive]), if_neg (by simp [h])]

end

/-- At the upper threshold a driving bridge goes into decay: both outputs low, or in fast decay the reverse of the target's. -/
theorem Winding.decays (htarget : target ≠ 0) (hsign : w.positive = decide (0 < target)) (hreversed : w.reversedAt ≤ now)
    (hblank : w.edgeAt + a.blankNs ≤ now) (hdrive : w.drive = true) (h : w.upper a target ≤ (sensed : Int)) :
    let u := w.sample a target sensed now
    u.drive = false ∧ u.edgeAt = now ∧ (a.fastDecay = false → u.pins a now = (false, false)) ∧
      (a.fastDecay = true → u.pins a (now + 40) = (decide (target < 0), decide (0 < target))) := by
  simp only [Winding.sample_above htarget hsign hblank hdrive h]
  refine ⟨Winding.switch_drive .., Winding.switch_edgeAt .., fun hslow => ?_, fun hfast => ?_⟩
  · simp [Winding.pins, Winding.direction, hslow]
  · refine (Winding.pins_after (d := !decide (0 < target)) (by simp [Winding.direction, hfast, hsign]) ?_).trans ?_
    · exact Winding.switch_reversedAt hreversed ..
    · simpa using congrArg Prod.swap (sign_pins htarget)

/-- At the lower threshold a bridge in decay drives in the target's direction. -/
theorem Winding.drives (htarget : target ≠ 0) (hsign : w.positive = decide (0 < target)) (hreversed : w.reversedAt ≤ now)
    (hblank : w.edgeAt + a.blankNs ≤ now) (hdrive : w.drive = false) (h : (sensed : Int) ≤ w.lower a target) :
    let u := w.sample a target sensed now
    u.drive = true ∧ u.edgeAt = now ∧ u.pins a (now + 40) = (decide (0 < target), decide (target < 0)) := by
  simp only [Winding.sample_below htarget hsign hblank hdrive h]
  refine ⟨Winding.switch_drive .., Winding.switch_edgeAt .., ?_⟩
  refine (Winding.pins_after (d := decide (0 < target)) (by simp [Winding.direction, hsign]) ?_).trans (sign_pins htarget)
  exact Winding.switch_reversedAt hreversed ..

end

section
variable {c : Chip} {k : Nat}

/-! ### Marks and moves (R318, R323, R337) -/

theorem markFire_cons {m : Mark} {rest : List Mark} (hqueue : (vget c.mark.heads k).queue = m :: rest) (hinspect : inspecting c = true)
    (henable : (vget c.mark.heads k).cfg.enable = true) (hmd : m.fireMd ≤ (mdNow c : Int)) :
    let taken := modHead k (fun z => { z with queue := rest }) c
    markFire k c = towardFirst k
      (if inPosition taken (vget c.mark.heads k).cfg m.target then fireHead k m taken else missMark k 6 0 m taken) := by
  simp only [markFire, hqueue, hinspect, henable, Int.not_lt.2 hmd, decide_false, Bool.not_true, Bool.or_self, Bool.false_eq_true, if_false]

/-- The axis at the end of its move. -/
def stoppedAxis (k : Nat) (c : Chip) : Chip := modAxis k (fun x => { x with
  profile := none, position := x.target, standstillAt := c.now, state := if x.state = .moving then .idle else x.state }) c

section
variable (hprofile : (vget c.axis k).profile.isSome = true) (hended : (vget c.axis k).ended c.now = true)
  (hstate : (vget c.axis k).state ≠ .homing)
include hprofile hended hstate

theorem move_ends : ¬ ((vget c.axis k).still || (vget c.axis k).state == .homing || !(vget c.axis k).ended c.now) = true := by
  have hmoves : (vget c.axis k).still = false := by simpa [Axis.still] using hprofile
  simp [hmoves, hended, hstate]

theorem moveComplete_headless (hhead : headOn (stoppedAxis k c) k = none) : moveComplete k c = stoppedAxis k c := by
  rw [stoppedAxis] at hhead ⊢
  simp only [moveComplete, if_neg (move_ends hprofile hended hstate), hhead]

theorem moveComplete_headed {h : Nat} (hhead : headOn (stoppedAxis k c) k = some h) :
    moveComplete k c = if marking (stoppedAxis k c) then towardFirst h (stoppedAxis k c) else stoppedAxis k c := by
  rw [stoppedAxis] at hhead ⊢
  simp only [moveComplete, if_neg (move_ends hprofile hended hstate), hhead]

end

/-- Two changes that agree on the axis as it stands are one change. -/
theorem modAxis_congr {f g : Axis → Axis} (h : f (vget c.axis k) = g (vget c.axis k)) : modAxis k f c = modAxis k g c := by
  simp only [modAxis, vmod, h]

/-! ### Stalls and switches (R325 to R328) -/

section
variable (hencoder : (vget c.axis k).cfg.encoder ≠ 0xFF) (hstalled : (vget c.axis k).stalled c = true)
  (hdisabled : (vget c.axis k).state ≠ .disabled) (hfault : (vget c.axis k).state ≠ .fault)
include hencoder hstalled hdisabled hfault

/-- A stalled axis faults, unless it homes onto a hard stop. -/
theorem axisStall_eq : axisStall k c =
    if ((vget c.axis k).homing.map fun h => h.reference == 0 && !h.backingOff).getD false then homeReference k c
    else
      let told := axisStallEvent k 0 (countStall k c)
      modAxis k (fun x => { x with faultKeeps := false })
        (axisFault k 0 ((vget c.axis k).state == .homing) (modAxis k (fun x => x.freeze told.now .hold) told)) := by
  have hstalls : ¬ ((vget c.axis k).cfg.encoder = 0xFF ∨ (!(vget c.axis k).stalled c) = true ∨ (vget c.axis k).state = .disabled ∨
      (vget c.axis k).state = .fault) := by
    simp [hencoder, hstalled, hdisabled, hfault]
  simp only [axisStall, if_neg hstalls]

theorem axisStall_fault (h : ∀ h, (vget c.axis k).homing = some h → h.reference ≠ 0 ∨ h.backingOff = true) :
    let told := axisStallEvent k 0 (countStall k c)
    axisStall k c = modAxis k (fun x => { x with faultKeeps := false })
      (axisFault k 0 ((vget c.axis k).state == .homing) (modAxis k (fun x => x.freeze told.now .hold) told)) := by
  rw [axisStall_eq hencoder hstalled hdisabled hfault]
  refine if_neg ?_
  cases hh : (vget c.axis k).homing with
  | none => simp
  | some y => obtain h | h := h y hh <;> simp [h]

theorem axisStall_home {h : Homing} (hh : (vget c.axis k).homing = some h) (hreference : h.reference = 0) (hback : h.backingOff = false) :
    axisStall k c = homeReference k c := by
  rw [axisStall_eq hencoder hstalled hdisabled hfault, if_pos (by simp [hh, hreference, hback])]

end

section
variable {positive : Bool} (hlive : gpLive c ((vget c.axis k).switch positive) = true)
include hlive

theorem switchAccepted_clear : switchAccepted k positive false c = modAxis k (fun x => x.setSwitch positive false) c := by
  simp only [switchAccepted, hlive, Bool.not_true, Bool.false_eq_true, if_false]

theorem switchAsserted_homing {h : Homing} (hh : (vget c.axis k).homing = some h) :
    let seen := modAxis k (fun x => x.setSwitch positive true) c
    switchAsserted k positive c = if h.reference = (if positive then 2 else 1) then homeReference k seen
      else homeFails k 2 (axisLimitEvent k 1 (b2n positive) seen) := by
  simp only [switchAsserted, hlive, hh, Bool.not_true, Bool.false_eq_true, if_false]

/-- Outside homing, a switch in the direction of the motion stops the axis. -/
theorem switchAsserted_moving (hh : (vget c.axis k).homing = none) :
    let seen := modAxis k (fun x => x.setSwitch positive true) c
    let v := ((vget c.axis k).kin c.now).v
    switchAsserted k positive c =
      if (vget c.axis k).state ≠ .fault ∧ ((positive = true ∧ 0 < v) ∨ ((!positive) = true ∧ v < 0)) then
        axisFault k 1 true (axisLimitEvent k 0 (b2n positive) (modAxis k (fun x => x.halt c.now true) seen))
      else seen := by
  simp only [switchAsserted, hlive, hh, Bool.not_true, Bool.false_eq_true, if_false]
  rfl

theorem switchChatter_over {transitions : Nat} (hstate : (vget c.axis k).state ≠ .disabled) (hmany : 8 < transitions) :
    let told := raise 0x0B02 3 k (le 1 k ++ le 1 (b2n positive) ++ le 1 (satU 8 transitions) ++ [0] ++ posBytes k c) c
    switchChatter k positive transitions c =
      if (vget c.axis k).state = .homing then homeFails k 3 told else axisFault k 2 false (modAxis k (fun x => x.halt told.now true) told) := by
  have hchatters : ¬ ((vget c.axis k).state = .disabled ∨ (!gpLive c ((vget c.axis k).switch positive)) = true ∨ transitions ≤ 8) := by
    simp [hstate, hlive, hmany]
  simp only [switchChatter, if_neg hchatters]

end

/-! ### Homing (R329, R330) -/

section
variable {h : Homing} (hh : (vget c.axis k).homing = some h) (hstate : (vget c.axis k).state = .homing)
include hh hstate

/-- At its reference the axis takes the home position and backs off. -/
theorem homeReference_of_homing (hback : h.backingOff = false) :
    let m := (vget c.axis k).kin c.now
    let at_ : Kin := { p := h.homePosition, v := if h.reference = 0 then 0 else m.v, a := if h.reference = 0 then 0 else m.a }
    let target := satS 48 (h.homePosition + (if h.positive then -(h.backoff : Int) else h.backoff))
    homeReference k c = modAxis k (fun x => { x with
      referenced := true, encRef := h.homePosition, countRef := if x.cfg.encoder = 0xFF then 0 else (vget c.enc x.cfg.encoder).count
      countAt := c.now, insideAt := c.now
      position := h.homePosition, target, homing := some { h with backingOff := true }
      profile := some { start := c.now, p := at_.p, v := at_.v, a := at_.a, segs := planMove ((h.velocity : Rat) / 65536) x.cfg.aMax x.cfg.jMax at_ target } }) c := by
  have hhomes : ¬ ((vget c.axis k).state ≠ .homing ∨ h.backingOff = true) := by simp [hstate, hback]
  simp only [homeReference, hh, if_neg hhomes]
  exact modAxis_congr rfl

theorem homeMaxTravel_over (hback : h.backingOff = false) (htravel : h.maxTravel ≤ ((vget c.axis k).pos c.now - h.origin).natAbs) :
    homeMaxTravel k c = homeFails k 1 c := by
  simp [homeMaxTravel, hh, hstate, hback, htravel]

theorem homeBackoffDone_of_ended (hback : h.backingOff = true) (hended : (vget c.axis k).ended c.now = true) :
    homeBackoffDone k c = homeDone k 0 (modAxis k (fun x => { x with
      state := .idle, homing := none, profile := none, position := x.target, standstillAt := c.now, phaseRetained := false }) c) := by
  simp [homeBackoffDone, hh, hstate, hback, hended]

end

theorem homeFound_of_homing {h : Homing} (hh : (vget c.axis k).homing = some h) : homeFound k c =
    if h.reference = 0 then (if (vget c.axis k).stalled c then homeReference k c else c) else switchAsserted k (h.reference == 2) c := by
  simp only [homeFound, hh]

end

end Sys2Proof.Machine

namespace Sys2Proof
open Sys2Proof.Machine
set_option Elab.async false

/-- Settles O51, row by row; the chopper by its two thresholds. -/
theorem motionEvents : Obligations.MotionEvents := by
  refine ⟨fun s t head m rest => ?_, fun s t axis => ?_, fun s t axis => ?_, fun s t axis => ?_, fun s t axis => ?_, fun s t axis positive => ?_,
    fun s t axis h => ?_, fun w a target sensed now hsign hreversed => ?_⟩
  · intro c y taken hqueue hinspect henable hmd
    rw [exec_markFire]
    exact State.next_put (markFire_cons hqueue hinspect henable hmd)
  · intro c stopped hprofile hended hstate
    rw [exec_axisMoveComplete]
    exact ⟨fun hhead => State.next_put (moveComplete_headless hprofile hended hstate hhead),
      fun h hhead => State.next_put (moveComplete_headed hprofile hended hstate hhead)⟩
  · intro c hprofile htime hstate
    rw [exec_axisHoldDelay]
    exact State.next_put (modAxis_congr (if_pos ⟨by simpa [Axis.still] using hprofile, hstate, htime⟩))
  · intro c x told hencoder hstalled hdisabled hfault
    rw [exec_axisStall]
    exact ⟨fun h => State.next_put (axisStall_fault hencoder hstalled hdisabled hfault h),
      fun h hh hreference hback => State.next_put (axisStall_home hencoder hstalled hdisabled hfault hh hreference hback)⟩
  · intro c told off
    rw [exec_axisDriverFault]
    rfl
  · intro c x seen v hlive
    simp only [exec_switchStateAccepted, exec_limitSwitch, exec_switchChatter]
    refine ⟨rfl, State.next_put (switchAccepted_clear hlive), fun hh hstate hv => State.next_put ?_, fun hh hv => State.next_put ?_,
      fun h hh => State.next_put (switchAsserted_homing hlive hh), fun transitions hstate hmany => State.next_put (switchChatter_over hlive hstate hmany)⟩
    · exact (switchAsserted_moving hlive hh).trans (if_pos ⟨hstate, by simpa using hv⟩)
    · refine (switchAsserted_moving hlive hh).trans (if_neg ?_)
      rintro ⟨hstate, hmove⟩
      obtain h | ⟨hp, h⟩ | ⟨hp, h⟩ := hv
      · exact hstate h
      · exact hmove.elim (fun hm => absurd hm.2 (not_lt.2 h)) (fun hm => by simp [hp] at hm)
      · exact hmove.elim (fun hm => by simp [hp] at hm) (fun hm => absurd hm.2 (not_lt.2 h))
  · intro c x m at_ target hh hstate
    simp only [exec_homeReference, exec_homeMaxTravel, exec_homeBackoffDone]
    refine ⟨fun hback => ⟨fun hreference hstalled => ?_, fun hreference hstalled => ?_, fun hreference => ?_, fun htravel => ?_⟩, fun hback hended => ?_⟩
    · exact State.next_put ((homeFound_of_homing hh).trans ((if_pos hreference).trans ((if_pos hstalled).trans (homeReference_of_homing hh hstate hback))))
    · exact State.next_put ((homeFound_of_homing hh).trans ((if_pos hreference).trans (if_neg (by rw [show Axis.stalled _ _ = false from hstalled]; simp))))
    · exact State.next_put ((homeFound_of_homing hh).trans (if_neg hreference))
    · exact State.next_put (homeMaxTravel_over hh hstate hback htravel)
    · exact State.next_put (homeBackoffDone_of_ended hh hstate hback hended)
  · refine ⟨?_, fun htarget hblank => ?_, fun htarget hblank => ?_⟩
    · rintro rfl
      rw [Winding.sample_zero]
      cases hdrive : w.drive <;> simp [hdrive]
    · rw [Winding.sample_of_sign htarget (hsign htarget), if_pos hblank]
    · exact ⟨Winding.decays htarget (hsign htarget) hreversed hblank, Winding.drives htarget (hsign htarget) hreversed hblank,
        fun hdrive h => Winding.sample_between htarget (hsign htarget) hblank (Or.inl ⟨hdrive, h⟩),
        fun hdrive h => Winding.sample_between htarget (hsign htarget) hblank (Or.inr ⟨hdrive, h⟩)⟩

end Sys2Proof

/-! SUPPORT. Chapter 13: the events of the Sundial, PTP, the Ethernet ports, the pulse outputs and the capture inputs. -/
namespace Sys2Proof.Machine

-- One proof after another: many at once need a stack each, and together more memory than the check has.
set_option Elab.async false

section
variable {c : Chip} {k : Nat}

/-! ### PTP messages (R348 to R351) -/

/-- The arrival stamp of a message: of an event message, a reading of the Sundial. -/
def arrivalStamp (k : Nat) (m : PtpMessage) (c : Chip) : Int × Chip :=
  if m.messageType < 4 then stamp (vget c.time.eth k).ingressLatencyPs c else ((vget c.time.eth k).rxTimestamp / 65536, c)

/-- The port with a message's arrival taken. -/
def arrived (k : Nat) (m : PtpMessage) (c : Chip) : Chip :=
  modEth k (fun e => { e with
    rxTimestamp := (arrivalStamp k m c).1 * 65536
    requestTimestamp := if m.messageType = 2 then (arrivalStamp k m c).1 * 65536 else e.requestTimestamp
    syncReceived := if m.messageType = 0 then wrapU 32 (e.syncReceived + 1) else e.syncReceived }) (arrivalStamp k m c).2

/-- A stamp takes no time. -/
theorem arrived_now (k : Nat) (m : PtpMessage) (c : Chip) : (arrived k m c).now = c.now := by
  have hstamp : (arrivalStamp k m c).2.now = c.now := by
    unfold arrivalStamp
    split <;> rfl
  exact hstamp

section
variable {m : PtpMessage} (hruns : ptpRuns c k m.domain = true)
include hruns

theorem ptpReceive_refused (h : ptpAccepts c k m = false) : ptpReceive k m c = c := by
  simp only [ptpReceive, hruns, h, Bool.not_true, Bool.not_false, Bool.or_true, if_true]

theorem ptpReceive_accepted (h : ptpAccepts c k m = true) :
    ptpReceive k m c = if m.messageType = 0xB then takeAnnounce k m (arrived k m c) else arrived k m c := by
  simp only [ptpReceive, hruns, h, Bool.not_true, Bool.or_self, Bool.false_eq_true, if_false]
  rfl

end

/-- An Announce of a worse master than the one followed is left. -/
theorem takeAnnounce_worse {m : PtpMessage} {g : Grandmaster} (hmaster : (vget c.time.eth k).master = some g)
    (hsender : g.sender ≠ (grandmasterOf m).sender) (hbetter : (grandmasterOf m).better g = false) : takeAnnounce k m c = c := by
  simp [takeAnnounce, hmaster, hsender, hbetter]

theorem takeAnnounce_followed {m : PtpMessage} {now : Nat} (hnow : c.now = now) (h : (vget c.time.eth k).master = none ∨ ∃ g, (vget c.time.eth k).master = some g ∧
    (g.sender = (grandmasterOf m).sender ∨ (grandmasterOf m).better g = true)) :
    let announced := selectMaster (modEth k (fun e => { e with announceAt := now, master := some (grandmasterOf m) }) c)
    takeAnnounce k m c = if (vget announced.time.eth k).portState = 9 then
        refreshUtc (modEth k (fun e => { e with utc := if m.utcValid then some m.utcOffset else none }) announced)
      else announced := by
  subst hnow
  refine if_neg ?_
  obtain h | ⟨g, h, hsame | hbetter⟩ := h
  · simp [h]
  · simp [h, hsame]
  · simp [h, hbetter]

/-! ### Messages sent (R350) -/

/-- Two changes that agree on the port as it stands are one change. -/
theorem modEth_congr {f g : EthPort → EthPort} (h : f (vget c.time.eth k) = g (vget c.time.eth k)) : modEth k f c = modEth k g c := by
  simp only [modEth, modTime, vmod, h]

/-- A PTP frame of a header and a body leaves by a port. -/
def sendPtp (k messageType sequence domain : Nat) (body : List Byte) (c : Chip) : Chip :=
  emit (.eth k 4 (ptpTo c k messageType) ((le 1 messageType ++ le 1 domain ++ be 2 sequence) ++ body)) c

section
variable {messageType sequence domain : Nat} (hruns : ptpRuns (readTimestamps k c) k domain = true)
include hruns

section
variable (hgeneral : 4 ≤ messageType)
include hgeneral

theorem ptpTransmit_general (h : followed messageType = none) :
    ptpTransmit k messageType sequence domain c = sendPtp k messageType sequence domain [] (readTimestamps k c) := by
  simp only [ptpTransmit, hruns, hgeneral, h, Bool.not_true, Bool.false_eq_true, if_false, if_true]
  rfl

/-- A follow-up waits for the time of the message it follows. -/
theorem ptpTransmit_unmatched {first : Nat} (h : followed messageType = some first)
    (hnone : ∀ x ∈ (vget (readTimestamps k c).time.eth k).owed, x.matches first sequence domain = false) :
    ptpTransmit k messageType sequence domain c = readTimestamps k c := by
  have hfind : (vget (readTimestamps k c).time.eth k).owed.find? (fun x => x.matches first sequence domain) = none := by
    simpa [List.find?_eq_none] using hnone
  simp only [ptpTransmit, hruns, hgeneral, h, hfind, Bool.not_true, Bool.false_eq_true, if_false, if_true]

theorem ptpTransmit_followUp {first : Nat} {x : TxTimestamp} {rest : List TxTimestamp} (h : followed messageType = some first)
    (howed : (vget (readTimestamps k c).time.eth k).owed = x :: rest) (hmatch : x.matches first sequence domain = true) :
    ptpTransmit k messageType sequence domain c =
      sendPtp k messageType sequence domain (be 6 x.s ++ be 4 x.ns) (modEth k (fun e => { e with owed := rest }) (readTimestamps k c)) := by
  have hfind : (vget (readTimestamps k c).time.eth k).owed.find? (fun x => x.matches first sequence domain) = some x := by
    rw [howed]
    exact List.find?_cons_of_pos hmatch
  have herased : modEth k (fun e => { e with owed := e.owed.erase x }) (readTimestamps k c) =
      modEth k (fun e => { e with owed := rest }) (readTimestamps k c) := modEth_congr (by rw [howed, List.erase_cons_head])
  simp only [ptpTransmit, hruns, hgeneral, h, hfind, herased, Bool.not_true, Bool.false_eq_true, if_false, if_true]
  rfl

end

section
variable (hevent : messageType < 4)
include hevent

theorem ptpTransmit_oneStep :
    let stamped := stamp (vget (readTimestamps k c).time.eth k).egressLatencyPs (readTimestamps k c)
    leavesNoEntry stamped.2 messageType = true → ptpTransmit k messageType sequence domain c =
      emit (.eth k 4 (ptpTo stamped.2 k messageType) (oneStepFrame stamped.2 k messageType
        ((le 1 messageType ++ le 1 domain ++ be 2 sequence) ++
          oneStepBytes messageType stamped.1 (vget stamped.2.time.eth k).requestTimestamp))) stamped.2 := by
  intro stamped h
  dsimp only [stamped] at h
  simp only [ptpTransmit, hruns, Nat.not_le.2 hevent, h, Bool.not_true, Bool.false_eq_true, if_false, if_true]
  rfl

theorem ptpTransmit_twoStep :
    let stamped := stamp (vget (readTimestamps k c).time.eth k).egressLatencyPs (readTimestamps k c)
    leavesNoEntry stamped.2 messageType = false → (vget stamped.2.time.eth k).txts.length < 16 → ptpTransmit k messageType sequence domain c =
      modEth k (fun e => { e with
        txts := e.txts ++ [{ sequence := sequence % 65536, messageType := messageType % 16, domain
                             s := (max 0 stamped.1).toNat / 1000000000, ns := (max 0 stamped.1).toNat % 1000000000, frac := 0 }]
        txtsPeak := max e.txtsPeak (e.txts.length + 1) }) (sendPtp k messageType sequence domain [] stamped.2) := by
  intro stamped h hroom
  dsimp only [stamped] at h
  simp only [ptpTransmit, hruns, Nat.not_le.2 hevent, h, Bool.not_true, Bool.false_eq_true, if_false]
  exact if_neg (Nat.not_le.2 hroom)

end

end

/-! ### Frames (R353) and samples of the servo (R354, R355, R357) -/

section
variable (henable : (vget c.time.eth k).enable = true) (hup : (vget c.time.eth k).linkUp = true)
include henable hup

theorem ethReceive_arpRequest (ip mac : Nat) : ethReceive k (.arpRequest (vget c.time.eth k).ipv4 ip mac) c =
    emit (.eth k 2 (ethTo c k mac ip 0) (be 2 2 ++ be 6 (portMac c k) ++ be 4 (vget c.time.eth k).ipv4 ++ be 6 mac ++ be 4 ip)) c := by
  simp [ethReceive, henable, hup]

theorem ethReceive_icmpEcho (ip mac : Nat) (data : List Byte) :
    ethReceive k (.icmpEcho (vget c.time.eth k).ipv4 ip mac data) c = emit (.eth k 3 (ethTo c k mac ip 0) data) c := by
  simp [ethReceive, henable, hup]

theorem ethReceive_arpReply (ip mac : Nat) : ethReceive k (.arpReply ip mac) c =
    modEth k (fun e => { e with arp := ((ip, mac) :: e.arp.filter fun y => y.1 != ip).take 64 }) c := by
  simp [ethReceive, henable, hup]

omit henable hup in
theorem ethReceive_rtcp (data : List Byte) : ethReceive k (.rtcp data) c = c := by simp [ethReceive]

omit henable hup in
theorem ethReceive_other : ethReceive k .other c = c := by simp [ethReceive]

end

theorem offsetSample_of_slave {measured : Int} (h : slavePort c = some k) :
    let ps := measured * 1000 - (vget c.time.eth k).delayAsymmetryPs
    let taken := modEth k (fun e => { e with offsetFromMaster := divNearest (ps * 65536) 1000 }) c
    offsetSample measured c = if taken.time.servo.source = 1 then takeOffset (divNearest ps 1000) taken else taken := by
  simp only [offsetSample, h]

/-- The port with a delay exchange counted. -/
def exchanged (k : Nat) (c : Chip) : Chip := modEth k (fun e => { e with delayExchanges := wrapU 32 (e.delayExchanges + 1) }) c

/-- The offsets withheld with one more sample seen; those that have waited are released. -/
def sampled (c : Chip) : Chip :=
  releaseOffsets (modServo (fun x => { x with withheld := x.withheld.map fun y => (y.1, y.2 + 1) }) c).time.servo.withheld.length
    (modServo (fun x => { x with withheld := x.withheld.map fun y => (y.1, y.2 + 1) }) c)

section
variable {mean : Int} (hslave : slavePort c = some k) (hlodge : lodgeRestarts c = false)
include hslave hlodge

theorem delaySample_first (h : (vget (exchanged k c).time.eth k).mAvg = none) :
    delaySample k mean c = sampled (modEth k (fun e => { e with mAvg := some (mean * 65536) }) (exchanged k c)) := by
  rw [exchanged] at h
  simp only [delaySample, hslave, hlodge, h, ne_eq, not_true_eq_false, Bool.false_eq_true, or_self, if_false, sampled, exchanged]

/-- A mean within the path step joins the average. -/
theorem delaySample_near {a : Int} (h : (vget (exchanged k c).time.eth k).mAvg = some a)
    (hnear : ((mean * 65536 - a).natAbs : Int) ≤ ((exchanged k c).time.servo.pathStepNs : Int) * 65536) :
    let outlier := satAdd 0x0A03 48 k 32 (vget (exchanged k c).time.eth k).pathOutliers (b2n (vget (exchanged k c).time.eth k).suspect.isSome)
      (exchanged k c)
    delaySample k mean c = sampled (modEth k (fun e => { e with
      mAvg := some (a + (mean * 65536 - a) / 16), suspect := none, pathOutliers := outlier.1 }) outlier.2) := by
  rw [exchanged] at h hnear
  simp only [delaySample, hslave, hlodge, h, if_neg (Int.not_lt.2 hnear), ne_eq, not_true_eq_false, Bool.false_eq_true, or_self, if_false,
    sampled, exchanged]

end

theorem pathHoldExpiry_over {h : Nat} (hhold : c.time.servo.holdUntil = some h) (htime : h ≤ c.now) (hlodge : lodgeRestarts c = false) :
    pathHoldExpiry c = enterServo .acquiring (modServo (fun x => { x with holdUntil := none }) c) := by
  have hover : ¬ (c.now < h ∨ lodgeRestarts c = true) := by simp [htime, hlodge]
  simp only [pathHoldExpiry, hhold, if_neg hover]

/-! ### Pulses per second and the reference (R344, R358, R360) -/

theorem ppsIn_same (rising : Bool) (h : rising = c.time.servo.ppsFalling) : ppsIn rising c = c := if_pos (Or.inr h)

theorem ppsIn_edge {rising : Bool} (hsource : c.time.servo.source = 2) (h : rising ≠ c.time.servo.ppsFalling) :
    ppsIn rising c = takeOffset ((((sunNs c % 1000000000 : Nat) : Int) - c.time.servo.ppsInOffsetNs + 500000000) % 1000000000 - 500000000)
      (sourceBack (modServo (fun x => { x with lastPps := some c.now }) c)) := by
  refine if_neg ?_
  simp [hsource, h]

/-- A bound that holds of an instant, where there is one, is the decided one. -/
theorem map_getD_decide {P : Nat → Prop} [DecidablePred P] {o : Option Nat} (h : ∀ x, o = some x → P x) : (o.map fun x => decide (P x)).getD true = true := by
  cases o with
  | none => rfl
  | some x => simpa using h x rfl

theorem ppsLost_late (hsource : c.time.servo.source = 2) (h : ∀ x, c.time.servo.lastPps = some x → x + 1500000000 ≤ c.now) :
    ppsLost c = sourceLost c := if_pos ⟨hsource, map_getD_decide h⟩

theorem ppsOut_due (henable : c.time.servo.ppsOutEnable = true) (hsecond : sunNs c % 1000000000 ≤ 4)
    (h : ∀ x, c.time.servo.ppsOutUntil = some x → x ≤ c.now) :
    ppsOut c = emit (.ppsOut (c.time.servo.ppsOutWidthMs * 1000000))
      (modServo (fun x => { x with ppsOutUntil := some (c.now + x.ppsOutWidthMs * 1000000) }) c) := by
  simp only [ppsOut, henable, hsecond, decide_true, map_getD_decide h, Bool.and_self, if_true]

theorem refLost_external (h : c.time.sun.freqRef = 1) :
    refLost c = ptpState 2 0xFF 1 2 (modTime (fun x => { x with sun := { x.sun with freqRef := 2 } }) c) := if_neg (not_not.2 h)

/-! ### Pulse outputs (R362, R363) -/

section
variable (hruns : pulsesRun c = true) (hstate : (vget c.time.pulse k).state = .armed ∨ (vget c.time.pulse k).state = .running)
  (hreached : boundaryReached c (vget c.time.pulse k) = true)
include hruns hstate hreached

/-- At a boundary an output pulses: once in a single mode, again and again in a repeating one. -/
theorem pulseBoundary_fires (hin : (vget c.time.pulse k).inPulse = false) : pulseBoundary k c =
    if (vget c.time.pulse k).mode % 2 = 0 then modPulse k (fun p => { p with state := .done }) (firePulse k c)
    else modPulse k (fun p => ({ p with state := .running } : Pulse).goOn (p.k + 1)) (firePulse k c) := by
  have hstate : ((vget c.time.pulse k).state == .armed || (vget c.time.pulse k).state == .running) = true := by simpa using hstate
  simp only [pulseBoundary, hruns, hstate, hreached, hin, Bool.not_true, Bool.or_self, Bool.false_and, Bool.false_eq_true, if_false]

theorem pulseBoundary_overlaps (hmode : (vget c.time.pulse k).mode % 2 = 1) (hin : (vget c.time.pulse k).inPulse = true)
    (hlate : (vget c.time.pulse k).rejectLate = false) :
    pulseBoundary k c = modPulse k (fun p => ({ p with state := .running } : Pulse).goOn (p.k + 1)) c := by
  have hstate : ((vget c.time.pulse k).state == .armed || (vget c.time.pulse k).state == .running) = true := by simpa using hstate
  have hodd : ¬ (vget c.time.pulse k).mode % 2 = 0 := by omega
  simp only [pulseBoundary, hruns, hstate, hreached, hin, hlate, hodd, Bool.not_true, Bool.or_self, Bool.and_false, Bool.false_and,
    Bool.false_eq_true, if_false, if_true]

end

/-- The end of a pulse, with a head on the output sent on. -/
def pulseEnded (k : Nat) (c : Chip) : Chip :=
  let ended := emit (.pulse k (vget c.time.pulse k).activeLow) (modPulse k (fun p => { p with inPulse := false }) c)
  match headOfOutput ended k with
  | some h => if marking ended then towardFirst h ended else ended
  | none => ended

theorem pulseWidthEnd_over (hin : (vget c.time.pulse k).inPulse = true) (hends : (vget c.time.pulse k).endsAt ≤ c.now)
    (h : (vget c.time.pulse k).mode % 2 = 1 ∧ (vget c.time.pulse k).rejectLate = false ∨ (vget c.time.pulse k).emitted ≠ 0) :
    pulseWidthEnd k c = pulseEnded k c := by
  have hover : ¬ ((!(vget c.time.pulse k).inPulse) = true ∨ c.now < (vget c.time.pulse k).endsAt) := by simp [hin, hends]
  refine (if_neg hover).trans (if_neg ?_)
  rintro ⟨hsingle, -, hemitted, -⟩
  obtain ⟨hodd, hlate⟩ | h := h
  · simp [hodd, hlate] at hsingle
  · exact h hemitted

/-! ### Capture inputs (R369) -/

section
variable {rising : Bool} {held : Nat} (hheld : (vget c.time.capture k).glitchSamples ≤ held)
  (hruns : pulsesRun (modCapture k (fun x => { x with lastEdge := some c.now }) c) = true)
  (hedge : bit (vget c.time.capture k).edges (if rising then 0 else 1) = true)
  (hclose : ∀ e, (vget c.time.capture k).lastEdge = some e → e + 16 ≤ c.now)
include hheld hruns hedge hclose

/-- A capture takes its time with a free error, and goes to the ring or is counted as dropped. -/
theorem captureEdge_taken :
    let x := vget c.time.capture k
    let error := freeInt (-131072) 262144 (modCapture k (fun x => { x with lastEdge := some c.now }) c)
    let total := (max 0 ((sunTotal error.2.time.sun error.2.now / 65536 : Nat) + error.1)).toNat
    let data := captureBytes k rising x.ring.head total (mdNow error.2)
    let counted := modCapture k (fun x => { x with captured := wrapU 32 (x.captured + 1) }) error.2
    captureEdge k rising held c = if !x.ring.enabled || x.ring.full || !hostWrites counted then
        modCapture k (fun y => { y with dropped := (satAdd 0x0A00 (136 + 16 * k) k 32 x.dropped 1 counted).1 })
          (satAdd 0x0A00 (136 + 16 * k) k 32 x.dropped 1 counted).2
      else modCapture k (fun y => { y with ring := (ringPut x.ring data 0 x.dropped counted).1 }) (ringPut x.ring data 0 x.dropped counted).2 := by
  have hfar : ((vget c.time.capture k).lastEdge.map fun e => decide (c.now < e + 16)).getD false = false := by
    cases he : (vget c.time.capture k).lastEdge with
    | none => rfl
    | some e => simpa using hclose e he
  simp only [captureEdge, if_neg (Nat.not_lt.2 hheld), hruns, hedge, hfar, Bool.not_true, Bool.or_self, Bool.false_eq_true, if_false]

end

theorem announceTimeout_missing (hstate : (vget c.time.eth k).portState ∈ [4, 7, 8, 9]) (hmissing : announceMissing c k = true)
    (hlodge : lodgeRestarts c = false) :
    let gone := modEth k (fun e => { e with master := none }) c
    announceTimeout k c = selectMaster (setPortState k (allowedState gone k 6) gone) := by
  refine if_pos ?_
  rw [List.contains_iff_mem.2 hstate, hmissing, hlodge]
  rfl

end

end Sys2Proof.Machine

namespace Sys2Proof
open Sys2Proof.Machine
set_option Elab.async false

/-- Settles O52, row by row: PTP and the ports, the servo and its sources, pulses and captures. -/
theorem timeEvents : Obligations.TimeEvents := by
  refine ⟨fun s t port m => ?_, fun s t port messageType sequence domain => ?_, fun s t port ip mac data => ?_, fun s t offset k => ?_,
    fun s t port mean => ?_, fun s t h => ?_, fun s t => ?_, fun s t => ?_, fun s t => ?_, fun s t output => ?_, fun s t input rising held => ?_,
    fun s t port up => ?_, fun s t port => ?_⟩
  · intro c stamped taken announced hruns
    have htaken : arrived port m c = taken := rfl
    have hnow : taken.now = c.now := arrived_now port m c
    rw [exec_ptpMessageReceived]
    have haccepted (h : ptpAccepts c port m = true) := ptpReceive_accepted hruns h
    rw [htaken] at haccepted
    clear_value taken
    exact ⟨fun h => State.next_put (ptpReceive_refused hruns h), fun h hm => State.next_put ((haccepted h).trans (if_neg hm)),
      fun h hm hmaster => State.next_put ((haccepted h).trans ((if_pos hm).trans (takeAnnounce_followed hnow hmaster))),
      fun g h hm hmaster hsender hbetter => State.next_put ((haccepted h).trans ((if_pos hm).trans (takeAnnounce_worse hmaster hsender hbetter)))⟩
  · intro c header send stamped hruns
    rw [exec_ptpMessageTransmit]
    exact ⟨fun hgeneral h => State.next_put (ptpTransmit_general hruns hgeneral h),
      fun first hgeneral h hnone => State.next_put (ptpTransmit_unmatched hruns hgeneral h hnone),
      fun first x rest hgeneral h howed hmatch => State.next_put (ptpTransmit_followUp hruns hgeneral h howed hmatch),
      fun hevent h => State.next_put (ptpTransmit_oneStep hruns hevent h),
      fun hevent h hroom => State.next_put (ptpTransmit_twoStep hruns hevent h hroom)⟩
  · intro c e henable hup
    simp only [exec_ethFrameReceived]
    exact ⟨State.next_put (ethReceive_arpRequest henable hup ip mac), State.next_put (ethReceive_icmpEcho henable hup ip mac data),
      State.next_put (ethReceive_arpReply henable hup ip mac), State.next_put (ethReceive_rtcp data), State.next_put ethReceive_other⟩
  · intro ps taken h
    rw [exec_servoOffsetSample]
    exact State.next_put (offsetSample_of_slave h)
  · intro counted sampled hslave hlodge
    rw [exec_pathDelaySample]
    exact ⟨fun h => State.next_put (delaySample_first hslave hlodge h), fun a h hnear => State.next_put (delaySample_near hslave hlodge h hnear)⟩
  · intro c ended hhold htime hlodge
    rw [exec_pathHoldExpiry]
    exact State.next_put (pathHoldExpiry_over hhold htime hlodge)
  · intro c hsource
    simp only [exec_ppsInEdge, exec_ppsInLost]
    exact ⟨State.next_put (ppsIn_same _ rfl), State.next_put (ppsIn_edge hsource (Bool.not_ne_self _)), fun h => State.next_put (ppsLost_late hsource h)⟩
  · intro c h
    rw [exec_ref10mLoss]
    exact State.next_put (refLost_external h)
  · intro c henable hsecond h
    rw [exec_ppsOutEdge]
    exact State.next_put (ppsOut_due henable hsecond h)
  · intro c p
    rw [exec_pulseBoundary, exec_pulseWidthEnd]
    exact ⟨fun hruns hstate hreached hin => State.next_put (pulseBoundary_fires hruns hstate hreached hin),
      fun hmode hruns hstate hreached hin hlate => State.next_put (pulseBoundary_overlaps hruns hstate hreached hmode hin hlate),
      fun hin hends h => State.next_put (pulseWidthEnd_over hin hends h)⟩
  · intro c x seen error total data counted hheld hruns hedge hclose
    rw [exec_captureEdge]
    have htaken := captureEdge_taken hheld hruns hedge hclose
    refine ⟨fun henabled hfull hhost => ?_, fun h => ?_⟩
    · have hopen : ¬ (!x.ring.enabled || x.ring.full || !hostWrites counted) = true := by simp [henabled, hfull, hhost]
      exact State.next_put (htaken.trans (if_neg hopen))
    · have hclosed : (!x.ring.enabled || x.ring.full || !hostWrites counted) = true := by
        obtain h | h | h := h <;> simp [h]
      exact State.next_put (htaken.trans (if_pos hclosed))
  · intro c
    rw [exec_ethLinkChange]
    rfl
  · intro c hstate hmissing hlodge gone
    rw [exec_announceReceiptTimeout]
    exact State.next_put (announceTimeout_missing hstate hmissing hlodge)

end Sys2Proof

/-! SUPPORT. Chapter 14: the events of the auxiliary inputs. -/
namespace Sys2Proof.Machine

-- One proof after another: many at once need a stack each, and together more memory than the check has.
set_option Elab.async false

/-! ### Overload of a modulator (R378) -/

/-- The run of equal samples that a sample ends. -/
def Aux.runWith (a : Aux) (b : Bool) : Nat := if a.equal ≠ 0 ∧ b = a.lastBit then a.equal + 1 else 1

theorem Aux.watch_of_long {a : Aux} {b : Bool} (h : 64 ≤ a.runWith b) : (a.watch b).overload = true ∧ (a.watch b).quiet = 0 :=
  ⟨if_pos h, if_pos h⟩

theorem Aux.watch_of_short {a : Aux} {b : Bool} (h : a.runWith b < 64) :
    (a.watch b).quiet = a.quiet + 1 ∧ ((a.watch b).overload = true ↔ (a.overload = true ∧ a.quiet + 1 < 1024)) := by
  have hquiet : (a.watch b).quiet = a.quiet + 1 := if_neg (Nat.not_le.2 h)
  have hoverload : (a.watch b).overload = (a.overload && decide ((a.watch b).quiet < 1024)) := if_neg (Nat.not_le.2 h)
  refine ⟨hquiet, ?_⟩
  rw [hoverload, hquiet, Bool.and_eq_true, decide_eq_true_eq]

/-- Whatever is looked at, the input has watched every sample. -/
theorem Aux.watchAll_snd (within : Nat) (bs : List Bool) (a : Aux) : (Aux.watchAll within bs a).2 = bs.foldl Aux.watch a := by
  induction bs generalizing a with
  | nil => rfl
  | cons b bs ih => exact ih (a.watch b)

section
variable {c : Chip} {k : Nat}

/-- Without a calibration under way the samples are watched, and no more. -/
theorem auxWatch_idle (samples : List Bool) (h : c.aux.run = none) : auxWatch k samples c = modAux k (fun a => samples.foldl Aux.watch a) c := by
  have hrun : (modAux k (fun _ => samples.foldl Aux.watch (vget c.aux.ch k)) c).aux.run = none := h
  simp only [auxWatch, Aux.watchAll_snd, hrun]
  rfl

/-- An overload inside a calibration's capture is noted there. -/
theorem auxWatch_running (samples : List Bool) {r : AuxRun} (h : c.aux.run = some r) :
    let judged := Aux.watchAll (samplesSince c r.startAt) samples (vget c.aux.ch k)
    let seen := modAux k (fun _ => judged.2) c
    auxWatch k samples c = if judged.1 ∧ bit r.mask k = true then
        { seen with aux := { seen.aux with run := some { r with capture := vmod r.capture k fun x => { x with overloaded := true } } } }
      else seen := by
  intro judged seen
  have hrun : seen.aux.run = some r := h
  dsimp only [seen, judged] at hrun
  simp only [auxWatch, h, Option.map_some, Option.getD_some, hrun]
  exact if_congr (Bool.and_eq_true_iff) rfl rfl

theorem auxOverload_of_runs (samples : List Bool) (hruns : auxRuns c = true) (henable : (vget c.aux.ch k).enable = true) :
    auxOverload k samples c = modAux k (fun a => { a with early := a.early ++ samples }) (auxWatch k samples c) := by
  simp only [auxOverload, hruns, henable, Bool.not_true, Bool.or_self, Bool.false_eq_true, if_false]

/-! ### Samples, tones and ring entries (R372, R389, R390) -/

theorem auxOutput_of_samples (new : List Bool) (hruns : auxRuns c = true) (henable : (vget c.aux.ch k).enable = true)
    (hsamples : (vget c.aux.ch k).cycles ((vget c.aux.ch k).early ++ new) ≠ []) :
    let samples := (vget c.aux.ch k).cycles ((vget c.aux.ch k).early ++ new)
    let watched := auxWatch k new c
    let before := { vget watched.aux.ch k with early := [] }
    let ran := Aux.run samples before
    auxOutput k new c = ran.1.foldl (fun d y => auxDeliver k y.1 y.2 (muxCycle before d)) (modAux k (fun _ => ran.2) watched) := by
  have hsome : ((vget c.aux.ch k).cycles ((vget c.aux.ch k).early ++ new)).isEmpty = false := by simpa using hsamples
  simp only [auxOutput, hruns, henable, hsome, Bool.not_true, Bool.or_self, Bool.false_eq_true, if_false]

/-- Two changes that agree on the detector as it stands are one change. -/
theorem modTone_congr {f g : Tone → Tone} (h : f (vget c.aux.tone k) = g (vget c.aux.tone k)) : modTone k f c = modTone k g c := by
  simp only [modTone, vmod, h]

/-- A full block of samples gives the tone's phase and magnitude, and an event where the tone comes or goes. -/
theorem toneBlock_full (henable : (vget c.aux.tone k).enable = true) (hlength : (vget c.aux.tone k).blockLength ≠ 0)
    (hfull : (vget c.aux.tone k).blockLength ≤ (vget c.aux.tone k).samples.length) :
    let x := vget c.aux.tone k
    let xs := x.samples.reverse
    let found := toneOf x.frequencyMhz (vget c.aux.ch x.channel).decimation (xs.take x.blockLength)
    let magnitude := satU 32 found.1
    let on := if x.on then decide (x.offThreshold ≤ magnitude) else decide (x.onThreshold ≤ magnitude)
    let measured := modTone k (fun y => { y with
      samples := (xs.drop x.blockLength).reverse, on, phase := found.2 % 65536, magnitude, blocks := wrapU 32 (x.blocks + 1) }) c
    toneBlock k c = if on = x.on then measured else
      raise 0x0C01 1 k (le 1 k ++ le 1 (b2n on) ++ le 2 (found.2 % 65536) ++ le 4 magnitude ++ le 4 (wrapU 32 (x.blocks + 1))) measured := by
  have hmeasures : ¬ ((!(vget c.aux.tone k).enable || decide ((vget c.aux.tone k).blockLength = 0) ||
      decide ((vget c.aux.tone k).samples.length < (vget c.aux.tone k).blockLength)) = true) := by
    simp [henable, hlength, hfull]
  simp only [toneBlock, if_neg hmeasures, ← decide_not, Nat.not_lt]
  exact if_congr Iff.rfl (modTone_congr rfl) (congrArg (raise 0x0C01 1 k _) (modTone_congr rfl))

/-- The ring entry of a slow channel, as it is laid down. -/
def auxEntryBytes (k : Nat) (a : Aux) : List Byte :=
  le 1 k ++ le 1 (packBits [a.current == 1, a.fade.isSome, a.entry.any fun v => v == codeMax || v == -codeMax, a.overload]) ++
    le 1 a.entry.length ++ [0] ++ le 4 a.entrySequence ++ timeBytes a.entryS a.entryNs ++ fit 12 (a.entry.flatMap (leS 3)) ++ [0, 0]

section
variable (hentry : (vget c.aux.ch k).entry ≠ [])
include hentry

theorem auxEntry_written (henabled : c.aux.ring.enabled = true) (hfull : c.aux.ring.full = false) (hhost : hostWrites c = true) :
    let taken := modAux k (fun a => { a with entry := [] }) c
    let written := ringPut taken.aux.ring (auxEntryBytes k (vget c.aux.ch k)) 0 taken.aux.dropped taken
    auxEntry k c = { written.2 with aux := { written.2.aux with ring := written.1 } } := by
  refine (if_neg hentry).trans (if_neg ?_)
  have hopen : (!c.aux.ring.enabled || c.aux.ring.full || !hostWrites c) = false := by simp [henabled, hfull, hhost]
  exact ne_true_of_eq_false hopen

theorem auxEntry_dropped (h : c.aux.ring.enabled = false ∨ c.aux.ring.full = true ∨ hostWrites c = false) :
    let taken := modAux k (fun a => { a with entry := [] }) c
    auxEntry k c = { taken with aux := { taken.aux with dropped := satU 32 (taken.aux.dropped + 1) } } := by
  refine (if_neg hentry).trans (if_pos ?_)
  have hclosed : (!c.aux.ring.enabled || c.aux.ring.full || !hostWrites c) = true := by
    obtain h | h | h := h <;> simp [h]
  exact hclosed

end

end

end Sys2Proof.Machine

namespace Sys2Proof
open Sys2Proof.Machine
set_option Elab.async false

/-- Settles O53, row by row, and the rule of the overload for each sample. -/
theorem auxiliaryEvents : Obligations.AuxiliaryEvents := by
  refine ⟨fun s t ch new => ?_, fun s t ch samples => ?_, fun a b => ?_, fun s t d => ?_, fun s t ch => ?_⟩
  · intro c a samples watched before ran hruns henable hsamples
    rw [exec_auxOutputSample]
    exact State.next_put (auxOutput_of_samples new hruns henable hsamples)
  · intro c kept hruns henable
    rw [exec_auxOverloadChange]
    have hwatched := auxOverload_of_runs samples hruns henable
    exact ⟨fun h => State.next_put (hwatched.trans (congrArg kept (auxWatch_idle samples h))),
      fun r h => State.next_put (hwatched.trans (congrArg kept (auxWatch_running samples h)))⟩
  · exact ⟨rfl, rfl, Aux.watch_of_long, Aux.watch_of_short⟩
  · intro c x xs found magnitude on measured henable hlength hfull
    rw [exec_toneBlockEnd]
    exact State.next_put (toneBlock_full henable hlength hfull)
  · intro c a flags data taken htime hentry
    rw [exec_auxRingEntryTimeout]
    exact ⟨fun henabled hfull hhost => State.next_put ((if_pos htime).trans (auxEntry_written hentry henabled hfull hhost)),
      fun h => State.next_put ((if_pos htime).trans (auxEntry_dropped hentry h))⟩

end Sys2Proof

/-! SUPPORT. Chapter 15: the events of the gang. -/
namespace Sys2Proof.Machine

-- One proof after another: many at once need a stack each, and together more memory than the check has.
set_option Elab.async false

section
variable {c : Chip}

/-! ### Tags (R394, R396) -/

theorem tagReceived_taken {tag : Tag} {pitch : Option (Nat × Nat)}
    (h : c.gang.joinsAt tag = true ∨ (c.gang.formed = true ∧ c.gang.role = 1)) :
    let g := c.gang
    let joins := g.joinsAt tag
    let ports := match if joins then g.leaderAt else g.partitionLeader with
      | some q => g.portsFrom q (if joins then 2 ^ g.cfg.size - 1 else g.members)
      | none => []
    tagReceived tag pitch c = sendSarec ports 0 (tagMessage tag pitch) { c with gang := { g with
      tags := g.tags ++ [tag]
      pitches := match pitch with
        | some (n, d) => g.pitches ++ [(tag.number, n, d)]
        | none => g.pitches } } := by
  refine if_neg ?_
  obtain h | ⟨hformed, hrole⟩ := h
  · simp [h]
  · simp [hformed, hrole]

/-- A follower that neither joins nor changes its pitch takes the leader's tag as its own trigger. -/
theorem followerTrigger_cons {tag : Tag} {rest : List Tag} (htags : c.gang.tags = tag :: rest) (htrig : triggering c = true)
    (hformed : c.gang.formed = true) (hrole : c.gang.role ≠ 0) (hjoins : c.gang.joinsAt tag = false)
    (hpitches : ∀ y ∈ c.gang.pitches, y.1 ≠ tag.number) :
    let taken := modGang (fun g => { g with tags := rest, pitches := g.pitches.filter fun y => y.1 != tag.number }) c
    let numbered := renumber tag.number taken
    let listed := { numbered with trig := { numbered.trig with leaderTags := (tag.number :: numbered.trig.leaderTags).take 256 } }
    let aligned := alignMd false tag none listed
    followerTrigger c = afterTrigger tag.number (applyDue false tag (sendTrigger tag.number 0 (pushTag tag aligned))) := by
  have hfind : c.gang.pitches.find? (fun y => y.1 == tag.number) = none := by simpa [List.find?_eq_none] using hpitches
  have hrole : (c.gang.role != 0) = true := by simpa using hrole
  simp only [followerTrigger, htags, htrig, hformed, hrole, hjoins, hfind, Bool.not_true, Bool.or_true, Bool.or_self, Bool.false_and,
    Bool.false_eq_true, if_false]

theorem latencyMeasure_up {link : Nat} (ns retried : Nat) (h : c.gang.portUp link = true) :
    let counted := satAdd 0x0F01 24 0 32 c.gang.framesRetried retried c
    latencyMeasure link ns retried c =
      modGang (fun g => { g with latency := vset g.latency link (satU 32 ns), framesRetried := counted.1 }) counted.2 :=
  if_neg (by simp [h])

/-! ### Links lost and back (R402) -/

/-- The gang with a link down or up. -/
def withLink (link : Nat) (up : Bool) (c : Chip) : Chip := modGang (fun g => { g with links := vset g.links link up }) c

section
variable {link : Nat}

theorem sarecLost_unused (h : (withLink link false c).gang.cfg.usesLink link = false ∨ (withLink link false c).gang.formed = false) :
    sarecLost link c = withLink link false c := by
  refine if_pos ?_
  change (!(withLink link false c).gang.cfg.usesLink link || !(withLink link false c).gang.formed) = true
  obtain h | h := h <;> simp [h]

/-- A link whose loss cuts members off splits the gang. -/
theorem sarecLost_splits (huses : (withLink link false c).gang.cfg.usesLink link = true) (hformed : (withLink link false c).gang.formed = true)
    (hleft : Nat.land (withLink link false c).gang.reachable (withLink link false c).gang.members ≠ (withLink link false c).gang.members) :
    let down := withLink link false c
    let counted := satAdd 0x0F01 20 0 32 down.gang.splits 1 down
    sarecLost link c = gangSplit 0 (modGang (fun g =>
      let g := { g with members := Nat.land down.gang.reachable down.gang.members, state := .island, splits := counted.1
                        lastSplitTrigger := counted.2.trig.number, joinMd := none }
      { g with role := g.roleNow }) counted.2) := by
  have hserves : ¬ (!(withLink link false c).gang.cfg.usesLink link || !(withLink link false c).gang.formed) = true := by simp [huses, hformed]
  exact (if_neg hserves).trans ((if_neg fun h => hleft h.2).trans (if_neg hleft))

theorem sarecLost_whole (huses : (withLink link false c).gang.cfg.usesLink link = true) (hstate : (withLink link false c).gang.state = .joined)
    (hleft : Nat.land (withLink link false c).gang.reachable (withLink link false c).gang.members = (withLink link false c).gang.members) :
    sarecLost link c = withLink link false c := by
  have hserves : ¬ (!(withLink link false c).gang.cfg.usesLink link || !(withLink link false c).gang.formed) = true := by
    simp [huses, Gang.formed, hstate]
  exact (if_neg hserves).trans ((if_neg fun h => h.1 hstate).trans (if_pos hleft))

theorem sarecHealthy_whole (h : (withLink link true c).gang.state ≠ .island) : sarecHealthy link c = withLink link true c :=
  if_pos (Or.inl h)

/-- An island with every link it uses rejoins; the leader alone names the point. -/
theorem sarecHealthy_rejoins (hstate : (withLink link true c).gang.state = .island)
    (hlinks : ∀ b, b < (withLink link true c).gang.cfg.size → (withLink link true c).gang.cfg.usesLink b = true →
      vget (withLink link true c).gang.links b = true)
    (hleader : (withLink link true c).gang.cfg.autoRejoin = false ∨ (withLink link true c).gang.leaderAt ≠ some (withLink link true c).gang.cfg.position) :
    sarecHealthy link c = modGang (fun g => { g with state := .rejoining }) (withLink link true c) := by
  have hall : ((List.range (withLink link true c).gang.cfg.size).all fun b =>
      !(withLink link true c).gang.cfg.usesLink b || vget (withLink link true c).gang.links b) = true := by
    rw [List.all_eq_true]
    intro b hb
    cases huses : (withLink link true c).gang.cfg.usesLink b
    · rfl
    · simp [hlinks b (List.mem_range.1 hb) huses]
  have hisland : ¬ ((withLink link true c).gang.state ≠ .island ∨ (!(List.range (withLink link true c).gang.cfg.size).all fun b =>
      !(withLink link true c).gang.cfg.usesLink b || vget (withLink link true c).gang.links b) = true) := by
    simp only [hall, hstate]
    decide
  have hfollows : ¬ ((withLink link true c).gang.cfg.autoRejoin = true ∧
      (withLink link true c).gang.leaderAt = some (withLink link true c).gang.cfg.position) := by
    obtain h | h := hleader <;> simp [h]
  exact (if_neg hisland).trans (if_neg hfollows)

end

/-! ### Formation and exchange (R400, R407) -/

section
variable {nodes : List Nat} {encoders : Nat} {overlaps : List Nat} (hstate : c.gang.state = .forming) (hruns : sarecRuns c = true)
  (hlength : nodes.length = c.gang.cfg.size)
include hstate hruns hlength

theorem gang_forms : ¬ (c.gang.state ≠ .forming ∨ (!sarecRuns c) = true ∨ nodes.length ≠ c.gang.cfg.size) := by
  simp [hstate, hruns, hlength]

theorem gangForm_joined (h : nodes.eraseDups.length = nodes.length) :
    let g := c.gang
    let formed := { g with
      nodes := nodes.map (· % 256), encoders := setBit encoders g.cfg.position g.cfg.localEncoder, overlaps, nodeConflict := false
      leaderNode := nodes.foldl min 255, members := 2 ^ g.cfg.size - 1
      state := .joined, links := vmapIdx (fun b up => up || g.cfg.usesLink b) g.links }
    gangForm nodes encoders overlaps c =
      { c with trig := { c.trig with pitchDue := true }, gang := { formed with role := formed.roleNow } } :=
  (if_neg (gang_forms hstate hruns hlength)).trans (if_neg (not_not.2 h))

theorem gangForm_conflict (h : nodes.eraseDups.length ≠ nodes.length) :
    gangForm nodes encoders overlaps c =
      gangSplit 2 { c with gang := { c.gang with nodeConflict := true, state := .notGanged, members := c.gang.cfg.self, role := 0 } } :=
  (if_neg (gang_forms hstate hruns hlength)).trans (if_pos h)

end

section
variable (hsize : 1 < c.gang.cfg.size)
include hsize

theorem exchangeReceived_samples (line : Nat) (pixels : List (Option Nat)) (column0 : Int) (pitch : Nat) :
    exchangeReceived (.samples line pixels column0 pitch) c = { c with gang := { c.gang with
      samples := ((line, pixels) :: c.gang.samples.filter fun y => y.1 != line).take 256
      gridsAbove := noteGrid line (column0, pitch) c.gang.gridsAbove } } := if_neg (Nat.not_le.2 hsize)

theorem exchangeReceived_lowerGrid (line : Nat) (column0 : Int) (pitch count : Nat) :
    exchangeReceived (.lowerGrid line column0 pitch count) c = { c with gang := { c.gang with
      gridsBelow := noteGrid line (column0, pitch, count) c.gang.gridsBelow } } := if_neg (Nat.not_le.2 hsize)

theorem exchangeReceived_runs (line : Nat) (blobs : List (Blob × Bool)) :
    exchangeReceived (.runs line blobs) c = { c with gang := { c.gang with
      exchange := (c.gang.exchange.filter fun y => y.1 != line) ++ [(line, blobs)] } } := if_neg (Nat.not_le.2 hsize)

theorem exchangeReceived_viewOffset (position offset : Nat) :
    exchangeReceived (.viewOffset position offset) c = sendSarec (offsetPorts c.gang) 3 (offsetMessage position offset)
      { c with gang := { c.gang with viewOffsets := (position, offset) :: c.gang.viewOffsets.filter fun y => y.1 != position } } :=
  if_neg (Nat.not_le.2 hsize)

theorem exchangeReceived_join (md : Nat) :
    exchangeReceived (.join md) c = if c.gang.state = .rejoining then tellJoin { c with gang := { c.gang with joinMd := some md } } else c :=
  if_neg (Nat.not_le.2 hsize)

end

end

end Sys2Proof.Machine

namespace Sys2Proof
open Sys2Proof.Machine
set_option Elab.async false

/-- Settles O54, row by row. -/
theorem gangEvents : Obligations.GangEvents := by
  refine ⟨fun s t tag pitch => ?_, fun s t tag rest => ?_, fun s t link ns retried => ?_, fun s t link => ?_, fun s t nodes encoders overlaps => ?_,
    fun s t line pitch count position offset md pixels column0 blobs => ?_⟩
  · intro c g joins ports h
    rw [exec_sarecTagReceived]
    exact State.next_put (tagReceived_taken h)
  · intro c taken numbered listed aligned htags htrig hformed hrole hjoins hpitches
    rw [exec_followerTrigger]
    exact State.next_put (followerTrigger_cons htags htrig hformed hrole hjoins hpitches)
  · intro c counted h
    rw [exec_sarecLatencyMeasure]
    exact State.next_put (latencyMeasure_up ns retried h)
  · intro down left up counted split
    rw [exec_sarecLinkLost, exec_sarecLinkHealthy]
    exact ⟨fun h => State.next_put (sarecLost_unused h), fun huses hformed hleft => State.next_put (sarecLost_splits huses hformed hleft),
      fun huses hstate hleft => State.next_put (sarecLost_whole huses hstate hleft), fun h => State.next_put (sarecHealthy_whole h),
      fun hstate hlinks hleader => State.next_put (sarecHealthy_rejoins hstate hlinks hleader)⟩
  · intro c g formed hstate hruns hlength
    rw [exec_gangForm]
    exact ⟨fun h => State.next_put (gangForm_joined hstate hruns hlength h), fun h => State.next_put (gangForm_conflict hstate hruns hlength h)⟩
  · intro c g hsize
    simp only [exec_gangExchangeReceived]
    exact ⟨State.next_put (exchangeReceived_samples hsize line pixels column0 pitch),
      State.next_put (exchangeReceived_lowerGrid hsize line column0 pitch count), State.next_put (exchangeReceived_runs hsize line blobs),
      State.next_put (exchangeReceived_viewOffset hsize position offset), State.next_put (exchangeReceived_join hsize md)⟩

end Sys2Proof

/-! SUPPORT. Chapters 16 and 19: the events of the DRAM channels and the SRAM patrol. -/
namespace Sys2Proof.Machine

-- One proof after another: many at once need a stack each, and together more memory than the check has.
set_option Elab.async false

section
variable {c : Chip} {k : Nat}

/-! ### Refresh (R417) -/

theorem dramRefresh_runs {rank : Nat} (left : Nat) (hruns : dramRuns c k = true) (hrank : rank < (vget c.dram.ch k).ranks) :
    dramRefresh k rank left c = modCh k (fun d => { d with owed := vset d.owed rank (owedAfter d rank) })
      (belvedereFill (min left c.dram.belvedereUsed) c) :=
  if_neg (by simp [hruns, hrank])

/-- The panic of a buffer begins above three quarters and ends below a half. -/
theorem panics_above {was : Bool} {used size : Nat} (h : 3 * size < 4 * used) : panics was used size = true := if_pos h

theorem panics_below {was : Bool} {used size : Nat} (h : 2 * used < size) : panics was used size = false :=
  (if_neg (by omega)).trans (if_pos h)

theorem panics_between {was : Bool} {used size : Nat} (hlow : size ≤ 2 * used) (hhigh : 4 * used ≤ 3 * size) : panics was used size = was :=
  (if_neg (Nat.not_lt.2 hhigh)).trans (if_neg (Nat.not_lt.2 hlow))

/-! ### Activation limits (R421) -/

/-- Two changes that agree on the channel as it stands are one change. -/
theorem modCh_congr {f g : DramChannel → DramChannel} (h : f (vget c.dram.ch k) = g (vget c.dram.ch k)) : modCh k f c = modCh k g c := by
  simp only [modCh, modDram, vmod, h]

/-- The counts of a row that one requester alone activated. -/
def onlyCounts (requester activations : Nat) : List Nat := (List.replicate 6 0).set requester activations

theorem onlyCounts_getD {requester q : Nat} (hq : q < 6) (activations : Nat) :
    (onlyCounts requester activations).getD q 0 = if q = requester then activations else 0 := by
  unfold onlyCounts
  rw [List.getD_eq_getElem?_getD, List.getElem?_set, List.length_replicate, List.getElem?_replicate]
  by_cases h : requester = q
  · subst h; simp [hq]
  · simp [h, Ne.symm h, hq]

/-- Of six requesters one is chosen. -/
theorem range_filter_only {requester : Fin 6} (p : Nat → Bool) :
    (List.range 6).filter (fun q => p q && decide (q = requester)) = if p requester then [(requester : Nat)] else [] := by
  have hrange : List.range 6 = [0, 1, 2, 3, 4, 5] := rfl
  rw [hrange]
  fin_cases requester <;> simp [List.filter_cons]

theorem range_sum_only {requester : Fin 6} (n : Nat) : ((List.range 6).map fun q => if q = (requester : Nat) then n else 0).sum = n := by
  have hrange : List.range 6 = [0, 1, 2, 3, 4, 5] := rfl
  rw [hrange]
  fin_cases requester <;> simp

theorem rfmDue_over {n : Nat} (h : 2048 < n) : rfmDue n = 1 + (n - 2048) / 512 := if_neg (Nat.not_le.2 h)

/-- A bank without activations listed has none of any row. -/
theorem activationsOf_absent {table : List Activation} {bank : Nat} (h : ∀ a ∈ table, a.bank ≠ bank) (row requester : Nat) :
    activationsOf table bank row requester = 0 := by
  have hfind : table.find? (fun a => a.bank == bank && a.row == row) = none := by
    rw [List.find?_eq_none]
    intro a ha
    simp [h a ha]
  rw [activationsOf, hfind]
  rfl

section
variable {bank row activations : Nat} {requester : Fin 6} (hover : 2048 < activations)
include hover

/-- The refresh commands owed for the row are those of its one requester. -/
theorem rfmDue_onlyCounts {table : List Activation} (h : ∀ a ∈ table, a.bank ≠ bank) :
    ((List.range 6).map fun q => rfmDue ((onlyCounts requester activations).getD q 0) - rfmDue (activationsOf table bank row q)).sum =
      1 + (activations - 2048) / 512 := by
  rw [← rfmDue_over hover, ← range_sum_only (requester := requester) (rfmDue activations)]
  refine congrArg List.sum (List.map_congr_left fun q hq => ?_)
  rw [onlyCounts_getD (List.mem_range.1 hq), activationsOf_absent h]
  split <;> simp [rfmDue]

theorem limited_onlyCounts (p : Nat → Bool) :
    (List.range 6).filter (fun q => p q && decide (0 < rfmDue ((onlyCounts requester activations).getD q 0))) =
      if p requester then [(requester : Nat)] else [] := by
  rw [← range_filter_only p]
  refine List.filter_congr fun q hq => ?_
  rw [onlyCounts_getD (List.mem_range.1 hq)]
  by_cases h : q = requester
  · simp [h, rfmDue_over hover]
  · simp [h, rfmDue]

omit hover in
theorem activationTable_only (counts : List Nat) (hlength : counts.length = 6) :
    (([(row, counts)] : List (Nat × List Nat)).take 16).map (fun y => ({ bank, row := y.1, counts := y.2.take 6 } : Activation)) =
      [{ bank, row, counts }] := by
  have htake : counts.take 6 = counts := List.take_of_length_le (Nat.le_of_eq hlength)
  simp [htake]

/-- A row that one requester activates too often is refreshed, and a requester that may be throttled is. -/
theorem activationLimit_only (hruns : dramRuns c k = true) (hbank : ∀ a ∈ (vget c.dram.ch k).activations, a.bank ≠ bank) :
    let d := vget c.dram.ch k
    let counts := (List.replicate 6 0).set requester activations
    let limits := decide (2 ≤ (requester : Nat)) && !d.throttled.contains (bank, (requester : Nat))
    let issued := satAdd 0x0D05 32 k 32 d.rfmIssued (1 + (activations - 2048) / 512) c
    let throttled := satAdd 0x0D05 36 k 32 d.throttleEvents (b2n limits) issued.2
    activationLimit k bank [(row, counts)] c = modCh k (fun d => { d with
      rfmIssued := issued.1, throttleEvents := throttled.1, activations := d.activations ++ [{ bank, row, counts }]
      throttled := if limits then d.throttled ++ [(bank, (requester : Nat))] else d.throttled }) throttled.2 := by
  have htable := activationTable_only (bank := bank) (row := row) (onlyCounts requester activations) (by simp [onlyCounts])
  have hkept : (vget c.dram.ch k).activations.filter (fun a => a.bank != bank) = (vget c.dram.ch k).activations := by
    simpa [List.filter_eq_self] using hbank
  rw [← onlyCounts]
  simp only [activationLimit, hruns, htable, List.map_cons, List.map_nil, List.sum_cons, List.sum_nil, Nat.add_zero, List.any_cons,
    List.any_nil, Bool.or_false, rfmDue_onlyCounts hover hbank, limited_onlyCounts hover, Bool.not_true, Bool.false_eq_true, if_false]
  generalize (decide (2 ≤ (requester : Nat)) && !(vget c.dram.ch k).throttled.contains (bank, (requester : Nat))) = limits
  cases limits <;> exact modCh_congr (by simp [hkept, b2n])

end

/-! ### Tracking and retraining (R424, R425) -/

/-- The background steps of a channel run. -/
theorem channel_runs (hback : backgroundRuns c = true) (hruns : dramRuns c k = true) (hpanic : panicking c k = false) :
    ¬ (!backgroundRuns c || !dramRuns c k || panicking c k) = true := by
  simp [hback, hruns, hpanic]

section
variable {first : Retrain} {q : List (Nat × Nat)}

/-- The training under way, or the first of the queue. -/
theorem retrainStep_eq (eyePs eyeSteps centre : Nat) (hruns : dramRuns c k = true)
    (h : ((vget c.dram.ch k).training = some first ∧ (vget c.dram.ch k).queue = q) ∨
      ((vget c.dram.ch k).training = none ∧ first.runs = [] ∧ (vget c.dram.ch k).queue = (first.lane, first.cause) :: q)) :
    let d := vget c.dram.ch k
    let r : Retrain := { first with runs := (eyePs, eyeSteps, centre) :: first.runs }
    retrainStep k eyePs eyeSteps centre c =
      ((trainingResult c.now d.temperature (d.lane c.dram.bootSpeed first.lane) r.runs).elim
        (modCh k (fun d => { d with training := some r, queue := q }) c)
        fun x => retrainEnds k first.lane first.cause x (modCh k (fun d => { d with training := none, queue := q }) c)) := by
  intro d r
  refine (if_neg (by simp [hruns])).trans ?_
  obtain ⟨htraining, hqueue⟩ | ⟨htraining, hfresh, hqueue⟩ := h
  · simp only [htraining, hqueue]
    cases trainingResult c.now d.temperature (d.lane c.dram.bootSpeed first.lane) r.runs <;> rfl
  · obtain ⟨lane, cause, runs⟩ := first
    subst hfresh
    simp only [htraining, hqueue]
    cases trainingResult c.now d.temperature (d.lane c.dram.bootSpeed lane) r.runs <;> rfl

end

/-! ### Speed (R426) -/

section
variable {v : Nat} {rest : List Nat} (h : c.dram.switching = some (v, k :: rest))
include h

/-- A channel at the new speed trains all its lanes. -/
def switched (k v : Nat) (c : Chip) : Chip :=
  modCh k (fun d => { d with speed := v, training := none, queue := (List.range 10).map fun l => (l, 3) }) c

theorem speedSwitch_more (hrest : rest ≠ []) :
    speedSwitch k c = modDram (fun d => { d with switching := some (v, rest) }) (switched k v c) := by
  have hmore : rest.isEmpty = false := by simpa using hrest
  simp only [speedSwitch, h, hmore, switched, ne_eq, not_true_eq_false, Bool.false_eq_true, if_false]

theorem speedSwitch_last (hrest : rest = []) (hpending : c.dram.pendingSpeed = none) :
    speedSwitch k c = modDram (fun d => { d with switching := none, pendingSpeed := none }) (switched k v c) := by
  have hpending : (switched k v c).dram.pendingSpeed = none := hpending
  rw [switched] at hpending
  subst hrest
  simp only [speedSwitch, h, hpending, switched, ne_eq, not_true_eq_false, List.isEmpty_nil, if_false, if_true]

end

/-! ### Scrubbing (R431, R506) -/

/-- The scrub's progress is noted. -/
def scrubNoted (k permille : Nat) (c : Chip) : Chip := modCh k (fun d => { d with scrubPermille := min 1000 permille }) c

section
variable {ch : Fin 4} {permille : Nat} {extent : Option Nat} {rewritten : Bool} {e : ReadError}
  (hback : backgroundRuns c = true) (hruns : dramRuns c ch = true) (hpanic : panicking c ch = false)
include hback hruns hpanic

theorem patrolScrub_nothing : patrolScrub ch [] extent rewritten permille c = scrubNoted ch permille c := by
  refine (if_neg (channel_runs hback hruns hpanic)).trans ?_
  cases extent
  · rfl
  · simp [scrubNoted]

/-- An error that is no uncorrectable one retires nothing. -/
theorem patrolScrub_readable (h : readFails e = false) : patrolScrub ch [e] extent rewritten permille c =
    scrubNoted ch permille (takeRead true (extent.getD 0xFFFF) { e with ch } c) := by
  refine (if_neg (channel_runs hback hruns hpanic)).trans ?_
  cases extent <;> simp [scrubNoted, h]

theorem patrolScrub_lost {x : Nat} (h : readFails e = true) : patrolScrub ch [e] (some x) rewritten permille c =
    let told := scrubNoted ch permille (takeRead true x { e with ch } c)
    if rewritten then retireExtent ch 0xFF x told else told := by
  refine (if_neg (channel_runs hback hruns hpanic)).trans ?_
  simp [scrubNoted, h]

end

/-- What a read with one error does follows from what the code makes of it. -/
theorem takeRead_clean {e : ReadError} (h : outcomeOf e = .clean) (patrol : Bool) (extent : Nat) : takeRead patrol extent e c = c := by
  simp only [takeRead, h]

theorem takeRead_corrected {e : ReadError} {i : Nat} (h : outcomeOf e = .corrected i) (patrol : Bool) (extent : Nat) :
    takeRead patrol extent e c = correctedRead e.ch (10 * e.group + i) e.row c := by
  simp only [takeRead, h]

theorem takeRead_uncorrectable {e : ReadError} (h : outcomeOf e = .uncorrectable) (patrol : Bool) (extent : Nat) :
    takeRead patrol extent e c = uncorrectable patrol extent e c := by
  simp only [takeRead, h]

/-- A row corrected on two passes is replaced; one corrected once is noted. -/
theorem sramScrub_single {w : SramWord} (hback : backgroundRuns c = true) (h : (w.flipped.filter (· < 72)).eraseDups.length = 1) :
    let row := (SramHit.pool w.hit, w.row)
    let corrected := sramCorrect (SramHit.pool w.hit) w.addr c
    sramScrub [w] c = if corrected.supply.rowsOnce.contains row then modSupply (fun x => { replaceRow x with rowsOnce := [] }) corrected
      else modSupply (fun x => { x with rowsOnce := [row] }) corrected := by
  intro row corrected
  have hsecded : secded w.flipped c = (1, c) := by simp [secded, h]
  have hword : scrubWord w ([], c) = ([row], corrected) := by simp [scrubWord, hsecded, row, corrected]
  refine (if_neg (by simp [hback])).trans ?_
  simp only [List.foldl_cons, List.foldl_nil, hword, List.eraseDups_cons, List.filter_cons, List.filter_nil, List.eraseDups_nil]
  cases hagain : corrected.supply.rowsOnce.contains row <;> simp

end

end Sys2Proof.Machine

namespace Sys2Proof
open Sys2Proof.Machine
set_option Elab.async false

/-- Settles O55, row by row: the channels' upkeep, then the scrubs by the outcome of a read. -/
theorem memoryArrayEvents : Obligations.MemoryArrayEvents := by
  refine ⟨fun s t ch rank left => ?_, fun was used size => ⟨panics_above, panics_below, panics_between⟩,
    fun s t ch bank row activations requester => ?_, fun s t ch => ?_, fun s t => ?_, fun s t ch directions => ?_,
    fun s t ch eyePs eyeSteps centre first q => ?_, fun s t ch v rest => ?_, fun s t ch e device permille extent rewritten => ?_,
    fun s t ch permille x e rewritten => ?_, fun s t w => ?_⟩
  · intro c hruns hrank
    rw [exec_dramRefresh]
    exact State.next_put (dramRefresh_runs left hruns hrank)
  · intro c d counts limits issued throttled hruns hover hbank
    rw [exec_dramActivationLimit]
    exact State.next_put (activationLimit_only hover hruns hbank)
  · rw [exec_dramRefreshWindowEnd]
  · exact ⟨_, exec_dramZqCalibration t s, rfl, rfl, rfl, rfl⟩
  · intro c boot hback hruns hpanic
    rw [exec_dramDqsTracking]
    exact State.next_put (if_neg (channel_runs hback hruns hpanic))
  · intro c d r hruns h
    rw [exec_dramRetrainStep, retrainStep_eq (c := s.tick t) eyePs eyeSteps centre hruns h]
    exact ⟨fun hresult => State.next_put (congrArg (Option.elim · _ _) hresult), fun x hresult => State.next_put (congrArg (Option.elim · _ _) hresult)⟩
  · intro c changed h
    rw [exec_dramSpeedSwitch]
    exact ⟨fun hrest => State.next_put (speedSwitch_more h hrest), fun hrest hpending => State.next_put (speedSwitch_last h hrest hpending)⟩
  · intro c place counted hback hruns hpanic
    simp only [exec_dramPatrolScrub]
    have hread (h : readFails e = false) := patrolScrub_readable (c := c) (extent := extent) (rewritten := rewritten) (permille := permille) hback hruns hpanic h
    refine ⟨fun h => State.next_put ((hread (by simp [readFails, h])).trans ?_), fun h => State.next_put ((hread (by simp [readFails, h])).trans ?_),
      State.next_put (patrolScrub_nothing hback hruns hpanic)⟩
    · exact congrArg (scrubNoted ch permille) (takeRead_corrected (e := { e with ch }) h _ _)
    · exact congrArg (scrubNoted ch permille) (takeRead_clean (e := { e with ch }) h _ _)
  · intro told hback hruns hpanic h
    have htold : scrubNoted ch permille (takeRead true x { e with ch } (s.tick t)) = told :=
      congrArg (scrubNoted ch permille) (takeRead_uncorrectable (e := { e with ch }) h _ _)
    rw [exec_dramPatrolScrub, patrolScrub_lost (c := s.tick t) hback hruns hpanic (by simp [readFails, h])]
    exact State.next_put (congrArg (fun d => if rewritten then retireExtent ch 0xFF x d else d) htold)
  · intro c row corrected hback h
    rw [exec_sramScrub]
    exact State.next_put (sramScrub_single hback h)

end Sys2Proof

/-! SUPPORT. Chapter 19: the events of health, supply and the life record. -/
namespace Sys2Proof.Machine

-- One proof after another: many at once need a stack each, and together more memory than the check has.
set_option Elab.async false

/-! ### A saturating counter leaves the life record -/

@[simp] theorem signalGroup_life (code : Nat) (c : Chip) : (signalGroup code c).life = c.life := by
  simp only [signalGroup, signalVector]
  repeat' split
  all_goals rfl

@[simp] theorem enqueueEvent_life (e : Event) (c : Chip) : (enqueueEvent e c).life = c.life := by
  have hsignalled : (if c.evq.ring.enabled then c else signalGroup e.code c).life = c.life := by split <;> simp
  simp only [enqueueEvent]
  split
  · exact hsignalled
  · exact hsignalled

/-- An event without a journal entry leaves the life record. -/
theorem raiseWith_false_life (code sev source : Nat) (payload : List Byte) (c : Chip) : (raiseWith false code sev source payload c).life = c.life := by
  simp only [raiseWith, raiseNow, Bool.false_eq_true, if_false]
  repeat' split
  all_goals simp

@[simp] theorem noteSaturated_life (k o i w v : Nat) (c : Chip) : (noteSaturated k o i w v c).life = c.life := by
  simp only [noteSaturated]
  split
  · exact raiseWith_false_life ..
  · rfl

@[simp] theorem satAdd_life (k o i w a n : Nat) (c : Chip) : (satAdd k o i w a n c).2.life = c.life := noteSaturated_life ..

/-! ### The housekeeping round (R489) -/

/-- The sensors of a round: read where the references are there, else kept, and the round counted as discarded. -/
def roundTaken (r : Round) (c : Chip) : Chip :=
  if r.references then modHealth (fun h => { h.convert r.die with railMv := vmapIdx (fun m v => r.rails.getD m v) h.railMv }) c
  else modHealth (fun h => { h.convert h.sensors.toList with roundsDiscarded := (satAdd 0x0D00 14 0 16 c.health.roundsDiscarded 1 c).1 })
    (satAdd 0x0D00 14 0 16 c.health.roundsDiscarded 1 c).2

/-- The sensors that failed in a round are told. -/
def roundTold (before : Health) (c : Chip) : Chip :=
  ((List.range 24).filter fun n => vget c.health.failed n && !vget before.failed n).foldl (fun d n => sensorFailEvent before n d) c

/-- The thresholds judge what a round has found. -/
def roundJudged (r : Round) (c : Chip) : Chip :=
  thresholds (if (dramRound r.dram c).health.failed.toList.all id then enterHalt (dramRound r.dram c) else dramRound r.dram c)

/-- The extremes of the round. -/
def roundKept (before : Health) (c : Chip) : Chip := modHealth (fun h => { h with
  levelFloor := if h.pinnedBits = before.pinnedBits then h.levelFloor else max h.levelFloor h.level
  high := if h.rounds = 0 then h.dieTemp else max h.high h.dieTemp, low := if h.rounds = 0 then h.dieTemp else min h.low h.dieTemp }) c

/-- A round is counted, and shown in the registers. -/
def roundCounted (c : Chip) : Chip := modHealth (fun h => { h with rounds := h.rounds + 1, roundAt := c.now }) c
def roundShown (c : Chip) : Chip := modHealth (fun h => { h with registers := hkRegisters (roundCounted c) }) (roundCounted c)

theorem housekeepingRound_eq (r : Round) (c : Chip) : housekeepingRound r c =
    roundShown (agingRound (hoursRound (cycleRound (roundKept c.health (roundJudged r (roundTold c.health (roundTaken r c))))))) := by
  simp only [housekeepingRound, roundTaken, roundTold, roundJudged, roundKept, roundShown, roundCounted]
section
variable {c : Chip}

/-! ### Grace (R495) -/

section
variable (hstate : c.health.state = .grace) (hends : c.health.graceEnd ≤ c.health.roundAt)
include hstate hends

theorem grace_over : ¬ (c.health.state ≠ .grace ∨ c.health.roundAt < c.health.graceEnd) := by simp [hstate, hends]

theorem graceEnds_enforces (h : c.health.request.value ≤ c.health.dieTemp) : graceEnds c = changeLevel 0 (modHealth Health.enforce c) :=
  (if_neg (grace_over hstate hends)).trans (if_pos h)

theorem graceEnds_spent (h : c.health.dieTemp < c.health.request.value) :
    graceEnds c = { c with health := { c.health with state := .spent } } :=
  (if_neg (grace_over hstate hends)).trans (if_neg (not_le.2 h))

end

/-! ### Supply (R503, R504) -/

/-- Up to sixteen dips of a second warn of the dip, and of no more. -/
theorem supplyDip_few (m lowest durationUs : Nat) :
    let boot := satAdd 0x0D00 144 0 32 c.supply.dipsSinceBoot 1 c
    let life := satAdd 0x0D03 28 0 32 c.life.totals.supplyDips 1 boot.2
    let dips := life.2.now :: life.2.supply.dipTimes.filter fun t => decide (life.2.now < t + 1000000000)
    dips.length ≤ 16 → supplyDip m lowest durationUs c = supplyWarn m 0 lowest durationUs
      (modTotals (fun y => { y with supplyDips := life.1 }) (modSupply (fun x => { x with
        dipsSinceBoot := boot.1, dipTimes := dips, lastDip := some life.2.now, lastExcursion := life.2.now, held := true
        outside := x.outside.filter (· != m) }) life.2)) := by
  intro boot life dips h
  have htotals : boot.2.life.totals.supplyDips = c.life.totals.supplyDips := congrArg (·.totals.supplyDips) (satAdd_life ..)
  dsimp only [boot] at htotals
  unfold supplyDip
  dsimp only
  rw [htotals]
  exact if_neg fun hmany => absurd hmany.1 (Nat.not_lt.2 h)

theorem supplyHold_ends {s : State} {t : Nat} (hinside : s.chip.supply.outside = []) (hquiet : s.chip.supply.lastExcursion + 100000000 ≤ t) :
    ((s.tick t).supply.outside.isEmpty && decide ((s.tick t).supply.lastExcursion + 100000000 ≤ (s.tick t).now)) = true := by
  have hnow : s.chip.supply.lastExcursion + 100000000 ≤ max s.chip.now t := Nat.le_trans hquiet (Nat.le_max_right ..)
  change (s.chip.supply.outside.isEmpty && decide (s.chip.supply.lastExcursion + 100000000 ≤ max s.chip.now t)) = true
  simp only [hinside, hnow, List.isEmpty_nil, decide_true, Bool.and_self]

/-- Ten seconds after the last dip the supply is stable again; the warning carries free values. -/
theorem unstableClears_after {last : Nat} (hunstable : c.supply.unstable = true) (hlast : c.supply.lastDip = some last)
    (htime : last + 10000000000 ≤ c.now) :
    unstableClears c = supplyWarn (Config.freeValue c.fresh % 32) 4 (Config.freeValue (c.fresh + 1)) (Config.freeValue (c.fresh + 2))
      (modSupply (fun x => { x with unstable := false }) { c with fresh := c.fresh + 3 }) := by
  refine if_pos ?_
  simp [hunstable, hlast, htime]

/-! ### The journal and the telemetry (R508, R509, R513) -/

theorem journalWrite_next {e : JournalEntry} {taken : Chip} (hheld : c.supply.held = false) (hruns : firmwareRuns c = true)
    (hnext : nextEntry c = some (e, taken)) :
    let bytes := journalBytes e taken.life.nextSequence
    let next := wrapU 32 (taken.life.nextSequence + 1)
    journalWrite c = emit (.flashWrite 1 bytes) (emit (.flashWrite 0 bytes) { taken with life := { taken.life with
      nextSequence := next, areaA := (bytes :: taken.life.areaA).take (65408 + next % 64), areaB := (bytes :: taken.life.areaB).take (65408 + next % 64) } }) := by
  simp only [journalWrite, hheld, hruns, hnext, Bool.not_true, Bool.or_self, Bool.false_eq_true, if_false]

/-- The counts of a telemetry period restart. -/
def telemetrySent (c : Chip) : Chip :=
  { c with life := { c.life with telemetrySequence := wrapU 32 (c.life.telemetrySequence + 1), linesLastS := 0, recordsLastS := 0 } }

/-- The telemetry event is raised where it is asked for. -/
def telemetryTold (c : Chip) : Chip :=
  if c.life.telemetryEvent then
    raise 0x0103 0 0x7F
      (leS 2 c.health.dieTemp ++ le 1 c.health.level ++ le 1 (mode c) ++ le 4 (conditions c) ++ le 4 (satU 32 c.life.recordsLastS)) c
  else c

/-- A snapshot goes to an open ring. -/
def telemetryPut (c : Chip) : Chip :=
  if c.life.ring.enabled && !c.life.ring.full && hostWrites c then
    { (ringPut c.life.ring (snapshot c) 0 0 c).2 with
      life := { (ringPut c.life.ring (snapshot c) 0 0 c).2.life with ring := (ringPut c.life.ring (snapshot c) 0 0 c).1 } }
  else c

theorem telemetry_eq (c : Chip) : telemetry c = telemetrySent (telemetryPut (telemetryTold c)) := rfl

theorem telemetryTold_silent (h : c.life.telemetryEvent = false) : telemetryTold c = c := if_neg (by simp [h])

theorem telemetryPut_closed (h : c.life.ring.enabled = false) : telemetryPut c = c := if_neg (by simp [h])

theorem telemetry_silent (hevent : c.life.telemetryEvent = false) (hring : c.life.ring.enabled = false) : telemetry c = telemetrySent c := by
  rw [telemetry_eq, telemetryTold_silent hevent, telemetryPut_closed hring]

theorem telemetry_ring (hevent : c.life.telemetryEvent = false) (henabled : c.life.ring.enabled = true) (hfull : c.life.ring.full = false)
    (hhost : hostWrites c = true) :
    let w := ringPut c.life.ring (snapshot c) 0 0 c
    telemetry c = telemetrySent { w.2 with life := { w.2.life with ring := w.1 } } := by
  rw [telemetry_eq, telemetryTold_silent hevent]
  exact congrArg telemetrySent (if_pos (by simp [henabled, hfull, hhost]))

theorem telemetry_event (hevent : c.life.telemetryEvent = true) :
    let told := raise 0x0103 0 0x7F
      (leS 2 c.health.dieTemp ++ le 1 c.health.level ++ le 1 (mode c) ++ le 4 (conditions c) ++ le 4 (satU 32 c.life.recordsLastS)) c
    told.life.ring.enabled = false → telemetry c = telemetrySent told := by
  intro told hring
  rw [telemetry_eq, show telemetryTold c = told from if_pos hevent, telemetryPut_closed hring]

end

end Sys2Proof.Machine

namespace Sys2Proof
open Sys2Proof.Machine
set_option Elab.async false

/-- Settles O56, row by row. -/
theorem healthAndLifeEvents : Obligations.HealthAndLifeEvents := by
  refine ⟨fun s t r => ?_, fun s t => ?_, fun s t monitor lowest durationUs => ?_, fun s t hinside hquiet => ?_, fun s t last hunstable hlast htime => ?_,
    fun s t => ?_, fun s t e taken => ?_, fun s t => ?_⟩
  · intro c counted taken told judged level kept totals
    have htaken : roundTaken r c = taken := rfl
    have htold : roundTold c.health taken = told := rfl
    have hlevel : roundJudged r told = level := rfl
    have hkept : roundKept c.health level = kept := rfl
    have htotals : agingRound (hoursRound (cycleRound kept)) = totals := rfl
    have hround := housekeepingRound_eq r c
    rw [htaken, htold, hlevel, hkept, htotals] at hround
    clear_value totals
    rw [exec_housekeepingRound]
    exact State.next_put hround
  · intro c h hstate hends
    rw [exec_graceTimeExpiry]
    exact ⟨fun h => State.next_put (graceEnds_enforces hstate hends h), fun h => State.next_put (graceEnds_spent hstate hends h)⟩
  · intro c warn boot life dips
    rw [exec_supplyExcursionSustained, exec_supplyOver, exec_supplyDip]
    exact ⟨rfl, rfl, fun h => State.next_put (supplyDip_few monitor lowest durationUs h)⟩
  · rw [exec_supplyHoldEnd]
    exact State.next_put (if_pos (supplyHold_ends hinside hquiet))
  · have hnow : last + 10000000000 ≤ (s.tick t).now := Nat.le_trans htime (Nat.le_max_right ..)
    refine ⟨Config.freeValue s.chip.fresh % 32, Config.freeValue (s.chip.fresh + 1), Config.freeValue (s.chip.fresh + 2), _,
      Nat.mod_lt _ (by decide), rfl, ?_⟩
    rw [exec_supplyUnstableClear]
    exact State.next_put (unstableClears_after hunstable hlast hnow)
  · intro c h
    rw [exec_lifeSummary, exec_lifeCheckpoint]
    exact ⟨rfl, rfl⟩
  · intro c bytes next hheld hruns hnext
    rw [exec_lifeJournalWrite]
    exact State.next_put (journalWrite_next hheld hruns hnext)
  · intro c told quiet
    rw [exec_telemetry]
    exact ⟨fun hevent hring => State.next_put (telemetry_silent hevent hring),
      fun hevent henabled hfull hhost => State.next_put (telemetry_ring hevent henabled hfull hhost),
      fun hevent hring => State.next_put (telemetry_event hevent hring)⟩

end Sys2Proof

/-! SUPPORT. Chapter 20: the events of security. -/
namespace Sys2Proof.Machine

-- One proof after another: many at once need a stack each, and together more memory than the check has.
set_option Elab.async false

section
variable {c : Chip} {k : Nat}

/-! ### Tamper sources (R526, R530) -/

/-- The device with a source's assertion counted and its action taken. -/
def tampered (k : Nat) (c : Chip) : Chip :=
  tamperActs (vget c.sec.actions k) (modSec (fun s => { s with
    asserted := vset s.asserted k true
    counts := vset s.counts k (satAdd 0x0E05 (4 + 4 * k) 0 32 (vget c.sec.counts k) 1 c).1 }) (satAdd 0x0E05 (4 + 4 * k) 0 32 (vget c.sec.counts k) 1 c).2)

section
variable (hclear : vget c.sec.asserted k = false)
include hclear

/-- A new assertion on a powered device that raises events is told, and locks the device down where it acts. -/
theorem tamperAssert_powered (hevents : raisesEvents (tampered k c) = true) : tamperAssert k true c =
    let told := tamperEvent k 1 (if vget c.sec.actions k = 2 then 0xFF else 0) (tampered k c)
    if vget c.sec.actions k = 0 then told else enterLockdown told := by
  have htold : ¬ (!true || !raisesEvents (tampered k c)) = true := by simp [hevents]
  exact (if_neg (by simp [hclear])).trans (if_neg htold)

/-- Without power an assertion is kept, to be told later. -/
theorem tamperAssert_unpowered (hsix : k ≠ 6) (hseven : k ≠ 7) :
    tamperAssert k false c = modSec (fun s => { s with unreported := s.unreported ++ [k] }) (tampered k c) :=
  (if_neg (by simp [hclear, hsix, hseven])).trans (if_pos rfl)

end

theorem tamperClear_asserted (h : vget c.sec.asserted k = true) (powered : Bool) :
    let quiet := modSec (fun s => { s with asserted := vset s.asserted k false }) c
    tamperClear k powered c = if powered then tamperEvent k 0 0 quiet else quiet := if_neg (by simp [h])

/-! ### Sessions and proofs (R518 to R520) -/

theorem sessionIdle_over {x : Session} (hx : vget c.sec.sessions k = some x) (h : x.lastCommand + x.idleS * 1000000000 ≤ c.now) :
    sessionIdle k c = endSession k 3 c := by
  simp only [sessionIdle, hx, h, if_true]

theorem lockout_over {u : Nat} (hu : c.sec.lockoutUntil = some u) (h : u ≤ c.now) :
    c.sec.lockoutUntil.filter (fun u => decide (c.now < u)) = none := by
  rw [hu]
  exact Option.filter_eq_none_iff.2 fun x hx => by simp_all

/-! ### Debug access (R524) -/

/-- The entry of the audit that the opening of debug access leaves, its free fields drawn. -/
def debugEntry (c : Chip) : AuditEntry :=
  { timeS := (clock { c with fresh := c.fresh + 3 }).1, timeNs := (clock { c with fresh := c.fresh + 3 }).2
    command := Config.freeValue c.fresh % 65536, cls := 3, mailbox := Config.freeValue (c.fresh + 1) % 256
    status := 0, digest := Config.freeValue (c.fresh + 2) % 2 ^ 32 }

/-- The device with the opening counted and in the audit. -/
def debugAudited (c : Chip) : Chip :=
  let counted := satAdd 0x0D03 52 0 32 c.life.totals.auditEntries 1 { c with fresh := c.fresh + 3 }
  modTotals (fun y => { y with auditEntries := counted.1 }) { counted.2 with mbx := { counted.2.mbx with audit := counted.2.mbx.audit ++ [debugEntry c] } }

theorem debugOpen_proved (h : (vget c.sec.fuses 4).fused ≠ 1) :
    debugOpen true c = clearModels (modSec (fun s => { s with debugOpen := true, sealed_ := true }) (debugAudited c)) :=
  if_neg (by simp [h])

@[simp] theorem debugAudited_sec (c : Chip) : (debugAudited c).sec = c.sec := satAdd_sec ..

@[simp] theorem debugAudited_audit (c : Chip) : (debugAudited c).mbx.audit = c.mbx.audit ++ [debugEntry c] := by
  simp [debugAudited, modTotals]

end

end Sys2Proof.Machine

namespace Sys2Proof
open Sys2Proof.Machine
set_option Elab.async false

/-- Settles O57, row by row. -/
theorem securityEvents : Obligations.SecurityEvents := by
  refine ⟨fun s t source => ?_, fun s t source powered => ?_, fun s t mb unlock => ?_, fun s t mb x => ?_, fun s t u => ?_, fun s t => ?_⟩
  · intro c action counted seen acted hclear
    simp only [exec_tamperAssert]
    exact ⟨fun hevents => State.next_put (tamperAssert_powered hclear hevents),
      fun hsix hseven => State.next_put (tamperAssert_unpowered hclear hsix hseven)⟩
  · intro quiet h
    rw [exec_tamperClear]
    exact State.next_put (tamperClear_asserted (c := s.tick t) h powered)
  · intro c h
    rw [exec_sessionChallengeExpiry]
    exact State.next_put (if_pos (by rw [Option.isNone_iff_eq_none]; exact h))
  · intro c hx h
    rw [exec_sessionIdleTimeout]
    exact State.next_put (sessionIdle_over hx h)
  · intro c hu h
    rw [exec_proofLockoutEnd]
    exact State.next_put (congrArg (fun o => modSec (fun x => { x with lockoutUntil := o }) c) (lockout_over hu h))
  · intro c h
    refine ⟨_, (exec_debugAccessOpen t true s).trans (State.next_put (debugOpen_proved h)), rfl, rfl, ⟨debugEntry c, ?_, rfl, rfl⟩, ?_, ?_⟩
    · exact debugAudited_audit c
    · exact congrArg (·.fuses) (debugAudited_sec c)
    · exact congrArg (·.keys) (debugAudited_sec c)

end Sys2Proof

/-! SUPPORT. Chapter 21: a lockstep recovery holds what SYS_MODE showed (R586). -/
namespace Sys2Proof.Machine

-- One proof after another: many at once need a stack each, and together more memory than the check has.
set_option Elab.async false

/-- A device that runs, in mode 2; what SYS_MODE last held through a restart was mode 1. -/
def runningInModeTwo : State := { chip := { modes := { boot := .done, primary := 2 } } }

/-- The recovery takes the mode over into what SYS_MODE shows. -/
theorem runningInModeTwo_shows : (lockstepStarts (runningInModeTwo.tick 0)).modes.shownMode = 2 := rfl

end Sys2Proof.Machine

namespace Sys2Proof
open Sys2Proof.Machine
set_option Elab.async false

/-- Refutes O58: a lockstep recovery that starts also takes the mode and the conditions over into what SYS_MODE shows through the restart
(R586), and the clause on it leaves them as they were; with mode 2 in effect and mode 1 held, the two differ. -/
theorem not_modeCalibrationAndLodgeEvents : ¬ Obligations.ModeCalibrationAndLodgeEvents := by
  unfold Obligations.ModeCalibrationAndLodgeEvents
  intro h
  obtain ⟨-, -, -, -, -, -, hlockstep, -⟩ := h
  obtain ⟨-, hstarts⟩ := hlockstep runningInModeTwo 0 0
  obtain ⟨hfew, -, -⟩ := hstarts rfl
  have hnext := hfew (by decide)
  rw [exec_lockstepRecovery, Host.Outcome.next.injEq] at hnext
  have hshown := congrArg (fun u : State => u.chip.modes.shownMode) hnext
  exact absurd (runningInModeTwo_shows.symm.trans hshown) (by decide)

end Sys2Proof

/-! SUPPORT. Chapters 17, 19 and 21: the resets and the boot. -/
namespace Sys2Proof.Machine

-- One proof after another: many at once need a stack each, and together more memory than the check has.
set_option Elab.async false

/-- A vector mapped in place, read at a place of its own. -/
theorem vget_vmapIdx {α β : Type} [Inhabited α] [Inhabited β] {n i : Nat} (h : i < n) (f : Nat → α → β) (v : Vector α n) :
    vget (vmapIdx f v) i = f i (vget v i) := by
  simp [vget, vmapIdx, List.getD, h]

section
variable {c : Chip}

/-! ### Power and supply resets (R505, R541, R543) -/

/-- A tamper action leaves the switches' banks, and no key where there was none. -/
@[simp] theorem tamperActs_gp (action : Nat) (c : Chip) : (tamperActs action c).gp = c.gp := by
  simp only [tamperActs]
  repeat' split
  all_goals rfl

theorem tamperActs_keyless {action : Nat} (h : c.sec.keys = Vector.replicate 8 none ∧ c.sec.keyGeneration = 0) :
    (tamperActs action c).sec.keys = Vector.replicate 8 none ∧ (tamperActs action c).sec.keyGeneration = 0 := by
  simp only [tamperActs]
  repeat' split
  · exact ⟨rfl, rfl⟩
  · exact h
  · exact ⟨rfl, rfl⟩
  · exact h

@[simp] theorem tampered_gp (k : Nat) (c : Chip) : (tampered k c).gp = c.gp := by simp [tampered, modSec]

theorem tampered_keyless {k : Nat} (h : c.sec.keys = Vector.replicate 8 none ∧ c.sec.keyGeneration = 0) :
    (tampered k c).sec.keys = Vector.replicate 8 none ∧ (tampered k c).sec.keyGeneration = 0 :=
  tamperActs_keyless (by simpa [modSec] using h)

/-- Without its battery the device has lost its keys, and keeps its switches' banks. -/
theorem batteryLost_leaves (c : Chip) : (batteryLost c).gp = c.gp ∧ (batteryLost c).sec.keys = Vector.replicate 8 none ∧
    (batteryLost c).sec.keyGeneration = 0 := by
  unfold batteryLost
  dsimp only
  rw [tamperAssert_unpowered rfl (by decide) (by decide)]
  exact ⟨tampered_gp .., tampered_keyless ⟨rfl, rfl⟩⟩

theorem supplyReset_rail {monitor : Nat} (h : monitor ≠ 31) :
    supplyReset monitor c = keepHalt (c.modes.thermalHalt && decide (16 ≤ monitor))
      (modSec (fun s => { s with resetCause := some monitor }) (modModes (fun m => { m with powerOn := false }) (resetAll c))) := if_neg h

/-! ### The first rise of PERST_N and the boot (R541, R543) -/

/-- The device as it starts: fuses in effect, the link trained, the Sundial begun after a free delay. -/
def startedChip (width speed : Nat) (c : Chip) : Chip := { c with
  fresh := c.fresh + 1
  pcie := trained width speed c.pcie
  sec := { c.sec with fuses := vmapIdx (fun _ (f : Fuse) => { f with inEffect := f.fused }) c.sec.fuses }
  time := { c.time with sun := { c.time.sun with at_ := c.now + Config.freeValue c.fresh % 20000001 } }
  modes := { c.modes with
    boot := .booting, notReady := .boot c.now, perstSeen := true, perstAt := c.now
    personality := (vget c.sec.fuses 0).fused, nodeId := (vget c.sec.fuses 1).fused } }

theorem perstRise_first (width speed : Nat) (h : c.modes.perstSeen = false) :
    perstRise width speed c = emit (.configSpace (pciIdentity (startedChip width speed c))) (startedChip width speed c) := by
  have hfuse {i : Nat} (hi : i < 5) : (vget (vmapIdx (fun _ (f : Fuse) => { f with inEffect := f.fused }) c.sec.fuses) i).fused =
      (vget c.sec.fuses i).fused := by rw [vget_vmapIdx hi]
  refine (if_neg (by simp [h])).trans ?_
  simp only [freeNat, hfuse (show 0 < 5 by decide), hfuse (show 1 < 5 by decide), startedChip]

theorem bootEnds_recovery {passes : Nat} (dram : List (Option BootDram)) (hboot : c.modes.boot = .booting) (h : bootBankOf passes c = none) :
    bootEnds passes dram c = bootRecovery c := by
  simp [bootEnds, hboot, h]

theorem bootEnds_runs {passes b : Nat} (dram : List (Option BootDram)) (hboot : c.modes.boot = .booting) (h : bootBankOf passes c = some b) :
    bootEnds passes dram c = bootRuns b dram c := by
  simp [bootEnds, hboot, h]

/-! ### Resets of the host interface (R436, R437) -/

theorem trained_up {width speed : Nat} (p : Pcie) (hw : width ∈ [1, 2, 4, 8]) (hs : speed ∈ [1, 2, 3, 4, 5]) :
    trained width speed p = { p with linkUp := true, width, speed } := by
  refine if_pos ?_
  rw [List.contains_iff_mem.2 hw, List.contains_iff_mem.2 hs]
  rfl

theorem trained_down {width speed : Nat} (p : Pcie) (h : width ∉ [1, 2, 4, 8] ∨ speed ∉ [1, 2, 3, 4, 5]) :
    trained width speed p = { p with linkUp := false, width := 0, speed := 0 } := by
  refine if_neg ?_
  rw [Bool.and_eq_true]
  rintro ⟨hw, hs⟩
  obtain h | h := h
  · exact h (List.contains_iff_mem.1 hw)
  · exact h (List.contains_iff_mem.1 hs)

/-- The host owns every mailbox after a reset of the interface, and none holds a command. -/
theorem hostInterfaceReset_mailbox (mb : Fin 8) :
    (vget (hostInterfaceReset c).mbx.mb mb).owner = false ∧ (vget (hostInterfaceReset c).mbx.mb mb).job = none ∧
      (vget (hostInterfaceReset c).mbx.mb mb).ignored = 0 := by
  rw [hostInterfaceReset, linkReset]
  simp only [vget_vmapIdx mb.isLt, and_self]

theorem powerState_d3hot (c : Chip) : powerState true c = { c with pcie := { c.pcie with d3hot := true } } := rfl

end

end Sys2Proof.Machine

namespace Sys2Proof
open Sys2Proof.Machine
set_option Elab.async false

/-- Settles O59, row by row. -/
theorem resetAndBootEvents : Obligations.ResetAndBootEvents := by
  refine ⟨fun s t bankA bankB => ?_, fun s t monitor => ?_, fun s t width speed => ?_, fun s t passes dram => ?_, fun s t width speed kind => ?_,
    fun s t => ?_⟩
  · exact ⟨exec_powerOnReset t false bankA bankB s, exec_resetNAssert t s, _, exec_powerOnReset t true bankA bankB s, batteryLost_leaves _⟩
  · intro c hmonitor
    rw [exec_supplyReset]
    exact State.next_put (supplyReset_rail hmonitor)
  · intro c h
    refine ⟨Config.freeValue c.fresh % 20000001, startedChip width speed c, Nat.le_of_lt_succ (Nat.mod_lt _ (by decide)), rfl, ?_⟩
    rw [exec_perstNRise]
    exact State.next_put (perstRise_first width speed h)
  · intro c hboot
    rw [exec_bootComplete]
    exact ⟨fun h => State.next_put (bootEnds_recovery dram hboot h), fun b h => State.next_put (bootEnds_runs dram hboot h)⟩
  · intro ended
    exact ⟨exec_hostInterfaceReset t kind width speed s, trained_up _, trained_down _, hostInterfaceReset_mailbox, rfl, rfl, rfl, rfl, rfl, rfl⟩
  · intro c
    exact ⟨exec_powerStateChange t true s, exec_powerStateChange t false s⟩

end Sys2Proof

/-! SUPPORT. Chapters 17, 18 and 25: what the host writes and reads at the host interface. -/
namespace Sys2Proof.Machine

-- One proof after another: many at once need a stack each, and together more memory than the check has.
set_option Elab.async false

/-! ### Response bits and ignored doorbells (R467, R554) -/

/-- Writing a 1 clears the bit it stands at, and no other. -/
theorem bit_cleared (value k : Nat) (is : List Nat) (r : Nat) :
    bit (is.foldl (fun r i => if bit value i then setBit r i false else r) r) k = (bit r k && !(decide (k ∈ is) && bit value k)) := by
  induction is generalizing r with
  | nil => simp
  | cons i is ih =>
    rw [List.foldl_cons, ih]
    have hbit : bit (if bit value i then setBit r i false else r) k = (bit r k && !(decide (k = i) && bit value k)) := by
      by_cases hk : k = i
      · subst hk
        cases hv : bit value k <;> simp [bit_setBit]
      · cases hv : bit value i <;> simp [bit_setBit, hk]
    rw [hbit]
    cases bit r k <;> cases bit value k <;> simp

theorem mbxResponseWrite_bit {i : Nat} (hi : i < 8) (value : Nat) (c : Chip) :
    bit (mbxResponseWrite value c).mbx.response i = (bit c.mbx.response i && !bit value i) := by
  refine (bit_cleared value i (List.range 8) c.mbx.response).trans ?_
  simp [hi]

section
variable {c : Chip}

/-! ### Tails (R203, R460) -/

section
variable {value : Nat} (henabled : c.evq.ring.enabled = true)
include henabled

theorem evqTailWrite_accepted (h : c.evq.ring.accepts (wrapU 32 value) = true) :
    evqTailWrite value c = { c with evq := { c.evq with ring := { c.evq.ring with tail := wrapU 32 value } } } :=
  (if_neg (by simp [henabled])).trans (if_pos h)

theorem evqTailWrite_refused (h : c.evq.ring.accepts (wrapU 32 value) = false) : evqTailWrite value c = dmaError 0x7F 8 0 0 c :=
  (if_neg (by simp [henabled])).trans (if_neg (by simp [h]))

end

section
variable {ch value : Nat} {r : Ring} (hring : ringOf c ch = some r)
include hring

theorem dmaTailWrite_accepted (h : r.accepts (wrapU 32 value) = true) : dmaTailWrite ch value c =
    modDma ch (fun x => { x with tail := wrapU 32 value }) (modRing ch (fun r => { r with tail := wrapU 32 value }) c) := by
  simp only [dmaTailWrite, hring, h, if_true]

theorem dmaTailWrite_refused (h : r.accepts (wrapU 32 value) = false) : dmaTailWrite ch value c =
    dmaError ch 8 0 0 (modDma ch (fun x => { x with code := 8, detail := 0 }) c) := by
  simp only [dmaTailWrite, hring, h, Bool.false_eq_true, if_false]

end

/-! ### Channels (R446 to R448) -/

section
variable {ch : Nat}

theorem dmaChainWrite_free (value : Nat) (hactive : (vget c.pcie.dma ch).state ≠ .active) (howned : (vget c.pcie.dma ch).state ≠ .owned) :
    dmaChainWrite ch value c = modDma ch (fun x => { x with chain := wrapU 64 value, startWritten := true }) c :=
  if_neg (by simp [hactive, howned])

section
variable (nextAgain : Nat) (hlock : c.modes.lockdown = false)
include hlock

theorem dmaDoorbell_owned (howned : (vget c.pcie.dma ch).state = .owned) :
    dmaDoorbell ch nextAgain c = dmaError ch 7 0 0 (modDma ch (fun x => { x with code := 7, detail := 0 }) c) :=
  (if_neg (by simp [hlock])).trans (if_pos howned)

section
variable (howned : (vget c.pcie.dma ch).state ≠ .owned) (hactive : (vget c.pcie.dma ch).state ≠ .active)
  (hstart : (vget c.pcie.dma ch).startWritten = true)
include howned hactive hstart

theorem dmaDoorbell_misaligned (hchain : (vget c.pcie.dma ch).chain % 64 ≠ 0) :
    dmaDoorbell ch nextAgain c = dmaError ch 1 32 (vget c.pcie.dma ch).chain
      (modDma ch (fun x => { x with startWritten := false, state := .halted, code := 1, detail := 32 }) c) :=
  (if_neg (by simp [hlock])).trans ((if_neg howned).trans ((if_neg hactive).trans (if_pos ⟨hstart, hchain⟩)))

/-- A channel starts at the chain written last; a null chain leaves it idle. -/
theorem dmaDoorbell_starts (hchain : (vget c.pcie.dma ch).chain % 64 = 0) :
    dmaDoorbell ch nextAgain c = modDma ch (fun x => { x with
      startWritten := false, startedSinceReset := true, stalledAt := 0, cur := (vget c.pcie.dma ch).chain
      state := if (vget c.pcie.dma ch).chain = 0 then .idle else .active }) c :=
  (if_neg (by simp [hlock])).trans ((if_neg howned).trans ((if_neg hactive).trans ((if_neg fun h => h.2 hchain).trans (if_pos hstart))))

end

end

/-- Two changes that agree on the channel as it stands are one change. -/
theorem modDma_congr {f g : Dma → Dma} (h : f (vget c.pcie.dma ch) = g (vget c.pcie.dma ch)) : modDma ch f c = modDma ch g c := by
  simp only [modDma, vmod, h]

/-! ### Descriptors (R451) -/

section
variable {desc data : List Byte} (bulk : Mem) (hactive : (vget c.pcie.dma ch).state = .active) (howner : (vget c.pcie.dma ch).owner = 0)
  (hhost : hostWrites c = true) (hvalid : bit (rd desc 0 4) 0 = true) (halign : alignFaults desc = 0) (hsound : descriptorFault desc = none)
include hactive howner hhost hvalid halign hsound

/-- A sound descriptor of an active channel of the host is carried out. -/
theorem withDescriptor_sound (run : Nat → Nat → Chip → Chip) : withDescriptor ch desc run c =
    run (vget c.pcie.dma ch).cur (rd desc 4 4 * rd desc 32 2) (emit (.hostRead (vget c.pcie.dma ch).cur 64) c) := by
  have hserves : ¬ ((vget c.pcie.dma ch).state ≠ .active ∨ (vget c.pcie.dma ch).owner ≠ 0 ∨ (!hostWrites c) = true) := by
    simp [hactive, howner, hhost]
  simp only [withDescriptor, if_neg hserves, hvalid, halign, hsound, ne_eq, not_true_eq_false, Bool.not_true, Bool.false_eq_true, if_false]

theorem runDescriptor_moved (nextAgain : Nat) (hstop : (vget c.pcie.dma ch).stopRequested = false) :
    runDescriptor ch desc data none nextAgain bulk c = advanceChain ch (rd desc 40 8) nextAgain
      (endDescriptor ch desc (vget c.pcie.dma ch).cur 0 0 (rd desc 4 4 * rd desc 32 2)
        (moveBytes desc data bulk (rd desc 4 4 * rd desc 32 2) (emit (.hostRead (vget c.pcie.dma ch).cur 64) c))) := by
  rw [runDescriptor, withDescriptor_sound hactive howner hhost hvalid halign hsound]
  exact if_neg (ne_true_of_eq_false hstop)

theorem runDescriptor_failed (nextAgain : Nat) {f : Nat × Nat × Nat} (hstop : (vget c.pcie.dma ch).stopRequested = false)
    (hf : transferFails desc f = true) :
    runDescriptor ch desc data (some f) nextAgain bulk c = endDescriptor ch desc (vget c.pcie.dma ch).cur f.1 f.2.1 f.2.2
      (moveBytes desc data bulk f.2.2 (emit (.hostRead (vget c.pcie.dma ch).cur 64) c)) := by
  rw [runDescriptor, withDescriptor_sound hactive howner hhost hvalid halign hsound]
  refine (if_neg (ne_true_of_eq_false hstop)).trans ?_
  rw [Option.filter_some_pos hf]

theorem runDescriptor_stopped (nextAgain : Nat) (f : Option (Nat × Nat × Nat)) (hstop : (vget c.pcie.dma ch).stopRequested = true) :
    runDescriptor ch desc data f nextAgain bulk c =
      endDescriptor ch desc (vget c.pcie.dma ch).cur 6 0 0 (emit (.hostRead (vget c.pcie.dma ch).cur 64) c) := by
  rw [runDescriptor, withDescriptor_sound hactive howner hhost hvalid halign hsound]
  exact if_pos hstop

theorem stopEffect_partial (lines : Nat) (hstop : (vget c.pcie.dma ch).stopRequested = true) :
    stopEffect ch desc data lines bulk c = endDescriptor ch desc (vget c.pcie.dma ch).cur 6 0
      (min (rd desc 4 4 * lines) (rd desc 4 4 * rd desc 32 2))
      (moveBytes desc data bulk (min (rd desc 4 4 * lines) (rd desc 4 4 * rd desc 32 2)) (emit (.hostRead (vget c.pcie.dma ch).cur 64) c)) := by
  rw [stopEffect, if_neg (by simp [hstop]), withDescriptor_sound hactive howner hhost hvalid halign hsound]

end

end

/-! ### Reads of registers (R588) -/

section
variable {offset : Nat}

theorem registerRead_invalid {part : Fin 4} (h : part = 3 ∨ offset % 4 ≠ 0) : registerRead offset part c = emit (.readData 0) c := by
  refine if_pos ?_
  obtain rfl | h := h
  · exact Or.inl (by decide)
  · right; left
    split
    · omega
    · exact h

section
variable (halign : offset % 8 = 0) (hwindow : windowOpen c offset = false) (hignored : offset ≠ 0x18050) (hsundial : offset ≠ 0x40000)
include halign hwindow hignored hsundial

theorem registerRead_whole : registerRead offset 2 c = emit (.readData (bar0 c offset)) c := by
  have hquad : offset % 4 = 0 := by omega
  simp [registerRead, halign, hquad, hwindow, hignored, hsundial]

section
variable (hhalves : plainHalves offset = false)
include hhalves

/-- The lower half is read with the upper one latched. -/
theorem registerRead_lower :
    registerRead offset 0 c = emit (.readData (bar0 c offset % 2 ^ 32)) (setLatch offset (bar0 c offset / 2 ^ 32) c) := by
  have hquad : offset % 4 = 0 := by omega
  simp [registerRead, halign, hquad, hwindow, hignored, hsundial, hhalves]

theorem registerRead_upper : registerRead offset 1 c = emit (.readData (latchOf c offset)) c := by
  have hupper : (offset + 4) % 8 = 4 := by omega
  have hquad : (offset + 4) % 4 = 0 := by omega
  simp [registerRead, hupper, hquad, hwindow, hignored, hsundial, hhalves]

end

end

/-! ### Writes of registers (R438, R439, R590) -/

theorem msixWrite_eq (vector : Nat) (word : Fin 4) (value : Nat) (c : Chip) :
    msixWrite vector word value c = releaseVector vector { c with pcie := { c.pcie with
      msix := vmod c.pcie.msix vector fun e =>
        if (word : Nat) = 0 then { e with addrLo := wrapU 32 value - wrapU 32 value % 4 }
        else if (word : Nat) = 1 then { e with addrHi := wrapU 32 value }
        else if (word : Nat) = 2 then { e with data := wrapU 32 value } else { e with mask := bit (wrapU 32 value) 0 } } } := by
  match word with
  | 0 | 1 | 2 | 3 => rfl

theorem registerWrite_scratch (value : Nat) : registerWrite 0x20 4 value c = { c with regs := { c.regs with scratch := wrapU 32 value } } := rfl

section
variable {mb : Fin 8} {off : Nat} (hoff : off < 4096)
include hoff

theorem mailbox_offset : (0x10000 + 4096 * (mb : Nat) + off - 0x10000) / 4096 = mb ∧ (0x10000 + 4096 * (mb : Nat) + off) % 4096 = off ∧
    0x10000 + 4096 * (mb : Nat) + off ≠ 0x20 ∧ 0x10000 ≤ 0x10000 + 4096 * (mb : Nat) + off ∧ 0x10000 + 4096 * (mb : Nat) + off < 0x18000 := by
  have := mb.isLt
  omega

/-- A word written to a mailbox of the host stands there; the owner's byte stays 0. -/
theorem registerWrite_mailbox (value : Nat) (howner : (vget c.mbx.mb mb).owner = false) (halign : off % 4 = 0) :
    registerWrite (0x10000 + 4096 * (mb : Nat) + off) 4 value c = { c with mbx := { c.mbx with mb := vset c.mbx.mb mb { vget c.mbx.mb mb with
      bytes := putB (putB (fit 4096 (vget c.mbx.mb mb).bytes) off (le 4 value)) 9 [0] } } } := by
  obtain ⟨hmb, hplace, hscratch, hlow, hhigh⟩ := mailbox_offset (mb := mb) hoff
  have hword : ¬ ((4 ≠ 4 ∧ 4 ≠ 8) ∨ (0x10000 + 4096 * (mb : Nat) + off) % 4 ≠ 0) := by omega
  simp only [registerWrite, if_neg hword, if_neg hscratch, if_pos (And.intro hlow hhigh), hmb, hplace, howner, Bool.false_eq_true, if_false]

/-- A mailbox the device owns takes no write. -/
theorem registerWrite_owned (value : Nat) (howner : (vget c.mbx.mb mb).owner = true) :
    registerWrite (0x10000 + 4096 * (mb : Nat) + off) 4 value c = c := by
  obtain ⟨hmb, -, hscratch, hlow, hhigh⟩ := mailbox_offset (mb := mb) hoff
  simp only [registerWrite, if_neg hscratch, if_pos (And.intro hlow hhigh), hmb, howner, if_true, ite_self]

end

end

/-! ### The event ring (R459, R596) and doorbells (R467) -/

theorem writeHeldEvent_cons {e : Event} {rest : List Event} (hroom : eventRoom c = true) (h : c.evq.fifo = e :: rest) :
    writeHeldEvent c = eventPut e { c with evq := { c.evq with fifo := rest } } := by
  simp only [writeHeldEvent, hroom, h, Bool.not_true, Bool.false_eq_true, if_false]

theorem endRateSecond_over {code inst : Nat} {w : RateWindow} (hw : c.rates.find? (fun w => w.code == code && w.key == inst) = some w)
    (htime : w.until_ ≤ c.now) :
    let rest := c.rates.filter fun w => !(w.code == code && w.key == inst)
    endRateSecond code inst c = if w.collected = 0 then { c with rates := rest }
      else raise code w.severity w.source (w.withCount (if w.lessOne then w.collected - 1 else w.collected))
        { c with rates := rest ++ [{ w with collected := 0, until_ := c.now + 1000000000 }] } := by
  simp only [endRateSecond, hw, if_neg (Nat.not_lt.2 htime)]

theorem doorbell_admits {mb native : Nat} (howner : (vget c.mbx.mb mb).owner = false) :
    let m := vget c.mbx.mb mb
    let taken := { c with mbx := { c.mbx with response := setBit c.mbx.response mb false, mb := vset c.mbx.mb mb { m with owner := true } } }
    notReadyWait taken mb = none → m.lastSequence ≠ some (rd m.bytes 0 2) → servedAs taken mb (rd m.bytes 2 2) = some native →
    doorbell mb c = admitJob mb (rd m.bytes 2 2) native taken := by
  intro m taken hready hnew hserved
  dsimp only [m, taken] at hready hnew hserved
  simp only [doorbell, howner, hready, if_neg hnew, hserved, Bool.false_eq_true, if_false]
  rfl

end

end Sys2Proof.Machine

namespace Sys2Proof
open Sys2Proof.Machine
set_option Elab.async false

/-- Settles O60, row by row. -/
theorem hostInterfaceEvents : Obligations.HostInterfaceEvents := by
  refine ⟨fun s t value => ?_, fun s t => ?_, fun s t value => ?_, fun s t ch value nextAgain => ?_, fun s t ch desc data nextAgain lines => ?_,
    fun s t => ?_, fun s t offset part h => ?_, fun s t offset => ?_, fun s t vector word value => ?_, fun s t value off mb => ?_, fun s t => ?_,
    fun s t code inst w => ?_, fun s t native mb => ?_⟩
  · exact ⟨_, exec_mbxResponseWrite t value s, fun i hi => mbxResponseWrite_bit hi value (s.tick t), rfl⟩
  · intro c v cleared
    exact ⟨exec_mbxIgnoredRead t 2 s, exec_mbxIgnoredRead t 1 s, exec_mbxIgnoredRead t 0 s⟩
  · intro c henabled
    rw [exec_evqTailWrite]
    exact ⟨fun h => State.next_put (evqTailWrite_accepted henabled h), fun h => State.next_put (evqTailWrite_refused henabled h)⟩
  · intro c x
    simp only [exec_dmaChainWrite, exec_dmaDoorbell, exec_dmaStopRequest, exec_dmaTailWrite]
    exact ⟨fun hactive howned => State.next_put (dmaChainWrite_free value hactive howned),
      fun hlock howned => State.next_put (dmaDoorbell_owned nextAgain hlock howned),
      fun hlock howned hactive hstart hchain => State.next_put (dmaDoorbell_misaligned nextAgain hlock howned hactive hstart hchain),
      fun hlock howned hactive hstart hchain => State.next_put (dmaDoorbell_starts nextAgain hlock howned hactive hstart hchain),
      fun hactive => State.next_put (modDma_congr (if_pos hactive)), fun hactive => State.next_put (modDma_congr (if_neg hactive)),
      fun r hring h => State.next_put (dmaTailWrite_accepted hring h), fun r hring h => State.next_put (dmaTailWrite_refused hring h)⟩
  · intro c x total fetched hactive howner hhost hvalid halign hsound
    simp only [exec_dmaDescriptor, exec_dmaStopEffect]
    exact ⟨fun hstop => State.next_put (runDescriptor_moved s.bulk hactive howner hhost hvalid halign hsound nextAgain hstop),
      fun f hstop hf => State.next_put (runDescriptor_failed s.bulk hactive howner hhost hvalid halign hsound nextAgain hstop hf),
      fun f hstop => State.next_put (runDescriptor_stopped s.bulk hactive howner hhost hvalid halign hsound nextAgain f hstop),
      fun hstop => State.next_put (stopEffect_partial s.bulk hactive howner hhost hvalid halign hsound lines hstop)⟩
  · intro c total v
    exact ⟨_, _, rfl, exec_sdlSubsecRead t true s, exec_sdlSubsecRead t false s⟩
  · rw [exec_lowerHalfRead]
    exact State.next_put (registerRead_invalid h)
  · intro c halign hwindow hignored hsundial
    simp only [exec_lowerHalfRead]
    exact ⟨State.next_put (registerRead_whole halign hwindow hignored hsundial),
      fun hhalves => ⟨State.next_put (registerRead_lower halign hwindow hignored hsundial hhalves),
        State.next_put (registerRead_upper halign hwindow hignored hsundial hhalves)⟩⟩
  · intro c x
    rw [exec_msixEntryWrite]
    exact State.next_put (msixWrite_eq vector word value c)
  · intro c m
    simp only [exec_registerWrite]
    exact ⟨State.next_put (registerWrite_scratch value), fun howner hoff halign => State.next_put (registerWrite_mailbox hoff value howner halign),
      fun howner hoff => State.next_put (registerWrite_owned hoff value howner)⟩
  · intro lost hroom e rest h
    rw [exec_eventRingWrite]
    exact State.next_put (writeHeldEvent_cons hroom h)
  · intro c rest hw htime
    rw [exec_rateLimitSecondEnd, endRateSecond_over (c := s.tick t) hw htime]
    exact ⟨fun h => State.next_put (if_pos h), fun h => State.next_put (if_neg h)⟩
  · intro c m code taken howner hready hnew hserved
    rw [exec_mailboxDoorbell]
    exact State.next_put (doorbell_admits howner hready hnew hserved)

end Sys2Proof
